-- ==== Sys2Proof/Word.lean ====
section
/-! DEFINITION. The word types of the Lomquaz LQ-1920 and their plainest arithmetic. Bit 0 is the
least significant bit (00 R5); pseudocode arithmetic is exact and takes a width only where a value
is assigned (00 R13), so results are computed on `Nat` and `Int` and narrowed by `w32`. -/

namespace Sys2Proof

/-- A register, socket or move value (02 R33). -/
abbrev Word := BitVec 32

/-- One byte of memory. -/
abbrev Byte := BitVec 8

/-- The low 32 bits of an exact natural result (00 R13). -/
def w32 (n : Nat) : Word := BitVec.ofNat 32 n

/-- The low 32 bits of an exact integer result (00 R13). -/
def w32i (n : Int) : Word := BitVec.ofInt 32 n

end Sys2Proof
end

