-- ==== Sys2Proof/Syntax.lean ====
section
/-! DEFINITION. The commands that the block takes: one constructor per row of the opcode table. Operands named
`e` and `t` are an engine (192 for the keepers) and a thread, `u` a unit or pair member, `o` and `x` the words in the
unit's O socket and T socket, `wide` says whether the bundle is long, `at'` is a tide time; operands that stand
for what the device cannot know (wires, the medium, defects, upsets) are the environment's (notes/assumptions/19
and 20). -/

namespace Sys2Proof

/-- A commit block: one set of staging registers with its COMMIT and RESULT (00 R15). -/
inductive Blk where
  | tbl (e : Nat) | rng (e : Nat) | pat (d : Nat) | memCfg (d : Nat) | slot | mtx
  | cul (c n : Nat) | evr | tide | tio (n : Nat) | dlk (n : Nat) | weir | flt
  | eth (n : Nat) | str | csi (n : Nat) | vlt | start | bist | otp | thr
  deriving DecidableEq, Repr

/-- Who makes a request: an engine, a keeper, the debug access port, a culvert, the vault, the host, the
Ethernet hub, the camera hub, or the Terp's own logic (10 R277, R393). -/
inductive Requester where
  | engine (e : Nat) | keeper | dap | culvert (c : Nat) | vault | pcie | ethernet | camera | terp
  deriving DecidableEq, Repr

/-- A requester and the ring that its request carries (08 R277). -/
structure By where
  who : Requester
  ring : Nat
  deriving DecidableEq, Repr

/-- What the NAND medium did during an action of the vault (16 R603, R609 to R612; notes/assumptions/19):
codewords corrected, recovered and not recovered; a failure of the medium (1 a codeword that nothing
recovers, 2 no room, 3 a time-out of WAIT_RB); the good free blocks of each channel afterwards; the
channels of the blocks retired and of the blocks moved; and for a LOAD the IMAGE section, and the number of the section
of that image, whose read from the staging area meets an uncorrectable error while the image is written (07 R272). -/
structure Med where
  corr : Nat := 0
  retries : Nat := 0
  uncorr : Nat := 0
  fail : Nat := 0
  good : List Nat := []
  retired : List Nat := []
  moved : List Nat := []
  upset : Option (Nat × Nat) := none
  deriving DecidableEq, Repr

/-- A command (spec/opcode_table.json). Operands that stand for what the spec leaves to time: `late` is how many cycles a
line read waited for another thread's, `lost` how many cycles an access lost in arbitration, `clash` that another port
wrote the same double in the same cycle (06 R218, R219; 09 R330, R331; notes/assumptions/53). -/
inductive Instr where
  /-- BUNDLE_ISSUE (R34): A thread issues one move-mode bundle, which reads sources, writes destinations
  and fires triggers in three phases. -/
  | bundleIssue (e t : Nat) (parity : Bool) (late : Nat)
  /-- REP (R71): A REP prefix latches a count and the next bundle executes that many times. -/
  | rep (e t : Nat)
  /-- OPERATION_RESULT (R216): A triggered operation completes and delivers its results, predicates and
  direct register writes. -/
  | operationResult (e t unit lost : Nat)
  /-- LOAD_RESPONSE (R157): The response of a load, atomic or store arrives, delivering data or a data-
  bus-error fault. -/
  | loadResponse (e t i upset lost : Nat)
  /-- ECC_WRITEBACK (R337): A memory writes a corrected double back in its next idle bank cycle. -/
  | eccWriteback (pa : Nat)
  /-- STORE_DRAIN (R238): A store-buffer entry drains to its target in a free bank cycle or when
  acknowledged. -/
  | storeDrain (e t i lost : Nat) (clash : Bool)
  /-- ADD (R135): ALU adds O and T, with optional carry out and OV. -/
  | add (e t u pd : Nat) (o x : Word)
  /-- SUB (R135): ALU subtracts T from O, with optional borrow out and OV. -/
  | sub (e t u pd : Nat) (o x : Word)
  /-- ADDC (R135): ALU adds O, T and the carry predicate. -/
  | addc (e t u pd : Nat) (o x : Word)
  /-- SUBB (R135): ALU subtracts T and the borrow predicate from O. -/
  | subb (e t u pd : Nat) (o x : Word)
  /-- ADDS (R135): ALU adds with signed saturation. -/
  | adds (e t u : Nat) (o x : Word)
  /-- SUBS (R135): ALU subtracts with signed saturation. -/
  | subs (e t u : Nat) (o x : Word)
  /-- NEG (R135): ALU negates T. -/
  | neg (e t u : Nat) (o x : Word)
  /-- ABS (R135): ALU takes the absolute value of T. -/
  | abs (e t u : Nat) (o x : Word)
  /-- AND (R135): ALU bitwise AND of O and T. -/
  | and (e t u : Nat) (o x : Word)
  /-- OR (R135): ALU bitwise OR of O and T. -/
  | or (e t u : Nat) (o x : Word)
  /-- XOR (R135): ALU bitwise XOR of O and T. -/
  | xor (e t u : Nat) (o x : Word)
  /-- ANDN (R135): ALU computes O AND NOT T. -/
  | andn (e t u : Nat) (o x : Word)
  /-- NOT (R135): ALU complements T. -/
  | not (e t u : Nat) (o x : Word)
  /-- SHL (R137): ALU shifts O left by an unmasked count. -/
  | shl (e t u : Nat) (o x : Word)
  /-- SHR (R137): ALU shifts O right with zero fill. -/
  | shr (e t u : Nat) (o x : Word)
  /-- SAR (R137): ALU shifts O right with sign fill. -/
  | sar (e t u : Nat) (o x : Word)
  /-- ROL (R137): ALU rotates O left. -/
  | rol (e t u : Nat) (o x : Word)
  /-- ROR (R137): ALU rotates O right. -/
  | ror (e t u : Nat) (o x : Word)
  /-- MIN (R135): ALU signed minimum. -/
  | min (e t u : Nat) (o x : Word)
  /-- MAX (R135): ALU signed maximum. -/
  | max (e t u : Nat) (o x : Word)
  /-- MINU (R135): ALU unsigned minimum. -/
  | minu (e t u : Nat) (o x : Word)
  /-- MAXU (R135): ALU unsigned maximum. -/
  | maxu (e t u : Nat) (o x : Word)
  /-- SATS (R137): ALU clamps O to a signed width of T bits. -/
  | sats (e t u : Nat) (o x : Word)
  /-- SATU (R137): ALU clamps O to an unsigned width of T bits. -/
  | satu (e t u : Nat) (o x : Word)
  /-- SEXTB (R135): ALU sign-extends byte of T. -/
  | sextb (e t u : Nat) (o x : Word)
  /-- SEXTH (R135): ALU sign-extends half of T. -/
  | sexth (e t u : Nat) (o x : Word)
  /-- ZEXTB (R135): ALU zero-extends byte of T. -/
  | zextb (e t u : Nat) (o x : Word)
  /-- ZEXTH (R135): ALU zero-extends half of T. -/
  | zexth (e t u : Nat) (o x : Word)
  /-- CLZ (R135): ALU counts leading zeros of T. -/
  | clz (e t u : Nat) (o x : Word)
  /-- POPC (R135): ALU counts one bits of T. -/
  | popc (e t u : Nat) (o x : Word)
  /-- CMPEQ (R135): ALU compares for equality and may write a predicate. -/
  | cmpeq (e t u pd : Nat) (o x : Word)
  /-- CMPNE (R135): ALU compares for inequality. -/
  | cmpne (e t u pd : Nat) (o x : Word)
  /-- CMPLT (R135): ALU signed less-than compare. -/
  | cmplt (e t u pd : Nat) (o x : Word)
  /-- CMPLE (R135): ALU signed less-or-equal compare. -/
  | cmple (e t u pd : Nat) (o x : Word)
  /-- CMPGT (R135): ALU signed greater-than compare. -/
  | cmpgt (e t u pd : Nat) (o x : Word)
  /-- CMPGE (R135): ALU signed greater-or-equal compare. -/
  | cmpge (e t u pd : Nat) (o x : Word)
  /-- CMPLTU (R135): ALU unsigned less-than compare. -/
  | cmpltu (e t u pd : Nat) (o x : Word)
  /-- CMPLEU (R135): ALU unsigned less-or-equal compare. -/
  | cmpleu (e t u pd : Nat) (o x : Word)
  /-- CMPGTU (R135): ALU unsigned greater-than compare. -/
  | cmpgtu (e t u pd : Nat) (o x : Word)
  /-- CMPGEU (R135): ALU unsigned greater-or-equal compare. -/
  | cmpgeu (e t u pd : Nat) (o x : Word)
  /-- TSTZ (R135): ALU tests O AND T for zero. -/
  | tstz (e t u pd : Nat) (o x : Word)
  /-- TSTNZ (R135): ALU tests O AND T for nonzero. -/
  | tstnz (e t u pd : Nat) (o x : Word)
  /-- LEA (R139): AGU computes A[AR] plus T without updating the register. -/
  | lea (e t ar : Nat) (x : Word)
  /-- AADD (R139): AGU adds T to A[AR] and writes it back. -/
  | aadd (e t ar : Nat) (x : Word)
  /-- AMOD (R140): AGU steps a pointer through a ring buffer. -/
  | amod (e t ar ab : Nat) (o x : Word)
  /-- MULS (R141): MUL signed 64-bit product into MH and ML. -/
  | muls (e t : Nat) (o x : Word)
  /-- MULU (R141): MUL unsigned product. -/
  | mulu (e t : Nat) (o x : Word)
  /-- MULSU (R141): MUL signed by unsigned product. -/
  | mulsu (e t : Nat) (o x : Word)
  /-- MULQ (R142): MUL scaled, rounded and saturated product. -/
  | mulq (e t sh : Nat) (o x : Word)
  /-- DIVS (R144): DIV signed division truncating toward zero. -/
  | divs (e t : Nat) (o x : Word)
  /-- DIVU (R144): DIV unsigned division. -/
  | divu (e t : Nat) (o x : Word)
  /-- MAC16 (R146): SIMD accumulates eight signed half products. -/
  | mac16 (e t xa qa qb : Nat) (x : Word)
  /-- MAC8SS (R146): SIMD accumulates signed byte-pair products. -/
  | mac8ss (e t xa qa qb : Nat) (x : Word)
  /-- MAC8US (R146): SIMD accumulates unsigned-by-signed byte-pair products. -/
  | mac8us (e t xa qa qb : Nat) (x : Word)
  /-- MAC8UU (R146): SIMD accumulates unsigned byte-pair products. -/
  | mac8uu (e t xa qa qb : Nat) (x : Word)
  /-- NARS16 (R147): SIMD narrows accumulator lanes to signed halves. -/
  | nars16 (e t xa qd : Nat) (x : Word)
  /-- NARS8 (R147): SIMD narrows accumulator lanes to signed bytes. -/
  | nars8 (e t xa qd : Nat) (x : Word)
  /-- NARU8 (R147): SIMD narrows accumulator lanes to unsigned bytes. -/
  | naru8 (e t xa qd : Nat) (x : Word)
  /-- PACKS8 (R145): SIMD packs halves to signed saturated bytes. -/
  | packs8 (e t qa qb qd : Nat)
  /-- PACKU8 (R145): SIMD packs halves to unsigned saturated bytes. -/
  | packu8 (e t qa qb qd : Nat)
  /-- UNPKL8 (R145): SIMD unpacks low bytes sign-extended. -/
  | unpkl8 (e t qa qd : Nat)
  /-- UNPKH8 (R145): SIMD unpacks high bytes sign-extended. -/
  | unpkh8 (e t qa qd : Nat)
  /-- UNPKLU8 (R145): SIMD unpacks low bytes zero-extended. -/
  | unpklu8 (e t qa qd : Nat)
  /-- UNPKHU8 (R145): SIMD unpacks high bytes zero-extended. -/
  | unpkhu8 (e t qa qd : Nat)
  /-- XLANE (R145): SIMD delivers one saturated accumulator lane to SIMD.R. -/
  | xlane (e t xa : Nat) (x : Word)
  /-- DADD (R150): DEC adds packed decimal words with carry. -/
  | dadd (e t pd : Nat) (o x : Word)
  /-- DSUB (R150): DEC subtracts packed decimal words with borrow. -/
  | dsub (e t pd : Nat) (o x : Word)
  /-- DADJ (R150): DEC brings every digit to 0-9. -/
  | dadj (e t pd : Nat) (o x : Word)
  /-- B2D (R150): DEC converts binary to 8 decimal digits. -/
  | b2d (e t : Nat) (o x : Word)
  /-- D2B (R150): DEC converts decimal digits to binary. -/
  | d2b (e t : Nat) (o x : Word)
  /-- DSHL (R150): DEC shifts left by digits. -/
  | dshl (e t : Nat) (o x : Word)
  /-- DSHR (R150): DEC shifts right by digits. -/
  | dshr (e t : Nat) (o x : Word)
  /-- LDB (R151): LSU loads a sign-extended byte. -/
  | ldb (e t u ar : Nat) (upd : Bool) (x : Word)
  /-- LDBU (R151): LSU loads a zero-extended byte. -/
  | ldbu (e t u ar : Nat) (upd : Bool) (x : Word)
  /-- LDH (R151): LSU loads a sign-extended half. -/
  | ldh (e t u ar : Nat) (upd : Bool) (x : Word)
  /-- LDHU (R151): LSU loads a zero-extended half. -/
  | ldhu (e t u ar : Nat) (upd : Bool) (x : Word)
  /-- LDW (R151): LSU loads a word. -/
  | ldw (e t u ar : Nat) (upd : Bool) (x : Word)
  /-- LDD (R151): LSU loads a double into a register pair. -/
  | ldd (e t u dr ar : Nat) (upd : Bool) (x : Word)
  /-- STB (R151): LSU stores a byte through the store buffer. -/
  | stb (e t u ar : Nat) (upd : Bool) (o x : Word)
  /-- STH (R151): LSU stores a half. -/
  | sth (e t u ar : Nat) (upd : Bool) (o x : Word)
  /-- STW (R151): LSU stores a word. -/
  | stw (e t u ar : Nat) (upd : Bool) (o x : Word)
  /-- STD (R151): LSU stores a register pair as a double. -/
  | std (e t u dr ar : Nat) (upd : Bool) (x : Word)
  /-- AFADD (R151): LSU atomic fetch-and-add on a word. -/
  | afadd (e t u ar : Nat) (o x : Word)
  /-- ASWAP (R151): LSU atomic swap of a word. -/
  | aswap (e t u ar : Nat) (o x : Word)
  /-- ACAS (R151): LSU atomic compare-and-swap of a word. -/
  | acas (e t u dr ar : Nat) (o x : Word)
  /-- BR (R67): CTL branch with one delay slot. -/
  | br (e t : Nat) (hint : Bool) (x : Word) (wide : Bool)
  /-- JL (R68): CTL branch that writes the return address to LK. -/
  | jl (e t : Nat) (hint : Bool) (x : Word) (wide : Bool)
  /-- CBR_EQ (R158): CTL compare-and-branch if equal. -/
  | cbrEq (e t : Nat) (hint : Bool) (o x : Word) (imm : Nat)
  /-- CBR_NE (R158): CTL compare-and-branch if not equal. -/
  | cbrNe (e t : Nat) (hint : Bool) (o x : Word) (imm : Nat)
  /-- CBR_LT (R158): CTL compare-and-branch if signed less. -/
  | cbrLt (e t : Nat) (hint : Bool) (o x : Word) (imm : Nat)
  /-- CBR_GE (R158): CTL compare-and-branch if signed not less. -/
  | cbrGe (e t : Nat) (hint : Bool) (o x : Word) (imm : Nat)
  /-- CBR_LTU (R158): CTL compare-and-branch if unsigned less. -/
  | cbrLtu (e t : Nat) (hint : Bool) (o x : Word) (imm : Nat)
  /-- CBR_GEU (R158): CTL compare-and-branch if unsigned not less. -/
  | cbrGeu (e t : Nat) (hint : Bool) (o x : Word) (imm : Nat)
  /-- ENTER_S (R91): CTL enters stack mode at the target after the delay slot. -/
  | enterS (e t : Nat) (x : Word) (wide : Bool)
  /-- MFC (R61): CTL reads a control register into CTL.R. -/
  | mfc (e t n : Nat) (wide : Bool)
  /-- MTC (R63): CTL writes a control register under the ring rules. -/
  | mtc (e t n : Nat) (x : Word) (wide : Bool)
  /-- TSTART (R81): CTL moves a STOPPED thread to READY at an address. -/
  | tstart (e t : Nat) (o x : Word) (wide : Bool)
  /-- TSTOP (R82): CTL stops a thread after its current bundle. -/
  | tstop (e t : Nat) (x : Word) (wide : Bool)
  /-- GATE (R287): CTL calls through a gate into a more privileged ring. -/
  | gate (e t n : Nat) (wide : Bool)
  /-- RETG (R290): CTL returns from a gate using the frame at A15. -/
  | retg (e t : Nat) (wide : Bool)
  /-- RETX (R305): CTL returns from an exception handler. -/
  | retx (e t : Nat) (wide : Bool)
  /-- IFLUSH (R163): CTL discards a fetch line and refetches. -/
  | iflush (e t : Nat) (x : Word) (wide : Bool)
  /-- SYNC_M (R161): CTL holds the thread until its memory accesses complete. -/
  | syncM (e t : Nat) (wide : Bool)
  /-- FENCE_A (R162): CTL holds the thread until its arithmetic operations complete. -/
  | fenceA (e t : Nat) (wide : Bool)
  /-- EVAL (R185): CRV evaluates a cam table at a master position. -/
  | eval (e t cs : Nat) (x : Word)
  /-- BEAT (R204): CRV detects a beat-group wrap and performs the group's pending swaps. -/
  | beat (e t bg : Nat) (x : Word)
  /-- STEP (R194): SEQ performs one state-machine transition from a sequence table. -/
  | step (e t sl pd : Nat) (o x : Word)
  /-- TBLA (R193): SEQ returns the address of a slot's live table. -/
  | tbla (e t sl kd : Nat)
  /-- SEND (R373): NET writes a quad as the next flit of a send channel. -/
  | send (e t ch q : Nat) (x : Word)
  /-- RECV (R374): NET takes the next flit of a receive channel. -/
  | recv (e t ch pd : Nat)
  /-- RPOLL (R373): NET tests whether a receive channel holds a complete message. -/
  | rpoll (e t ch pd : Nat)
  /-- RSKIP (R373): NET discards the complete message at the head of a channel. -/
  | rskip (e t ch : Nat)
  /-- TAKE (R455): EVQ removes the oldest record of the thread's queue. -/
  | take (e t pd : Nat)
  /-- WAIT (R456): EVQ takes a record or waits for one with an optional timeout. -/
  | wait (e t pd : Nat) (x : Word)
  /-- EVQ_WAIT_TIMEOUT (R456): A WAIT timeout expires with no record and the wait completes with the
  predicate 0. -/
  | evqWaitTimeout (e t : Nat)
  /-- POLL (R455): EVQ tests whether the queue holds a record. -/
  | poll (e t pd : Nat)
  /-- RING (R455): EVQ raises a doorbell record with a register payload. -/
  | ring (e t dr : Nat) (x : Word)
  /-- HASH (R116): HV computes a SHA-256 digest of a block of data. -/
  | hash (e t : Nat) (block : Word)
  /-- VERIFY (R116): HV verifies an ECDSA P-256 signature over a digest. -/
  | verify (e t : Nat) (block : Word)
  /-- HASH_VERIFY (R116): HV hashes and then verifies. -/
  | hashVerify (e t : Nat) (block : Word)
  /-- HV_JOB_COMPLETE (R118): An HV job ends and its status appears in HV.R. -/
  | hvJobComplete (p : Nat)
  /-- UX_OPERATION (R120): Moves to UXk send words to an external unit and the W-th word sends the OP
  packet. -/
  | uxOperation (e t u : Nat) (ws : List Word)
  /-- STK_PUSHS (R123): Stack mode pushes a small signed constant. -/
  | stkPushs (e t : Nat)
  /-- STK_PUSHW (R123): Stack mode pushes the word in the next two halves. -/
  | stkPushw (e t : Nat)
  /-- STK_LDB (R123): Stack mode loads a sign-extended byte. -/
  | stkLdb (e t : Nat)
  /-- STK_LDBU (R123): Stack mode loads a zero-extended byte. -/
  | stkLdbu (e t : Nat)
  /-- STK_LDH (R123): Stack mode loads a sign-extended half. -/
  | stkLdh (e t : Nat)
  /-- STK_LDHU (R123): Stack mode loads a zero-extended half. -/
  | stkLdhu (e t : Nat)
  /-- STK_LDW (R123): Stack mode loads a word. -/
  | stkLdw (e t : Nat)
  /-- STK_STB (R123): Stack mode stores a byte. -/
  | stkStb (e t : Nat)
  /-- STK_STH (R123): Stack mode stores a half. -/
  | stkSth (e t : Nat)
  /-- STK_STW (R123): Stack mode stores a word. -/
  | stkStw (e t : Nat)
  /-- STK_ADD (R123): Stack mode adds the top two entries. -/
  | stkAdd (e t : Nat)
  /-- STK_SUB (R123): Stack mode subtracts. -/
  | stkSub (e t : Nat)
  /-- STK_AND (R123): Stack mode bitwise AND. -/
  | stkAnd (e t : Nat)
  /-- STK_OR (R123): Stack mode bitwise OR. -/
  | stkOr (e t : Nat)
  /-- STK_XOR (R123): Stack mode bitwise XOR. -/
  | stkXor (e t : Nat)
  /-- STK_SHL (R123): Stack mode shift left. -/
  | stkShl (e t : Nat)
  /-- STK_SHR (R123): Stack mode logical shift right. -/
  | stkShr (e t : Nat)
  /-- STK_SAR (R123): Stack mode arithmetic shift right. -/
  | stkSar (e t : Nat)
  /-- STK_ROL (R123): Stack mode rotate left. -/
  | stkRol (e t : Nat)
  /-- STK_MIN (R136): Stack mode signed minimum. -/
  | stkMin (e t : Nat)
  /-- STK_MAX (R136): Stack mode signed maximum. -/
  | stkMax (e t : Nat)
  /-- STK_EQ (R136): Stack mode equality compare giving 1 or 0. -/
  | stkEq (e t : Nat)
  /-- STK_NE (R136): Stack mode inequality compare. -/
  | stkNe (e t : Nat)
  /-- STK_LT (R136): Stack mode signed less-than compare. -/
  | stkLt (e t : Nat)
  /-- STK_LTU (R136): Stack mode unsigned less-than compare. -/
  | stkLtu (e t : Nat)
  /-- STK_NOT (R123): Stack mode bitwise complement. -/
  | stkNot (e t : Nat)
  /-- STK_NEG (R123): Stack mode negation. -/
  | stkNeg (e t : Nat)
  /-- STK_NOP (R123): Stack mode no-operation. -/
  | stkNop (e t : Nat)
  /-- STK_DUP (R123): Stack mode duplicates the top entry. -/
  | stkDup (e t : Nat)
  /-- STK_DROP (R123): Stack mode drops the top entry. -/
  | stkDrop (e t : Nat)
  /-- STK_SWAP (R123): Stack mode swaps the top two entries. -/
  | stkSwap (e t : Nat)
  /-- STK_OVER (R123): Stack mode copies the second entry to the top. -/
  | stkOver (e t : Nat)
  /-- STK_ROT (R123): Stack mode rotates the top three entries. -/
  | stkRot (e t : Nat)
  /-- STK_SRC (R127): Stack mode pushes a source socket. -/
  | stkSrc (e t : Nat)
  /-- STK_DST (R127): Stack mode moves the top entry to a destination socket, possibly triggering a
  unit. -/
  | stkDst (e t : Nat)
  /-- STK_MFC (R123): Stack mode pushes a control register. -/
  | stkMfc (e t : Nat)
  /-- STK_MTC (R123): Stack mode writes a control register. -/
  | stkMtc (e t : Nat)
  /-- STK_CBR_AL (R126): Stack mode branches always by a stack offset. -/
  | stkCbrAl (e t : Nat)
  /-- STK_CBR_COND (R126): Stack mode conditional compare-and-branch on the top entries. -/
  | stkCbrCond (e t : Nat)
  /-- STK_CALL (R126): Stack mode call writing LK. -/
  | stkCall (e t : Nat)
  /-- STK_RET (R123): Stack mode branch to LK. -/
  | stkRet (e t : Nat)
  /-- STK_LEAVE (R91): Stack mode leaves to move mode at a popped target. -/
  | stkLeave (e t : Nat)
  /-- STK_HALT (R123): Stack mode thread stops itself. -/
  | stkHalt (e t : Nat)
  /-- STK_IFLUSH (R123): Stack mode discards a fetch line. -/
  | stkIflush (e t : Nat)
  /-- STK_SYNC_M (R123): Stack mode memory fence. -/
  | stkSyncM (e t : Nat)
  /-- STK_FENCE_A (R123): Stack mode arithmetic fence. -/
  | stkFenceA (e t : Nat)
  /-- EXCEPTION_ENTRY (R298): A thread takes a pending exception by shadow entry, saving SPC, SST and
  SRPT. -/
  | exceptionEntry (e t : Nat)
  /-- WATCHDOG_EXPIRY (R540): A thread watchdog expires, making the WATCHDOG exception pending or
  signalling a WATCHDOG fault. -/
  | watchdogExpiry (e t : Nat)
  /-- REGISTER_WRITE (R9): A write to a device register with no behaviour of its own sets its fields or
  receives an error response. -/
  | registerWrite (r : By) (a : Nat) (v : Word)
  /-- RCLR_READ (R9): A read of an RCLR register returns and clears the field. -/
  | rclrRead (r : By) (a : Nat)
  /-- LATCHED_READ (R209): A read of a LO half latches the HI half of a 64-bit register. -/
  | latchedRead (r : By) (a : Nat)
  /-- COMMIT_COMPLETE (R680): A commit ends BUSY, makes its live-state checks and applies, arms or
  fails. -/
  | commitComplete (b : Blk) (m : Med) (fs : List (Nat × Nat × List Nat × Nat))
  /-- TIDE_FRAME_BOUNDARY (R27): A tide frame begins at every multiple of 1,024 ns. -/
  | tideFrameBoundary (f : Nat)
  /-- TBL_INSTALL (R203): A table commit installs a table into an empty slot or arms it. -/
  | tblInstall (e : Nat)
  /-- TBL_DISARM (R203): A table commit removes a slot's armed table. -/
  | tblDisarm (e : Nat)
  /-- TBL_REMOVE (R203): A table commit removes the live table and empties the slot. -/
  | tblRemove (e : Nat)
  /-- TBL_RELEASE (R203): A table commit schedules the held tables of a beat group to become pending at
  TBL_REL. -/
  | tblRelease (e : Nat)
  /-- TBL_RELEASE_TIME (R203): At the release tide time held tables become pending. -/
  | tblReleaseTime (e : Nat)
  /-- RNG_COMMIT (R322): A ring commit validates and installs windows, gate, range and stack tables. -/
  | rngCommit (e : Nat)
  /-- PATROL_START (R361): A patrol commit starts a preserving or destructive run. -/
  | patrolStart (d : Nat)
  /-- PATROL_STOP (R354): A patrol commit ends the run after the current block. -/
  | patrolStop (d : Nat)
  /-- PATROL_BLOCK (R349): After its gap the patrol copies, tests and restores or zeroes the next block.
  -/
  | patrolBlock (d n : Nat) (fs : List (Nat × Nat × Nat × List Nat × Nat))
  /-- MEM_CFG_COMMIT (R364): A MEM configuration commit sets bank states, OWNED bits and no-patrol
  ranges. -/
  | memCfgCommit (d : Nat)
  /-- BANK_TRANSITION_DONE (R343): A bank finishes waking, filling or sleeping and shows its new state.
  -/
  | bankTransitionDone (d b : Nat)
  /-- SLOT_LOAD (R386): A SLOT commit compiles a plan into the idle bank and arms it for SWAPFRAME. -/
  | slotLoad
  /-- SLOT_CHECK (R386): A SLOT commit validates a plan and changes nothing. -/
  | slotCheck
  /-- SLOT_DISARM (R404): A SLOT commit removes an armed plan. -/
  | slotDisarm
  /-- RESERVATION_OCCURRENCE (R376): A reservation's start slot arrives and carries the oldest eligible
  complete message or frees its slots. -/
  | reservationOccurrence (n f : Nat)
  /-- MESSAGE_ARRIVAL (R377): A message reaches its receive channel and is taken whole or discarded. -/
  | messageArrival (n ch src sch : Nat) (corrupt : Bool)
  /-- BEST_EFFORT_MESSAGE (R379): A best-effort message crosses the mesh in free slots by the XY route.
  -/
  | bestEffortMessage (n ch : Nat)
  /-- MATRIX_REQUEST (R395): A master issues a burst that the matrix arbitrates to its target. -/
  | matrixRequest (r : By) (a len : Nat) (data : Option (List Byte))
  /-- MATRIX_RESPONSE (R397): A target answers a matrix transaction with data, acknowledgement or an
  error. -/
  | matrixResponse (r : By) (target beats upset : Nat) (host : List Byte) (refused : Bool)
  /-- MTX_COMMIT (R408): A matrix commit sets weights and parking. -/
  | mtxCommit
  /-- CUL_START (R416): A channel commit starts a direct-mode descriptor. -/
  | culStart (c n : Nat)
  /-- CUL_CHAIN (R440): A channel commit starts a descriptor chain. -/
  | culChain (c n : Nat)
  /-- CUL_HALT (R432): A channel commit arms a halt at the next descriptor boundary. -/
  | culHalt (c n : Nat)
  /-- CUL_RESUME (R440): A channel commit continues a halted channel at its next descriptor. -/
  | culResume (c n : Nat)
  /-- CUL_DOORBELL (R436): A doorbell write sets DBPEND so a parked channel repeats its read. -/
  | culDoorbell (r : By) (c : Nat) (v : Word)
  /-- CUL_DISABLE (R432): A disable write stops a channel at once, aborting its descriptor. -/
  | culDisable (r : By) (c : Nat) (v : Word)
  /-- DESCRIPTOR_FETCH (R415): A channel reads and checks a descriptor, or parks on OWN = 0. -/
  | descriptorFetch (c n : Nat)
  /-- DESCRIPTOR_START (R423): An idle culvert selects the highest eligible READY channel and runs its
  descriptor. -/
  | descriptorStart (c upset : Nat)
  /-- PORTION_START (R424): A paced descriptor starts its next 256-byte portion when its request is
  asserted. -/
  | portionStart (c : Nat)
  /-- CULVERT_REQUEST_CHANGE (R425): A peripheral asserts or withdraws a channel's pacing request. -/
  | culvertRequestChange (c n : Nat) (active : Bool)
  /-- DESCRIPTOR_COMPLETE (R426): After its accesses are confirmed a descriptor reads back, writes
  CHECK, DONE and STAT and follows NEXT. -/
  | descriptorComplete (c : Nat)
  /-- EVENT_DELIVERY (R449): A record reaches a target thread queue or is discarded and counted lost. -/
  | eventDelivery (src e t : Nat)
  /-- EVR_ROUTE_COMMIT (R448): A route commit replaces the routes of a range of sources. -/
  | evrRouteCommit
  /-- EVR_DOORBELL_WRITE (R458): A write to EVR_DBn raises a doorbell record. -/
  | evrDoorbellWrite (r : By) (n : Nat) (v : Word)
  /-- TIDE_SOURCE (R463): A tide commit selects the discipline source. -/
  | tideSource
  /-- TIDE_ADJUST (R462): A tide commit sets the network clock adjustment in ppb. -/
  | tideAdjust
  /-- TIDE_STEP (R465): A tide commit adds a signed value to the tide count. -/
  | tideStep
  /-- TIDE_STATE (R469): A tide commit sets the discipline state. -/
  | tideState
  /-- TIDE_COMPARATOR_ENABLE (R466): A tide commit enables a comparator from its staging registers. -/
  | tideComparatorEnable
  /-- TIDE_COMPARATOR_DISABLE (R468): A tide commit disables a comparator. -/
  | tideComparatorDisable
  /-- COMPARATOR_FIRE (R466): The tide reaches a comparator's next time and a record is raised. -/
  | comparatorFire (c : Nat)
  /-- PPS_EDGE (R464): A PPS_IN rising edge is timestamped and raises a record. -/
  | ppsEdge (frac : Nat)
  /-- HOLDOVER_TIMEOUT (R464): A locked tide loses its source for 1,100 ms and enters HOLDOVER. -/
  | holdoverTimeout
  /-- TIO_CONFIGURE (R488): A pin commit applies mode and parameters. -/
  | tioConfigure (n : Nat)
  /-- TIO_JOIN (R480): A pin commit with JOINx makes a withdrawn side live again. -/
  | tioJoin (n : Nat)
  /-- TIO_FLUSH (R480): A pin commit with FLUSH discards the queue and pairing history and drives SAFE.
  -/
  | tioFlush (n : Nat)
  /-- TIO_PUSH (R475): An owner pushes an edge entry into a pin queue, pairing it under dual commit. -/
  | tioPush (r : By) (n : Nat) (side level : Bool) (tag : Nat)
  /-- TIO_WITHDRAW (R478): An owner withdraws its side of a pin. -/
  | tioWithdraw (r : By) (n : Nat) (side : Bool)
  /-- EDGE_FIRE (R475): A queued entry's time arrives and the pin takes its level. -/
  | edgeFire (n : Nat)
  /-- SAFE_DRIVE (R479): SAFEDELAY expires on a held pin and it drives SAFE. -/
  | safeDrive (n : Nat)
  /-- CAPTURE_EDGE (R481): A filtered input edge is stamped into the capture FIFO and raises a record.
  -/
  | captureEdge (n : Nat) (ball : Bool) (at' frac : Nat)
  /-- CAP_POP (R486): A read of TIO_CAP_LO pops the capture FIFO head. -/
  | capPop (r : By) (n : Nat)
  /-- ENCODER_COUNT (R482): A quadrature or step input change updates the pair's count. -/
  | encoderCount (n : Nat) (a b : Bool)
  /-- ENCODER_SAMPLE (R482): At each multiple of SAMPLE the count is raised as a record. -/
  | encoderSample (n at' : Nat)
  /-- PWM_PERIOD (R483): A PWM period begins on the tide grid. -/
  | pwmPeriod (n at' : Nat)
  /-- SSI_FRAME (R484): At each multiple of SAMPLE the SSI master reads a position. -/
  | ssiFrame (n at' : Nat) (ready : Bool) (bits : Nat)
  /-- DLK_START (R500): A link commit starts a stopped drive link. -/
  | dlkStart (n : Nat)
  /-- DLK_TABLES (R496): A link commit installs or arms transmit and receive tables. -/
  | dlkTables (n : Nat)
  /-- DLK_STOP (R500): A link commit stops the link after the current exchange. -/
  | dlkStop (n : Nat)
  /-- DLK_DISARM (R500): A link commit removes armed tables. -/
  | dlkDisarm (n : Nat)
  /-- DLK_JOIN (R494): A link commit rejoins withdrawn sides. -/
  | dlkJoin (n : Nat)
  /-- DLK_PUSH (R492): An owner pushes a data set for a cycle. -/
  | dlkPush (r : By) (n : Nat) (side : Bool) (tag : Nat)
  /-- DLK_WITHDRAW (R494): An owner withdraws its side of a link. -/
  | dlkWithdraw (r : By) (n : Nat) (side : Bool)
  /-- DLK_EXCHANGE (R491): At t_c - LEAD the link selects a set, sends its frame and opens the receive
  window. -/
  | dlkExchange (n : Nat)
  /-- DLK_FRAME_RECEIVED (R495): A reply frame is decoded by the receive table or rejected. -/
  | dlkFrameReceived (n at' : Nat) (bits : List Bool) (coded : Bool)
  /-- DLK_RX_TIMEOUT (R495): A receive window closes with no frame and TIMEOUT is raised. -/
  | dlkRxTimeout (n : Nat)
  /-- WEIR_PERIOD_BOUNDARY (R510): At each Weir period the policy processor reads sensors and computes
  grants and targets. -/
  | weirPeriodBoundary (n : Nat) (temps : List Int) (pols : List (Nat × Nat × Nat))
  /-- WEIR_GRANT_APPLY (R510): 2,048 ns after the boundary the new grants, balances and targets take
  effect. -/
  | weirGrantApply
  /-- THERMAL_TRIP (R511): 31 periods at LIMIT + 10 C reset the device. -/
  | thermalTrip (also : Nat)
  /-- SCALE_UPDATE (R513): Every 256 periods the Weir corrects each polder's SCALE from the meter. -/
  | scaleUpdate
  /-- DISPATCH_ENTRY_WRITE (R515): A write to a dispatch entry, refused while EN = 1 except clearing EN.
  -/
  | dispatchEntryWrite (r : By) (p j o : Nat) (v : Word)
  /-- JOB_RELEASE (R516): A record of RELSRC releases a dispatch entry, charging HARD entries. -/
  | jobRelease (p j : Nat)
  /-- JOB_ADMIT (R519): The dispatcher admits a released FIRM or SOFT job when tokens, thread and banks
  allow. -/
  | jobAdmit (p : Nat)
  /-- JOB_START (R520): The Weir writes D0-D3 and starts the held thread at ENTRYPC. -/
  | jobStart (p j : Nat)
  /-- JOB_DEADLINE (R521): A FIRM job still RELEASED at its deadline is discarded with MISSED. -/
  | jobDeadline (p j : Nat)
  /-- REGULATOR_SETTLED (R504): A polder regulator finishes its slew and the raise waits for the next
  frame boundary. -/
  | regulatorSettled (p : Nat)
  /-- WEIR_COMMIT (R534): A Weir commit validates budget and per-polder settings for the next period. -/
  | weirCommit
  /-- SUPPLY_WARNING (R526): The core input falls below 855 mV or PWR_WARN goes low and polders drop to
  OP1. -/
  | supplyWarning
  /-- SUPPLY_WARNING_END (R527): After 10 us stable the warning ends, the dip is recorded and polders
  resume. -/
  | supplyWarningEnd (minMv lastLow : Nat)
  /-- SUPPLY_RESET (R528): An input below 810 mV for 2 us resets the device. -/
  | supplyReset (minMv also : Nat)
  /-- POWER_FAULT (R539): A polder power monitor signals a POWER fault. -/
  | powerFault (p detail : Nat)
  /-- CLOSURE_COMPLETE (R544): After the drain the unit becomes DIKED and its DIKE record is written. -/
  | closureComplete (u : Nat)
  /-- PLD_WDT_WRITE (R541): A watchdog register write, ignored when EN = 1 and PERIOD = 0. -/
  | pldWdtWrite (r : By) (e t : Nat) (v : Word)
  /-- KEEPER_MISMATCH (R543): K0 and K1 disagree and both reset to resynchronise. -/
  | keeperMismatch (pc : Word)
  /-- KEEPER_RESYNC_DONE (R543): The keepers finish resynchronising within 2 ms. -/
  | keeperResyncDone
  /-- FLT_CLOSE (R544): A fault commit closes a named unit. -/
  | fltClose
  /-- FLT_RESET (R561): A fault commit resets a diked unit. -/
  | fltReset
  /-- FLT_READMIT (R562): A fault commit reopens the gates of a reset unit. -/
  | fltReadmit
  /-- FLT_JOIN (R564): A fault commit arms a join list for JFRAME. -/
  | fltJoin
  /-- FLT_DISARM (R566): A fault commit disarms an armed join. -/
  | fltDisarm
  /-- FLT_CONFIG (R567): A fault commit applies policy, control and fallback addresses. -/
  | fltConfig
  /-- ETH_CONFIG (R576): A port commit reads, checks and arms a configuration block. -/
  | ethConfig (n : Nat)
  /-- ETH_DISARM (R578): A port commit removes an armed configuration. -/
  | ethDisarm (n : Nat)
  /-- ETH_LINKRESET (R578): A port commit resets the link. -/
  | ethLinkreset (n : Nat)
  /-- ETH_CONFIG_SWAP (R576): An armed port configuration takes effect at ETH_SWAP. -/
  | ethConfigSwap (n : Nat)
  /-- ETH_DB_WRITE (R572): A doorbell write resumes parked queues or rings. -/
  | ethDbWrite (r : By) (n : Nat) (v : Word)
  /-- ETH_FRAME_RECEIVED (R573): A received frame is stamped, classified and sent to a ring, a send
  channel or dropped. -/
  | ethFrameReceived (n : Nat) (f : List Byte) (fcsOk : Bool) (at' : Nat)
  /-- ETH_FRAME_SENT (R572): A transmit descriptor's frame is sent and completed. -/
  | ethFrameSent (n q at' : Nat) (cyclic : Bool)
  /-- CYCLIC_BUILD (R574): At t_c - BUILD the hub builds a cyclic frame from template and fields. -/
  | cyclicBuild (n j c : Nat)
  /-- CYCLIC_ENQUEUE (R574): At t_c the built cyclic frame enters its traffic-class queue. -/
  | cyclicEnqueue (n j : Nat)
  /-- ETH_LINK_CHANGE (R577): A port link goes up or down. -/
  | ethLinkChange (n kind : Nat)
  /-- STR_COMMIT (R578): A stream table commit installs the 802.1CB and Qci streams. -/
  | strCommit
  /-- CSI_COMMIT (R583): A camera commit configures lanes and contexts from the next Frame Start. -/
  | csiCommit (n : Nat)
  /-- FRAME_START (R581): A CSI Frame Start resets line and block counts and may raise OVERRUN. -/
  | frameStart (n v num at' : Nat) (corrected : Bool)
  /-- FRAME_END (R582): A CSI Frame End raises a record. -/
  | frameEnd (n v num at' : Nat) (corrected : Bool)
  /-- CSI_LINE (R580): A long packet line is written to the ring and may make a pacing block ready. -/
  | csiLine (n v dt : Nat) (bs : List Byte) (crcOk corrected : Bool)
  /-- PCIE_INBOUND (R586): A host request enters through a BAR with the ring of PCIE_HRING. -/
  | pcieInbound (bar off len : Nat) (data : Option (List Byte)) (poisoned correctable : Bool)
  /-- OUTBOUND_TIMEOUT (R587): An outbound read without a completion in 50 ms ends with ST_BUS_ERROR. -/
  | outboundTimeout
  /-- PCIE_EVENT_FORWARD (R588): A forwarded record is written to the host ring and signals MSI-X. -/
  | pcieEventForward (v : Nat)
  /-- PCIE_LINK_CHANGE (R589): The PCIe link changes and a LINK record is raised. -/
  | pcieLinkChange (width speed : Nat)
  /-- DESC (R593): The annex logic sends a unit descriptor during training. -/
  | desc (u : Nat) (ws : List Word)
  /-- READY (R593): The annex logic sends READY and the link goes UP. -/
  | ready
  /-- RES (R594): A result packet delivers an external unit's result to a thread and bank. -/
  | res (u e t : Nat) (shadow : Bool) (ws : List Word) (late : Bool)
  /-- CRED (R594): A credit packet returns credits to a unit. -/
  | cred (u n : Nat)
  /-- RDRESP (R597): The annex logic answers a read. -/
  | rdresp (tag : Nat) (bytes : List Byte) (err : Bool)
  /-- WRACK (R597): The annex logic acknowledges a write. -/
  | wrack (tag : Nat) (err : Bool)
  /-- ANNEX_REQUEST_TIMEOUT (R596): No RDRESP or WRACK within 10 us sends the link into training. -/
  | annexRequestTimeout
  /-- ANX_CTRL_WRITE (R599): A write enables the annex link or forces retraining. -/
  | anxCtrlWrite (r : By) (v : Word)
  /-- VLT_WRITE (R606): The vault stores a new version of an object. -/
  | vltWrite (m : Med)
  /-- VLT_READ (R606): The vault copies a range of an object's current version. -/
  | vltRead (m : Med)
  /-- VLT_DELETE (R606): The vault removes an object. -/
  | vltDelete (m : Med)
  /-- VLT_APPEND (R606): The vault adds a record to a log. -/
  | vltAppend (m : Med)
  /-- VLT_STAT (R607): The vault writes an object's information. -/
  | vltStat (m : Med)
  /-- VLT_LOAD (R620): The vault fetches, verifies, validates, stages, arms and releases a recipe. -/
  | vltLoad (m : Med)
  /-- VLT_TABLE (R604): The vault installs a NAND sequence table. -/
  | vltTable (m : Med)
  /-- VLT_FORMAT (R615): The vault erases good blocks and writes an empty system area. -/
  | vltFormat (m : Med)
  /-- VLT_SCRUB (R612): The vault starts a scrub pass at once. -/
  | vltScrub (m : Med)
  /-- VLT_CONFIG (R606): The vault applies its configuration registers. -/
  | vltConfig (m : Med)
  /-- SCRUB_PERIOD (R612): The scrub period expires and blocks are read in full. -/
  | scrubPeriod (m : Med)
  /-- VAULT_BACKGROUND_MOVE (R611): Between actions the vault relocates, levels wear or refreshes a
  block. -/
  | vaultBackgroundMove (m : Med)
  /-- POWER_ON_RESET (R628): The power-on detector resets the device and clears kept state. -/
  | powerOnReset (also : Nat)
  /-- PIN_RESET (R628): RST_N held low for 1 us resets the device. -/
  | pinReset (also : Nat)
  /-- SOFTWARE_RESET (R628): A write of 0x0A5A to SYS_RESET at ring 0 resets the device. -/
  | softwareReset (r : By)
  /-- DEBUG_RESET (R628): A write of 0x0A5A to DBG_RESET resets the device. -/
  | debugReset (r : By)
  /-- RESET_RELEASE (R630): Reset releases when supply, RST_N and TAP allow and the boot sequence
  begins. -/
  | resetRelease (pins : Nat) (fs : List (Nat × Nat × List Nat × Nat)) (ce blocks good : List Nat)
  /-- BOOT_FIRMWARE (R634): When repair and mount have ended the ROM reads, verifies and enters keeper
  firmware. -/
  | bootFirmware (m1 m2 : Med)
  /-- PCIE_BOOT (R640): On doorbell 255 the ROM verifies host-written objects and writes them to the
  vault. -/
  | pcieBoot (m : Med)
  /-- SYS_START_COMMIT (R641): A start commit names engines and a start tide time. -/
  | sysStartCommit
  /-- ENGINE_START (R642): At SYS_START_TIME the named engines start t0 at their ENTRY. -/
  | engineStart
  /-- BIST_ENGINE (R644): The Terp runs the ROM test program on an engine. -/
  | bistEngine
  /-- BIST_POLDER (R644): The Terp tests a polder's engines and patrols its domain. -/
  | bistPolder (fs : List (Nat × Nat × List Nat × Nat))
  /-- BIST_SERDES (R644): An Ethernet port runs a PRBS31 loopback test. -/
  | bistSerdes
  /-- OTP_PROGRAM (R655): An OTP commit sets bits of a key or the configuration word in debug hold. -/
  | otpProgram
  /-- DBG_HALT (R649): The debug port halts a thread. -/
  | dbgHalt
  /-- DBG_RESUME (R649): The debug port resumes a halted thread. -/
  | dbgResume
  /-- DBG_STEP (R649): The debug port steps a halted thread by one bundle. -/
  | dbgStep
  /-- DBG_TSW_WRITE (R651): A write to the state window is held until the next resume or step. -/
  | dbgTswWrite (r : By) (o : Nat) (v : Word)
  /-- DBG_UNLOCK (R648): A keeper write opens a closed debug access port. -/
  | dbgUnlock (r : By) (v : Word)
  /-- DBG_TRCCTRL_WRITE (R655): A trace control write, changing only EN while tracing. -/
  | dbgTrcctrlWrite (r : By) (p : Nat) (v : Word)
  /-- DAP_READ (R647): A DAP word read is made as master 57 at ring 0. -/
  | dapRead (a : Nat)
  /-- DAP_WRITE (R647): A DAP word write is made as master 57 at ring 0. -/
  | dapWrite (a : Nat) (v : Word)
  /-- EXTEST (R646): TAP EXTEST drives the boundary register and holds DEBUG reset. -/
  | extest (bits : List Bool)
  /-- IDCODE (R646): TAP returns the device identification code. -/
  | idcode
  /-- SAMPLE_PRELOAD (R646): TAP samples or preloads the boundary register. -/
  | samplePreload (bits : List Bool)
  /-- CLAMP (R646): TAP clamps outputs and holds DEBUG reset. -/
  | clamp
  /-- HIGHZ (R646): TAP floats outputs and holds DEBUG reset. -/
  | highz
  /-- DAPACC (R646): TAP selects the DAP register. -/
  | dapacc
  /-- BYPASS (R646): TAP selects the bypass register. -/
  | bypass
  /-- STK_ILLEGAL_INSTRUCTION (R124): A thread in stack mode issues a 16-bit value that the stack-mode
  opcode table does not list, and it raises the illegal-bundle fault. -/
  | stkIllegalInstruction (e t : Nat)
  /-- ANNEX_PACKET_ERROR (R596): A packet with a CRC error or an unknown TYPE arrives on the annex link,
  ends the outstanding operations and sends the link into training. -/
  | annexPacketError (code : Nat)
  /-- CSI_PACKET_DROP (R579): A CSI-2 packet whose header ECC is uncorrectable, or whose data type or
  short-packet kind is unsupported, is dropped and counted, raising HEADER_DROP where the header fails.
  -/
  | csiPacketDrop (n v : Nat) (header : Bool)
  /-- CSI_PHY_ERROR (R582): A D-PHY lane of a camera input fails in its stream and raises a PHY_ERROR
  record with the lane mask. -/
  | csiPhyError (n mask : Nat)
  /-- GATE_CONTROL_LIST_INTERVAL (R569): An interval of a port's 802.1Qbv gate control list ends and the
  next entry opens or closes the gates and holds or releases preemption. -/
  | gateControlListInterval (n : Nat)
  /-- TAP_RESET (R646): TRST_N, or the TAP state machine, resets the TAP, which deselects EXTEST, CLAMP
  or HIGHZ and ends the DEBUG reset that they hold. -/
  | tapReset
  deriving DecidableEq, Repr

end Sys2Proof
end

