-- ==== Sys2Proof/Decode.lean ====
section
/-! DEFINITION. Commands spelled as words: the opcode table of the LQ-1920 gives no row any bits, so no word spells a
command. -/

namespace Sys2Proof

/-- The command that a word of the opcode table spells: none, since the table gives its rows no bits. -/
def decodeTableWord (_nbits _w : Nat) : Option Instr := none

end Sys2Proof
end

