-- ==== Sys2Proof/Config.lean ====
section
/-! DEFINITION. What an implementation fixes, and the free values: constants with no body, of which
nothing can be proved but what holds of every value. -/

namespace Sys2Proof

/-- The free value of width `w` that the counter value `n` selects: a value to which the spec gives
no number (notes/assumptions/7). DESIGN CHOICE: which draw is used where is the model's. -/
opaque Config.freeValue (w : Nat) : Nat → BitVec w

/-- The byte that an undefined region of memory reads as: `nonce` numbers the moment at which the
region became undefined, `a` is the address (notes/assumptions/6). -/
opaque Config.freeByte (nonce a : Nat) : BitVec 8

/-- The bytes of the Terp's boot ROM, to which the spec gives no contents (notes/assumptions/13). -/
opaque Config.romByte : Nat → BitVec 8

end Sys2Proof
end

