-- ==== Sys2Proof/Machine/Bits.lean ====
section
/-! DEFINITION. The pseudocode helpers of 00 R13 and the little-endian joining of bytes (00 R5). -/

namespace Sys2Proof.Machine

/-- `Bits(x, hi, lo)` read as an unsigned integer (00 R13). -/
def fld (x hi lo : Nat) : Nat := x / 2 ^ lo % 2 ^ (hi + 1 - lo)

/-- `Bits(w, hi, lo)` of a word (00 R13). -/
def wf (w : Word) (hi lo : Nat) : Nat := fld w.toNat hi lo

/-- Bit `n` of a word. -/
def wbit (w : Word) (n : Nat) : Bool := w.toNat.testBit n

/-- 1 for true, 0 for false. -/
def b01 (b : Bool) : Nat := if b then 1 else 0

/-- `Signed(x)` of a bit string of width `n` (00 R13). -/
def sgn (n x : Nat) : Int :=
  if x % 2 ^ n < 2 ^ (n - 1) then Int.ofNat (x % 2 ^ n) else Int.ofNat (x % 2 ^ n) - Int.ofNat (2 ^ n)

/-- `Signed` of a word. -/
def sgnW (w : Word) : Int := w.toInt

/-- `Sat(x, lo, hi)` (00 R13). -/
def sat (x lo hi : Int) : Int := if x < lo then lo else if x > hi then hi else x

/-- `x mod 2^n` of an exact integer, as a natural. -/
def modn (n : Nat) (x : Int) : Nat := (x % (2 ^ n : Nat)).toNat

/-- `x` with bits `hi` down to `lo` replaced by the low bits of `v`. -/
def setFld (x hi lo v : Nat) : Nat :=
  x - fld x hi lo * 2 ^ lo + v % 2 ^ (hi + 1 - lo) * 2 ^ lo

/-- `setFld` on a word. -/
def wset (w : Word) (hi lo v : Nat) : Word := w32 (setFld w.toNat hi lo v)

/-- The little-endian value of a list of bytes (00 R5). -/
def leNat : List Byte → Nat
  | [] => 0
  | b :: r => b.toNat + 256 * leNat r

/-- The `n` little-endian bytes of a value (00 R5). -/
def leBytes : Nat → Nat → List Byte
  | 0, _ => []
  | n + 1, x => BitVec.ofNat 8 x :: leBytes n (x / 256)

/-- The big-endian value of a list of bytes (03 R115: keys, signatures). -/
def beNat (l : List Byte) : Nat := leNat l.reverse

/-- The `n` big-endian bytes of a value. -/
def beBytes (n x : Nat) : List Byte := (leBytes n x).reverse

/-- `n` rounded up to a multiple of `k`. -/
def roundUp (n k : Nat) : Nat := (n + k - 1) / k * k

/-- Rounding half up of `x / 2^s` (04 R142, R147). -/
def rshRound (x : Int) (s : Nat) : Int :=
  if s = 0 then x else Int.fdiv (x + (2 ^ (s - 1) : Nat)) (2 ^ s : Nat)

/-- Exact floor of a rational `num / den` plus one half, for a positive denominator (05 R185). -/
def roundHalf (num : Int) (den : Nat) : Int := Int.fdiv (2 * num + den) (2 * den)

/-- A counter that saturates at 0xFFFF_FFFF (05 R208, 06 R248, 08 R319). -/
def satAdd (w : Word) (n : Nat) : Word := w32 (min (w.toNat + n) 0xFFFFFFFF)

/-- Every natural below `n`, rising. -/
def upTo (n : Nat) : List Nat := List.range n

/-- A status code of 00 R22. -/
inductive St where
  | ok | badValue | latencyMismatch | imageSignature | slotOvercommit | tableOrder | tableContinuity
  | tableBusy | misaligned | busError | aborted | patrolBusy | eccUncorrectable | slotConflict
  | budgetInvalid | dikeClosed | vaultWorn | pinConflict
  deriving DecidableEq, Repr

/-- The code of a status (00 R22). -/
def St.code : St → Nat
  | .ok => 0x0000 | .badValue => 0x00FF | .latencyMismatch => 0x0101 | .imageSignature => 0x0102
  | .slotOvercommit => 0x0103 | .tableOrder => 0x0201 | .tableContinuity => 0x0202
  | .tableBusy => 0x0203 | .misaligned => 0x0301 | .busError => 0x0302 | .aborted => 0x0303
  | .patrolBusy => 0x0401 | .eccUncorrectable => 0x0402 | .slotConflict => 0x0501
  | .budgetInvalid => 0x0601 | .dikeClosed => 0x0701 | .vaultWorn => 0x0801 | .pinConflict => 0x0901

/-- The status codes other than ST_OK (00 R22). -/
def St.failing : List St :=
  [.badValue, .latencyMismatch, .imageSignature, .slotOvercommit, .tableOrder, .tableContinuity, .tableBusy,
   .misaligned, .busError, .aborted, .patrolBusy, .eccUncorrectable, .slotConflict, .budgetInvalid, .dikeClosed,
   .vaultWorn, .pinConflict]

end Sys2Proof.Machine
end

