-- ==== Sys2Proof/Machine/Flags.lean ====
section
/-! DEFINITION. What the arithmetic units compute: results, predicates and sticky bits, bit for bit
by the pseudocode of file 04. Nothing here reads the state. -/

namespace Sys2Proof.Machine

/-- What an ALU operation yields: the result, the carry, borrow or condition, and signed overflow
(04 R135, R137). -/
structure AluOut where
  r : Word
  c : Bool := false
  ov : Bool := false
  deriving DecidableEq, Repr

/-- The ALU operations, named as in 04 R135. -/
inductive AluOp where
  | add | sub | addc | subb | adds | subs | neg | abs | and | or | xor | andn | not
  | shl | shr | sar | rol | ror | min | max | minu | maxu | sats | satu
  | sextb | sexth | zextb | zexth | clz | popc
  | cmpeq | cmpne | cmplt | cmple | cmpgt | cmpge | cmpltu | cmpleu | cmpgtu | cmpgeu | tstz | tstnz
  deriving DecidableEq, Repr

/-- The operation number of an ALU operation (04 R135). -/
def AluOp.opc : AluOp → Nat
  | .add => 0x01 | .sub => 0x02 | .addc => 0x03 | .subb => 0x04 | .adds => 0x05 | .subs => 0x06
  | .neg => 0x07 | .abs => 0x08 | .and => 0x10 | .or => 0x11 | .xor => 0x12 | .andn => 0x13
  | .not => 0x14 | .shl => 0x18 | .shr => 0x19 | .sar => 0x1A | .rol => 0x1B | .ror => 0x1C
  | .min => 0x20 | .max => 0x21 | .minu => 0x22 | .maxu => 0x23 | .sats => 0x24 | .satu => 0x25
  | .sextb => 0x28 | .sexth => 0x29 | .zextb => 0x2A | .zexth => 0x2B | .clz => 0x2C | .popc => 0x2D
  | .cmpeq => 0x30 | .cmpne => 0x31 | .cmplt => 0x32 | .cmple => 0x33 | .cmpgt => 0x34
  | .cmpge => 0x35 | .cmpltu => 0x36 | .cmpleu => 0x37 | .cmpgtu => 0x38 | .cmpgeu => 0x39
  | .tstz => 0x3A | .tstnz => 0x3B

/-- Every ALU operation, in the table's order. -/
def AluOp.all : List AluOp :=
  [.add, .sub, .addc, .subb, .adds, .subs, .neg, .abs, .and, .or, .xor, .andn, .not,
   .shl, .shr, .sar, .rol, .ror, .min, .max, .minu, .maxu, .sats, .satu,
   .sextb, .sexth, .zextb, .zexth, .clz, .popc, .cmpeq, .cmpne, .cmplt, .cmple, .cmpgt, .cmpge,
   .cmpltu, .cmpleu, .cmpgtu, .cmpgeu, .tstz, .tstnz]

/-- Whether PD may be nonzero: the carry and compare operations (04 R135, column PD). -/
def AluOp.usesPd : AluOp → Bool
  | .add | .sub | .addc | .subb => true
  | .cmpeq | .cmpne | .cmplt | .cmple | .cmpgt | .cmpge | .cmpltu | .cmpleu | .cmpgtu | .cmpgeu
  | .tstz | .tstnz => true
  | _ => false

/-- Whether the operation reads P[PD] as carry or borrow (04 R135, R137). -/
def AluOp.readsPd : AluOp → Bool
  | .addc | .subb => true
  | _ => false

/-- Whether the operation can set OV, and so trap (04 R135, R168). -/
def AluOp.canOv : AluOp → Bool
  | .add | .sub | .addc | .subb | .neg | .abs => true
  | _ => false

/-- Whether a value lies outside the signed 32-bit range. -/
def ovf32 (x : Int) : Bool := decide (x < -(2 ^ 31) ∨ x > 2 ^ 31 - 1)

/-- Addition with carry in (04 R137). -/
def aluAdd (o t : Word) (cin : Bool) : AluOut :=
  let s := o.toNat + t.toNat + b01 cin
  { r := w32 s, c := decide (s ≥ 2 ^ 32), ov := ovf32 (o.toInt + t.toInt + b01 cin) }

/-- Subtraction with borrow in (04 R137). -/
def aluSub (o t : Word) (bin : Bool) : AluOut :=
  { r := w32i (Int.ofNat o.toNat - t.toNat - b01 bin)
    c := decide (o.toNat < t.toNat + b01 bin)
    ov := ovf32 (o.toInt - t.toInt - b01 bin) }

/-- The result of a compare or test: 1 or 0, and the condition (04 R137). -/
def aluCmp (c : Bool) : AluOut := { r := w32 (b01 c), c := c }

/-- Number of leading zeros among the low `n` bits of `x`. -/
def clzN : Nat → Nat → Nat
  | 0, _ => 0
  | n + 1, x => if x.testBit n then 0 else 1 + clzN n x

/-- Number of 1 bits among the low `n` bits of `x`. -/
def popN : Nat → Nat → Nat
  | 0, _ => 0
  | n + 1, x => b01 (x.testBit n) + popN n x

/-- What an ALU operation computes from O, T and the carry in (04 R135, R137, R164). -/
def aluEval (op : AluOp) (o t : Word) (cin : Bool) : AluOut :=
  let a := o.toNat
  let sa := o.toInt
  let n := wf t 7 0
  let k := n % 32
  let w := Nat.min n 32
  match op with
  | .add => aluAdd o t false
  | .sub => aluSub o t false
  | .addc => aluAdd o t cin
  | .subb => aluSub o t cin
  | .adds => { r := w32i (sat (sa + t.toInt) (-(2 ^ 31)) (2 ^ 31 - 1)) }
  | .subs => { r := w32i (sat (sa - t.toInt) (-(2 ^ 31)) (2 ^ 31 - 1)) }
  | .neg => { aluSub 0 t false with c := false }
  | .abs => { r := if t.toInt < 0 then w32i (0 - t.toInt) else t, ov := decide (t.toInt = -(2 ^ 31)) }
  | .and => { r := o &&& t }
  | .or => { r := o ||| t }
  | .xor => { r := o ^^^ t }
  | .andn => { r := o &&& ~~~t }
  | .not => { r := ~~~t }
  | .shl => { r := w32 (a * 2 ^ n) }
  | .shr => { r := w32 (a / 2 ^ n) }
  | .sar => { r := w32i (Int.fdiv sa (2 ^ n : Nat)) }
  | .rol => { r := w32 (a * 2 ^ k + a / 2 ^ (32 - k)) }
  | .ror => { r := w32 (a / 2 ^ k + a * 2 ^ (32 - k)) }
  | .min => { r := if sa ≤ t.toInt then o else t }
  | .max => { r := if sa ≥ t.toInt then o else t }
  | .minu => { r := if a ≤ t.toNat then o else t }
  | .maxu => { r := if a ≥ t.toNat then o else t }
  | .sats => { r := if w = 0 then 0 else w32i (sat sa (-(2 ^ (w - 1) : Nat)) ((2 ^ (w - 1) : Nat) - 1)) }
  | .satu => { r := if w = 0 then 0 else w32i (sat sa 0 ((2 ^ w : Nat) - 1)) }
  | .sextb => { r := w32i (sgn 8 t.toNat) }
  | .sexth => { r := w32i (sgn 16 t.toNat) }
  | .zextb => { r := w32 (wf t 7 0) }
  | .zexth => { r := w32 (wf t 15 0) }
  | .clz => { r := w32 (clzN 32 t.toNat) }
  | .popc => { r := w32 (popN 32 t.toNat) }
  | .cmpeq => aluCmp (o == t)
  | .cmpne => aluCmp (o != t)
  | .cmplt => aluCmp (decide (sa < t.toInt))
  | .cmple => aluCmp (decide (sa ≤ t.toInt))
  | .cmpgt => aluCmp (decide (sa > t.toInt))
  | .cmpge => aluCmp (decide (sa ≥ t.toInt))
  | .cmpltu => aluCmp (decide (a < t.toNat))
  | .cmpleu => aluCmp (decide (a ≤ t.toNat))
  | .cmpgtu => aluCmp (decide (a > t.toNat))
  | .cmpgeu => aluCmp (decide (a ≥ t.toNat))
  | .tstz => aluCmp ((o &&& t) == 0)
  | .tstnz => aluCmp ((o &&& t) != 0)

/-- One step of AMOD: the new pointer of a ring of `o` bytes at `base` (04 R140). -/
def amod (base ar o t : Word) : Word :=
  let l : Nat := if o = 0 then 2 ^ 32 else o.toNat
  let off := modn 32 (Int.ofNat ar.toNat - base.toNat)
  let off' := ((Int.ofNat off + t.toInt) % (l : Int)).toNat
  w32 (base.toNat + off')

/-- The MUL operations (04 R141). -/
inductive MulOp where
  | muls | mulu | mulsu | mulq
  deriving DecidableEq, Repr

/-- MH and ML of a multiplication (04 R141, R142). -/
def mulEval (op : MulOp) (sh : Nat) (o t : Word) : Word × Word :=
  let p : Int := match op with
    | .muls | .mulq => o.toInt * t.toInt
    | .mulu => Int.ofNat (o.toNat * t.toNat)
    | .mulsu => o.toInt * Int.ofNat t.toNat
  let m := modn 64 p
  match op with
  | .mulq => (w32 (m / 2 ^ 32), w32i (sat (rshRound p sh) (-(2 ^ 31)) (2 ^ 31 - 1)))
  | _ => (w32 (m / 2 ^ 32), w32 m)

/-- Quotient, remainder, DZ and OV of a division (04 R144). -/
structure DivOut where
  q : Word
  rm : Word
  dz : Bool := false
  ov : Bool := false
  deriving DecidableEq, Repr

/-- Signed division truncating toward zero, with its edge cases (04 R144). -/
def divs (o t : Word) : DivOut :=
  let a := o.toInt
  let b := t.toInt
  if b = 0 then { q := if a ≥ 0 then w32i (2 ^ 31 - 1) else w32i (-(2 ^ 31)), rm := o, dz := true }
  else if a = -(2 ^ 31) ∧ b = -1 then { q := w32i (-(2 ^ 31)), rm := 0, ov := true }
  else { q := w32i (Int.tdiv a b), rm := w32i (a - Int.tdiv a b * b) }

/-- Unsigned division (04 R144). -/
def divu (o t : Word) : DivOut :=
  if t = 0 then { q := w32 (2 ^ 32 - 1), rm := o, dz := true }
  else { q := w32 (o.toNat / t.toNat), rm := w32 (o.toNat % t.toNat) }

/-- The SIMD operations (04 R145). -/
inductive SimdOp where
  | mac16 | mac8ss | mac8us | mac8uu | nars16 | nars8 | naru8 | packs8 | packu8
  | unpkl8 | unpkh8 | unpklu8 | unpkhu8 | xlane
  deriving DecidableEq, Repr

/-- The operation number of a SIMD operation (04 R145). -/
def SimdOp.opc : SimdOp → Nat
  | .mac16 => 0x01 | .mac8ss => 0x02 | .mac8us => 0x03 | .mac8uu => 0x04 | .nars16 => 0x08
  | .nars8 => 0x09 | .naru8 => 0x0A | .packs8 => 0x10 | .packu8 => 0x11 | .unpkl8 => 0x12
  | .unpkh8 => 0x13 | .unpklu8 => 0x14 | .unpkhu8 => 0x15 | .xlane => 0x18

/-- Every SIMD operation. -/
def SimdOp.all : List SimdOp :=
  [.mac16, .mac8ss, .mac8us, .mac8uu, .nars16, .nars8, .naru8, .packs8, .packu8,
   .unpkl8, .unpkh8, .unpklu8, .unpkhu8, .xlane]

/-- The MAC operations, which alone can set OV (04 R146, R168). -/
def SimdOp.isMac : SimdOp → Bool
  | .mac16 | .mac8ss | .mac8us | .mac8uu => true
  | _ => false

/-- The operations that read or write an accumulator (04 R145, column Fields). -/
def SimdOp.usesXa : SimdOp → Bool
  | .mac16 | .mac8ss | .mac8us | .mac8uu | .nars16 | .nars8 | .naru8 | .xlane => true
  | _ => false

/-- The operations that read quad QA. -/
def SimdOp.usesQa : SimdOp → Bool
  | .nars16 | .nars8 | .naru8 | .xlane => false
  | _ => true

/-- The operations that read quad QB. -/
def SimdOp.usesQb : SimdOp → Bool
  | .mac16 | .mac8ss | .mac8us | .mac8uu | .packs8 | .packu8 => true
  | _ => false

/-- The operations that write quad QD. -/
def SimdOp.usesQd : SimdOp → Bool
  | .mac16 | .mac8ss | .mac8us | .mac8uu | .xlane => false
  | _ => true

/-- Half `i` of a quad given as one 128-bit natural (04, SIMD). -/
def half (q i : Nat) : Nat := fld q (16 * i + 15) (16 * i)

/-- Byte `j` of a quad given as one 128-bit natural. -/
def byteOf (q j : Nat) : Nat := fld q (8 * j + 7) (8 * j)

/-- The products that lane `i` of a MAC adds (04 R145, R146). -/
def macLane (op : SimdOp) (qa qb i : Nat) : Int :=
  let sb (q j : Nat) : Int := sgn 8 (byteOf q j)
  let ub (q j : Nat) : Int := Int.ofNat (byteOf q j)
  match op with
  | .mac16 => sgn 16 (half qa i) * sgn 16 (half qb i)
  | .mac8ss => sb qa (2 * i) * sb qb (2 * i) + sb qa (2 * i + 1) * sb qb (2 * i + 1)
  | .mac8us => ub qa (2 * i) * sb qb (2 * i) + ub qa (2 * i + 1) * sb qb (2 * i + 1)
  | .mac8uu => ub qa (2 * i) * ub qb (2 * i) + ub qa (2 * i + 1) * ub qb (2 * i + 1)
  | _ => 0

/-- The exact sum of lane `i` before it wraps to 40 bits (04 R146). -/
def macSum (op : SimdOp) (t : Word) (x : BitVec 40) (qa qb i : Nat) : Int :=
  (if wbit t 0 then 0 else x.toInt) + macLane op qa qb i

/-- Whether a lane sum leaves the 40-bit signed range (04 R146). -/
def ovf40 (x : Int) : Bool := decide (x < -(2 ^ 39) ∨ x > 2 ^ 39 - 1)

/-- Joins elements of `n` bits, the first lowest. -/
def joinN (n : Nat) : List Nat → Nat
  | [] => 0
  | x :: r => x % 2 ^ n + 2 ^ n * joinN n r

/-- Byte or half of a narrow operation for one accumulator lane (04 R147). -/
def narrow (op : SimdOp) (t : Word) (x : BitVec 40) : Nat :=
  let y := rshRound x.toInt (wf t 5 0)
  match op with
  | .nars16 => modn 16 (sat y (-32768) 32767)
  | .nars8 => modn 8 (sat y (-128) 127)
  | _ => modn 8 (sat y 0 255)

/-- The quad that PACK and UNPK operations write, as a 128-bit natural (04 R145). -/
def packEval (op : SimdOp) (qa qb : Nat) : Nat :=
  let h (q i : Nat) : Int := sgn 16 (half q i)
  match op with
  | .packs8 => joinN 8 ((upTo 8).map (fun i => modn 8 (sat (h qa i) (-128) 127)) ++
      (upTo 8).map (fun i => modn 8 (sat (h qb i) (-128) 127)))
  | .packu8 => joinN 8 ((upTo 8).map (fun i => modn 8 (sat (h qa i) 0 255)) ++
      (upTo 8).map (fun i => modn 8 (sat (h qb i) 0 255)))
  | .unpkl8 => joinN 16 ((upTo 8).map (fun i => modn 16 (sgn 8 (byteOf qa i))))
  | .unpkh8 => joinN 16 ((upTo 8).map (fun i => modn 16 (sgn 8 (byteOf qa (i + 8)))))
  | .unpklu8 => joinN 16 ((upTo 8).map (fun i => byteOf qa i))
  | .unpkhu8 => joinN 16 ((upTo 8).map (fun i => byteOf qa (i + 8)))
  | _ => 0

/-- The lane that XLANE delivers, saturated to 32 bits signed (04 R145). -/
def xlaneEval (x : BitVec 40) : Word := w32i (sat x.toInt (-(2 ^ 31)) (2 ^ 31 - 1))

/-- The DEC operations (04 R149). -/
inductive DecOp where
  | dadd | dsub | dadj | b2d | d2b | dshl | dshr
  deriving DecidableEq, Repr

/-- The operation number of a DEC operation (04 R149). -/
def DecOp.opc : DecOp → Nat
  | .dadd => 0x01 | .dsub => 0x02 | .dadj => 0x03 | .b2d => 0x04 | .d2b => 0x05 | .dshl => 0x06
  | .dshr => 0x07

/-- Every DEC operation. -/
def DecOp.all : List DecOp := [.dadd, .dsub, .dadj, .b2d, .d2b, .dshl, .dshr]

/-- The operations that use PD as carry or borrow (04 R149). -/
def DecOp.usesPd : DecOp → Bool
  | .dadd | .dsub | .dadj => true
  | _ => false

/-- Digit `k` of a packed decimal word (04, DEC). -/
def digit (w : Word) (k : Nat) : Nat := wf w (4 * k + 3) (4 * k)

/-- Whether a packed word holds a nibble of 10 to 15 (04 R150). -/
def badDigits (w : Word) : Bool := (upTo 8).any fun k => decide (digit w k ≥ 10)

/-- The adjust step: digit and carry (04 R150). -/
def decAdjust (s : Nat) : Nat × Bool :=
  let s' := if s ≥ 10 then s + 6 else s
  (s' % 16, decide (s' ≥ 16))

/-- Digits of a decimal addition from digit `k` on, `n` digits, and the final carry (04 R150). -/
def daddFrom (o t : Word) : Nat → Nat → Bool → List Nat × Bool
  | 0, _, c => ([], c)
  | n + 1, k, c =>
    let (d, c') := decAdjust (digit o k + digit t k + b01 c)
    let (r, c'') := daddFrom o t n (k + 1) c'
    (d :: r, c'')

/-- Digits of a decimal subtraction from digit `k` on, and the final borrow (04 R150). -/
def dsubFrom (o t : Word) : Nat → Nat → Bool → List Nat × Bool
  | 0, _, b => ([], b)
  | n + 1, k, b =>
    let s : Int := Int.ofNat (digit o k) - digit t k - b01 b
    let (s', b') := if s < 0 then (s - 6, true) else (s, false)
    let (r, b'') := dsubFrom o t n (k + 1) b'
    (modn 4 s' :: r, b'')

/-- Result, carry or borrow, OV and BI of a DEC operation. -/
structure DecOut where
  r : Word
  c : Bool := false
  ov : Bool := false
  bi : Bool := false
  deriving DecidableEq, Repr

/-- What a DEC operation computes from O, T and the carry or borrow in (04 R150). -/
def decEval (op : DecOp) (o t : Word) (cin : Bool) : DecOut :=
  let n := wf t 7 0
  match op with
  | .dadd =>
    let (ds, c) := daddFrom o t 8 0 cin
    { r := w32 (joinN 4 ds), c := c, bi := badDigits o || badDigits t }
  | .dsub =>
    let (ds, b) := dsubFrom o t 8 0 cin
    { r := w32 (joinN 4 ds), c := b, bi := badDigits o || badDigits t }
  | .dadj =>
    let (ds, c) := daddFrom 0 t 8 0 cin
    { r := w32 (joinN 4 ds), c := c }
  | .b2d =>
    { r := w32 (joinN 4 ((upTo 8).map fun k => t.toNat % 10 ^ 8 / 10 ^ k % 10))
      ov := decide (t.toNat ≥ 10 ^ 8) }
  | .d2b =>
    { r := w32 (((upTo 8).map fun k => digit t k * 10 ^ k).foldl (· + ·) 0), bi := badDigits t }
  | .dshl => { r := w32 (o.toNat * 16 ^ n) }
  | .dshr => { r := w32 (o.toNat / 16 ^ n) }

/-- The condition of a CBR: 0 EQ, 1 NE, 2 LT, 3 GE, 4 LTU, 5 GEU (04 R158, 03 R123). -/
def cbrCond (c : Nat) (a b : Word) : Bool :=
  match c with
  | 0 => a == b
  | 1 => a != b
  | 2 => decide (a.toInt < b.toInt)
  | 3 => decide (a.toInt ≥ b.toInt)
  | 4 => decide (a.toNat < b.toNat)
  | 5 => decide (a.toNat ≥ b.toNat)
  | _ => false

end Sys2Proof.Machine
end

