-- ==== Sys2Proof/Machine/OpCode.lean ====
section
/-! DEFINITION. Operation codes of the function units: the fields of 04 R129 to R131, 05 R183 and
the tables of each unit, decoded to structured operations. Reserved bits and unlisted numbers decode
to nothing (04 R130). -/

namespace Sys2Proof.Machine

/-- The unit-page groups of 03 R110: OP socket ID divided by 4. -/
inductive UnitId where
  | alu0 | alu1 | agu | mul | div | simd | dec | crv | seq | lsu0 | lsu1 | ctl | net | evq
  deriving DecidableEq, Repr

/-- The number of a unit's group (03 R110). -/
def UnitId.num : UnitId → Nat
  | .alu0 => 0 | .alu1 => 1 | .agu => 2 | .mul => 3 | .div => 4 | .simd => 5 | .dec => 6 | .crv => 7
  | .seq => 8 | .lsu0 => 9 | .lsu1 => 10 | .ctl => 11 | .net => 12 | .evq => 13

/-- The unit of a group number. -/
def unitOf (n : Nat) : Option UnitId :=
  match n with
  | 0 => some .alu0 | 1 => some .alu1 | 2 => some .agu | 3 => some .mul | 4 => some .div
  | 5 => some .simd | 6 => some .dec | 7 => some .crv | 8 => some .seq | 9 => some .lsu0
  | 10 => some .lsu1 | 11 => some .ctl | 12 => some .net | 13 => some .evq | _ => none

/-- The AGU operations (04 R139). -/
inductive AguOp where
  | lea | aadd | amod
  deriving DecidableEq, Repr

/-- The LSU operations (04 R151). -/
inductive LsuOp where
  | ldb | ldbu | ldh | ldhu | ldw | ldd | stb | sth | stw | std | afadd | aswap | acas
  deriving DecidableEq, Repr

/-- Number of an LSU operation (04 R151). -/
def LsuOp.opc : LsuOp → Nat
  | .ldb => 0x01 | .ldbu => 0x02 | .ldh => 0x03 | .ldhu => 0x04 | .ldw => 0x05 | .ldd => 0x06
  | .stb => 0x10 | .sth => 0x11 | .stw => 0x12 | .std => 0x13 | .afadd => 0x20 | .aswap => 0x21
  | .acas => 0x22

/-- Every LSU operation. -/
def LsuOp.all : List LsuOp :=
  [.ldb, .ldbu, .ldh, .ldhu, .ldw, .ldd, .stb, .sth, .stw, .std, .afadd, .aswap, .acas]

/-- Size in bytes (04 R151). -/
def LsuOp.size : LsuOp → Nat
  | .ldb | .ldbu | .stb => 1
  | .ldh | .ldhu | .sth => 2
  | .ldw | .stw | .afadd | .aswap | .acas => 4
  | .ldd | .std => 8

/-- The atomic operations (04 R151, R152). -/
def LsuOp.isAtomic : LsuOp → Bool
  | .afadd | .aswap | .acas => true
  | _ => false

/-- The plain stores. -/
def LsuOp.isStore : LsuOp → Bool
  | .stb | .sth | .stw | .std => true
  | _ => false

/-- The plain loads. -/
def LsuOp.isLoad : LsuOp → Bool
  | .ldb | .ldbu | .ldh | .ldhu | .ldw | .ldd => true
  | _ => false

/-- The operations that name a data register DR (04, *Operation code fields*). -/
def LsuOp.usesDr : LsuOp → Bool
  | .ldd | .std | .acas => true
  | _ => false

/-- What a load of this kind puts in LSU.R from the bytes read (04 R151). -/
def LsuOp.extend (op : LsuOp) (v : Nat) : Word :=
  match op with
  | .ldb => w32i (sgn 8 v)
  | .ldh => w32i (sgn 16 v)
  | _ => w32 v

/-- The CTL operations (04 R158). -/
inductive CtlOp where
  | br | jl | cbr (c : Nat) | enterS | mfc | mtc | tstart | tstop | gate | retg | retx | iflush
  | syncM | fenceA
  deriving DecidableEq, Repr

/-- Number of a CTL operation (04 R158). -/
def CtlOp.opc : CtlOp → Nat
  | .br => 0x01 | .jl => 0x02 | .cbr c => 0x03 + c | .enterS => 0x09 | .mfc => 0x10 | .mtc => 0x11
  | .tstart => 0x12 | .tstop => 0x13 | .gate => 0x18 | .retg => 0x19 | .retx => 0x1A
  | .iflush => 0x20 | .syncM => 0x21 | .fenceA => 0x22

/-- Every CTL operation. -/
def CtlOp.all : List CtlOp :=
  [.br, .jl, .cbr 0, .cbr 1, .cbr 2, .cbr 3, .cbr 4, .cbr 5, .enterS, .mfc, .mtc, .tstart, .tstop,
   .gate, .retg, .retx, .iflush, .syncM, .fenceA]

/-- The CTL transfers of 02 R74. -/
def CtlOp.isTransfer : CtlOp → Bool
  | .br | .jl | .cbr _ | .enterS | .gate | .retg | .retx => true
  | _ => false

/-- The branches: the operations with a delay slot (02 R67, R91). -/
def CtlOp.isBranch : CtlOp → Bool
  | .br | .jl | .cbr _ | .enterS => true
  | _ => false

/-- The NET operations (10 R373). -/
inductive NetOp where
  | send | recv | rpoll | rskip
  deriving DecidableEq, Repr

/-- The EVQ operations (12 R455). -/
inductive EvqOp where
  | take | wait | poll | ring
  deriving DecidableEq, Repr

/-- A structured operation: what a unit's OP socket names (04 R129). -/
inductive UOp where
  | alu (op : AluOp) (pd : Nat)
  | agu (op : AguOp) (ar ab : Nat)
  | mul (op : MulOp) (sh : Nat)
  | div (signed : Bool)
  | simd (op : SimdOp) (xa qa qb qd : Nat)
  | dec (op : DecOp) (pd : Nat)
  | eval (cs : Nat)
  | beat (bg : Nat)
  | seqStep (sl pd : Nat)
  | tbla (sl kd : Nat)
  | lsu (op : LsuOp) (dr ar : Nat) (u : Bool)
  | ctl (op : CtlOp) (f : Nat)
  | net (op : NetOp) (ch pd : Nat)
  | evq (op : EvqOp) (f pd : Nat)
  deriving DecidableEq, Repr

/-- A code whose bits above 7 lie only in the fields given as (hi, lo) pairs (04 R130). -/
def onlyFields (w : Nat) (fs : List (Nat × Nat)) : Bool :=
  let m := fs.foldl (fun acc f => acc + fld w f.1 f.2 * 2 ^ f.2) (w % 256)
  decide (m = w)

/-- The AND of two choices: the value if the test holds. -/
def guardOpt {α : Type} (c : Bool) (x : α) : Option α := if c then some x else none

/-- ALU codes (04 R129, R135): PD in bits 10:8, 0 unless the operation uses it. -/
def decodeAlu (w : Nat) : Option UOp :=
  (AluOp.all.find? fun o => decide (o.opc = w % 256)).bind fun o =>
    guardOpt (onlyFields w (if o.usesPd then [(10, 8)] else [])) (.alu o (fld w 10 8))

/-- AGU codes (04 R129, R139). -/
def decodeAgu (w : Nat) : Option UOp :=
  match w % 256 with
  | 0x01 => guardOpt (onlyFields w [(15, 12)]) (.agu .lea (fld w 15 12) 0)
  | 0x02 => guardOpt (onlyFields w [(15, 12)]) (.agu .aadd (fld w 15 12) 0)
  | 0x03 => guardOpt (onlyFields w [(15, 12), (19, 16)]) (.agu .amod (fld w 15 12) (fld w 19 16))
  | _ => none

/-- MUL codes (04 R129, R141). -/
def decodeMul (w : Nat) : Option UOp :=
  match w % 256 with
  | 0x01 => guardOpt (onlyFields w []) (.mul .muls 0)
  | 0x02 => guardOpt (onlyFields w []) (.mul .mulu 0)
  | 0x03 => guardOpt (onlyFields w []) (.mul .mulsu 0)
  | 0x04 => guardOpt (onlyFields w [(12, 8)]) (.mul .mulq (fld w 12 8))
  | _ => none

/-- DIV codes (04 R143). -/
def decodeDiv (w : Nat) : Option UOp :=
  if w = 0x01 then some (.div true) else if w = 0x02 then some (.div false) else none

/-- SIMD codes (04 R129, R145). -/
def decodeSimd (w : Nat) : Option UOp :=
  (SimdOp.all.find? fun o => decide (o.opc = w % 256)).bind fun o =>
    guardOpt (onlyFields w
      ((if o.usesXa then [(9, 8)] else []) ++ (if o.usesQa then [(14, 12)] else []) ++
       (if o.usesQb then [(18, 16)] else []) ++ (if o.usesQd then [(22, 20)] else [])))
      (.simd o (fld w 9 8) (fld w 14 12) (fld w 18 16) (fld w 22 20))

/-- DEC codes (04 R129, R149). -/
def decodeDec (w : Nat) : Option UOp :=
  (DecOp.all.find? fun o => decide (o.opc = w % 256)).bind fun o =>
    guardOpt (onlyFields w (if o.usesPd then [(10, 8)] else [])) (.dec o (fld w 10 8))

/-- CRV codes (05 R182, R183). -/
def decodeCrv (w : Nat) : Option UOp :=
  match w % 256 with
  | 0x01 => guardOpt (onlyFields w [(11, 8)]) (.eval (fld w 11 8))
  | 0x02 => guardOpt (onlyFields w [(15, 12)]) (.beat (fld w 15 12))
  | _ => none

/-- SEQ codes (05 R183, R193): TBLA refuses KD = 3, and SL above 7 with KD = 2. -/
def decodeSeq (w : Nat) : Option UOp :=
  match w % 256 with
  | 0x01 => guardOpt (onlyFields w [(11, 8), (14, 12)]) (.seqStep (fld w 11 8) (fld w 14 12))
  | 0x02 =>
    guardOpt (onlyFields w [(11, 8), (17, 16)] && decide (fld w 17 16 ≠ 3) &&
      !(decide (fld w 17 16 = 2) && decide (fld w 11 8 > 7))) (.tbla (fld w 11 8) (fld w 17 16))
  | _ => none

/-- LSU codes (04 R129, R151, R152): DR even for LDD and STD, U = 0 for atomics. -/
def decodeLsu (w : Nat) : Option UOp :=
  (LsuOp.all.find? fun o => decide (o.opc = w % 256)).bind fun o =>
    guardOpt (onlyFields w
      ([(15, 12)] ++ (if o.usesDr then [(20, 16)] else []) ++ (if o.isAtomic then [] else [(11, 11)]))
      && (o.size ≠ 8 || fld w 20 16 % 2 = 0))
      (.lsu o (fld w 20 16) (fld w 15 12) (decide (fld w 11 11 = 1)))

/-- The field positions a CTL operation uses (04, *Operation code fields*). -/
def CtlOp.fieldPos : CtlOp → List (Nat × Nat)
  | .gate => [(15, 8)]
  | .mfc | .mtc => [(12, 8)]
  | .br | .jl | .cbr _ => [(8, 8)]
  | _ => []

/-- CTL codes (04 R129, R158). The field is the gate number, the register index or the hint. -/
def decodeCtl (w : Nat) : Option UOp :=
  (CtlOp.all.find? fun o => decide (o.opc = w % 256)).bind fun o =>
    guardOpt (onlyFields w o.fieldPos)
      (.ctl o (match o.fieldPos with | [] => 0 | f :: _ => fld w f.1 f.2))

/-- Number of a NET operation (10 R373). -/
def NetOp.opc : NetOp → Nat
  | .send => 1 | .recv => 2 | .rpoll => 3 | .rskip => 4

/-- NET codes (10 R372, R373): CH in bits 13:12, QS or PD in bits 10:8. -/
def decodeNet (w : Nat) : Option UOp :=
  ([NetOp.send, .recv, .rpoll, .rskip].find? fun o => decide (o.opc = w % 256)).bind fun o =>
    guardOpt (onlyFields w ((13, 12) :: if o = .rskip then [] else [(10, 8)]))
      (.net o (fld w 13 12) (fld w 10 8))

/-- Number of an EVQ operation (12 R455). -/
def EvqOp.opc : EvqOp → Nat
  | .take => 1 | .wait => 2 | .poll => 3 | .ring => 4

/-- EVQ codes (12 R454, R455): DR in bits 20:16 for RING, PD in bits 10:8 for the others. -/
def decodeEvq (w : Nat) : Option UOp :=
  ([EvqOp.take, .wait, .poll, .ring].find? fun o => decide (o.opc = w % 256)).bind fun o =>
    guardOpt (onlyFields w (if o = .ring then [(20, 16)] else [(10, 8)]))
      (.evq o (fld w 20 16) (fld w 10 8))

/-- The operation that a unit's OP socket names, if the code is well formed (04 R129, R130). -/
def decodeOp (u : UnitId) (w : Word) : Option UOp :=
  let n := w.toNat
  match u with
  | .alu0 | .alu1 => decodeAlu n
  | .agu => decodeAgu n
  | .mul => decodeMul n
  | .div => decodeDiv n
  | .simd => decodeSimd n
  | .dec => decodeDec n
  | .crv => decodeCrv n
  | .seq => decodeSeq n
  | .lsu0 | .lsu1 => decodeLsu n
  | .ctl => decodeCtl n
  | .net => decodeNet n
  | .evq => decodeEvq n

/-- The code of an operation, as the assembler forms it (04 R129, R131). -/
def UOp.code : UOp → Nat
  | .alu op pd => op.opc + 256 * pd
  | .agu .lea ar _ => 1 + 4096 * ar
  | .agu .aadd ar _ => 2 + 4096 * ar
  | .agu .amod ar ab => 3 + 4096 * ar + 65536 * ab
  | .mul .muls _ => 1
  | .mul .mulu _ => 2
  | .mul .mulsu _ => 3
  | .mul .mulq sh => 4 + 256 * sh
  | .div sg => if sg then 1 else 2
  | .simd op xa qa qb qd => op.opc + 256 * xa + 4096 * qa + 65536 * qb + 2 ^ 20 * qd
  | .dec op pd => op.opc + 256 * pd
  | .eval cs => 1 + 256 * cs
  | .beat bg => 2 + 4096 * bg
  | .seqStep sl pd => 1 + 256 * sl + 4096 * pd
  | .tbla sl kd => 2 + 256 * sl + 65536 * kd
  | .lsu op dr ar u => op.opc + 65536 * dr + 4096 * ar + 2048 * b01 u
  | .ctl op f => op.opc + 256 * f
  | .net op ch pd => op.opc + 4096 * ch + 256 * pd
  | .evq op f pd => op.opc + 65536 * f + 256 * pd

end Sys2Proof.Machine
end

