-- ==== Sys2Proof/Machine/State.lean ====
section
/-! DEFINITION. The state of the LQ-1920: everything the spec gives the block, as plain data, and the
state right after power-on reset. Sparse parts are tables: lists of key and value pairs, sorted by
key, whose unlisted keys hold the default that the reader of the table names. -/

namespace Sys2Proof.Machine

/-- A sparse table: keys rising, unlisted keys at the reader's default. -/
abbrev Tbl (α : Type) := List (Nat × α)

/-! ### Memory -/

/-- A region of memory: addresses `lo` to `hi - 1`; `lane` below 4 keeps only those whose address
bits 4:3 equal it, one bank of an engine data memory (09, *Engine data and instruction memory*). -/
structure Region where
  lo : Nat
  hi : Nat
  lane : Nat := 4
  deriving DecidableEq, Repr

/-- Memory, keyed by device physical address: a canonical list of bytes, and the regions whose
unlisted bytes read as free bytes (`some nonce`) or as zeros again (`none`), newest first
(notes/assumptions/5 and 6). -/
structure Memory where
  cells : List Host.Cell := []
  back : List (Region × Option Nat) := []
  deriving DecidableEq, Repr

/-- One memory effect of a step: a byte written, a region zeroed, a region whose contents become
undefined. -/
inductive MemEff where
  | put (a : Nat) (b : Byte)
  | fill (r : Region) (nonce : Option Nat)
  deriving DecidableEq, Repr

/-! ### Engines and threads -/

/-- The thread states of file 02, *Thread states*. -/
inductive Run where
  | stopped | ready | stalled | waiting
  deriving DecidableEq, Repr

/-- The socket state of one bank of a thread (02 R42, R76, R77; 03 R110, R111, R120): OP and O
sockets by unit-page ID, result sockets and kept special sources by source ID, and the words counted
for each external unit. -/
structure Bank where
  dst : Tbl Word := []
  src : Tbl Word := []
  ux : Tbl (List Word) := []
  deriving DecidableEq, Repr

/-- The accumulator part of a SIMD operation, which acts in trigger order (04 R148). -/
structure SimdJob where
  op : SimdOp
  xa : Nat
  qd : Nat
  qa : Nat
  qb : Nat
  t : Word
  deriving DecidableEq, Repr

/-- An operation in flight: what it will deliver, captured at its trigger (02 R43, R48; 04 R166). `taken`
lists the D registers of a narrowing that a later write has taken (02 R52, 06 R231), `every` marks an operation whose
results are waited for in every timing mode (10 R374; 12 R456), `origin` the ring charged for what it raises
(08 R310). -/
structure Op where
  unit : Nat
  seq : Nat
  pc : Word
  shadow : Bool
  srcs : List (Nat × Word) := []
  preds : List (Nat × Bool) := []
  ds : List (Nat × Word) := []
  as : List (Nat × Word) := []
  ov : Bool := false
  dz : Bool := false
  bi : Bool := false
  ovt : Bool := false
  dzt : Bool := false
  hold : Bool := false
  simd : Option SimdJob := none
  recv : Option (Nat × Nat) := none
  tbl : Option (Nat × Nat) := none
  err : Option (St × Word) := none
  taken : List Nat := []
  every : Bool := false
  origin : Option Nat := none
  deriving DecidableEq, Repr

/-- A load or atomic waiting for its response (04 R153, R155, R157; 06 R239). `fwd` is data taken
from the store buffer; `after` is the entry it must wait for; `keep` says which words of a double load
still land in their registers (06 R231); `froze` that it has lost a cycle to that wait (06 R219); `origin` is the
ring charged for its error (08 R310). -/
structure Acc where
  op : LsuOp
  lsu : Nat
  seq : Nat
  pc : Word
  shadow : Bool
  ring : Nat
  ea : Word
  o : Word := 0
  new : Word := 0
  dr : Nat := 0
  keep : Bool × Bool := (true, true)
  fwd : Option Nat := none
  after : Option Nat := none
  froze : Bool := false
  origin : Option Nat := none
  deriving DecidableEq, Repr

/-- An entry of a thread's store buffer (06 R237). -/
structure Store where
  id : Nat
  seq : Nat
  pc : Word
  shadow : Bool
  ring : Nat
  lsu : Nat
  ea : Word
  size : Nat
  data : Nat
  origin : Option Nat := none
  deriving DecidableEq, Repr

/-- An exception that is pending (08 R294 to R296). `trap` marks arithmetic traps (04 R170), and `lat` is the
latency of the operation that raised one; `waits` marks a sentinel trap that a wait must end before (06 R236);
`origin` is the ring charged when a bundle in the shadow of a ring change raised it (08 R310); `lvl` is the depth of
handlers at which it is taken (04 R170; 06 R246). -/
structure Exc where
  vec : Nat
  detail : Nat := 0
  status : Nat := 0
  faddr : Word := 0
  seq : Nat := 0
  shadow : Bool := false
  trap : Bool := false
  waits : Bool := false
  origin : Option Nat := none
  lvl : Nat := 0
  lat : Nat := 0
  deriving DecidableEq, Repr

/-- An event record as a queue holds it (12 R441). -/
structure EvRec where
  src : Nat
  seq : Nat
  int : Bool := false
  many : Bool := false
  lost : Bool := false
  payload : Nat
  time : Nat
  deriving DecidableEq, Repr

/-- Where a thread continues after a pending delay slot (02 R67, R91): the address, and whether in
stack mode. `none` for the address stands for the bundle after the delay slot. -/
structure Branch where
  tgt : Option Word
  stk : Bool
  deriving DecidableEq, Repr

/-- A WAIT in progress (12 R456): its deadline, if it has one, the predicate and the bank. -/
structure WaitSt where
  deadline : Option Nat
  pd : Nat
  shadow : Bool
  deriving DecidableEq, Repr

/-- A line buffer: the line's address and its 16 words (06 R242). A word of a double that cannot be
corrected is `none` (09 R340). -/
structure Line where
  addr : Nat
  words : List (Option Word)
  deriving DecidableEq, Repr

/-- A bundle that the front end holds in BD, GR, RD or TR (06 R213, R217, R242): its address, its words as the line
buffer held them when it entered BD, the address that fetch went on at behind it, and for a branch that BD steered to its
target, that target. -/
structure Ahead where
  addr : Word
  words : List Word
  next : Word
  steer : Option Word := none
  deriving DecidableEq, Repr

/-- What the engine keeps of the code that an exception interrupted, beside the saved registers, until the return: that
its pending branch changes the mode (02 R91), the shadow of a ring change that it was in (08 R309, R310), and whether
the handler is that of a trap (04 R170). -/
structure Under where
  flip : Bool := false
  rcLeft : Nat := 0
  rcRing : Nat := 0
  trap : Bool := false
  deriving DecidableEq, Repr

/-- The fence a thread waits on (04 R161, R162). -/
inductive Fence where
  | mem | arith
  deriving DecidableEq, Repr

/-- A hardware thread (02 R61, R63, R76; 06; 08). `seq` numbers its operations, `rpt` is the REP
remaining count, `latch` the bundle that REP repeats, `br` a pending delay slot, `tos` the stack
cache, `dfault` double-fault state; `rcLeft` counts the bundles left in the shadow of a ring
change and `rcRing` is the ring before it, `under` lists what each exception entry interrupted, innermost first,
`oneMore` a step or delay slot that must issue first, `front` the bundles that the front end holds, oldest first, `bub` a
mispredicted branch (2 while its delay slot is to issue, 1 while its bubbles are due; 04 R159, 06 R223), `hvSeen` a
read of HV.R that waits and has been recorded (06 R233), `wdFrom` the moment from which the watchdog counts,
`startIn` the Weir period in which it last left STOPPED (13 R524). -/
structure Thread where
  run : Run := .stopped
  ring : Nat := 0
  shadow : Bool := false
  stk : Bool := false
  nest : Bool := false
  precise : Bool := false
  ie : Bool := false
  ovt : Bool := false
  dzt : Bool := false
  bi : Bool := false
  dc : Bool := false
  dz : Bool := false
  ov : Bool := false
  pc : Word := 0
  lk : Word := 0
  rc : Word := 0
  spc : Word := 0
  sst : Word := 0
  srpt : Word := 0
  slim : Word := 0
  gtbase : Word := 0
  d : Tbl Word := []
  dSh : Tbl Word := []
  a : Tbl Word := []
  aSh : Tbl Word := []
  x : Tbl (BitVec 40) := []
  p : Tbl Bool := []
  pSh : Tbl Bool := []
  nb : Bank := {}
  sb : Bank := {}
  ops : List Op := []
  accs : List Acc := []
  sbuf : List Store := []
  seq : Nat := 0
  rpt : Nat := 0
  latch : Option (List Word) := none
  br : Option Branch := none
  tos : List Word := []
  excs : List Exc := []
  evq : List EvRec := []
  wait : Option WaitSt := none
  lineS : Option Line := none
  lineT : Option Line := none
  fence : Option Fence := none
  dfault : Bool := false
  dcount : Word := 0
  rcLeft : Nat := 0
  rcRing : Nat := 0
  under : List Under := []
  oneMore : Bool := false
  front : List Ahead := []
  bub : Nat := 0
  hvSeen : Bool := false
  wdPend : Bool := false
  wdFrom : Nat := 0
  startIn : Nat := 0
  halted : Bool := false
  stepReq : Bool := false
  dbgHeld : List (Nat × Word) := []
  job : Option Nat := none
  deriving DecidableEq, Repr

/-- The kind of a table (05 R210). -/
inductive TKind where
  | curve | seq | fmt
  deriving DecidableEq, Repr

/-- A table in a slot (05 R180, R191, R196): its place, its length and the header fields the units
use. `n1`, `n2` hold NSEG, or NS and NC. `span` is MSPAN. -/
structure TabRef where
  kind : TKind
  addr : Word
  len : Nat
  tid : Word := 0
  n1 : Nat := 0
  n2 : Nat := 0
  span : Nat := 0
  deriving DecidableEq, Repr

/-- A slot (05 R173, R175, R203): its live and armed tables, its beat group, whether the armed table
is held, and the release time of a committed RELEASE. -/
structure Slot where
  live : Option TabRef := none
  armed : Option TabRef := none
  bg : Nat := 0
  held : Bool := false
  rel : Option Nat := none
  deriving DecidableEq, Repr

/-- A job of an HV (03 R114, R115). -/
structure HvJob where
  key : Nat
  shadow : Bool
  ring : Nat
  cmd : Nat
  block : Word
  deriving DecidableEq, Repr

/-- What an engine's four threads share (02 R61, R84; 05 R173, R204; 06 R248; 07 R254, R262). -/
structure Engine where
  strict : Bool := false
  exposed : Bool := false
  last : Nat := 0
  slots : Tbl Slot := []
  bgLast : Tbl Nat := []
  claim : Nat := 0
  loaded : Bool := false
  retimed : Bool := false
  entry : Word := 0
  ringLive : Tbl Word := []
  deriving DecidableEq, Repr

/-! ### Registers and commits -/

/-- The state of a commit block (00 R16, R17, R19; 05 R211): RESULT, DETAIL, the copy of the staging
registers and the tide time of acceptance. -/
structure Com where
  busy : Bool := false
  seq : Nat := 0
  status : Nat := 0
  check : Nat := 0
  index : Nat := 0
  snap : Tbl Word := []
  acc : Nat := 0
  deriving DecidableEq, Repr

/-- The response of the last access: the word or the bytes read, or the error. -/
structure Resp where
  data : Word := 0
  bytes : List Byte := []
  err : Option St := none
  deriving DecidableEq, Repr

/-! ### Slot network -/

/-- A flit (10 R367, R370). -/
structure Flit where
  data : Nat
  last : Bool
  deriving DecidableEq, Repr

/-- A reservation of a plan (10 R383). -/
structure Resv where
  src : Nat
  dst : Nat
  sch : Nat
  dch : Nat
  start : Nat
  len : Nat
  yx : Bool
  req : Bool
  plog : Nat
  phase : Nat
  deriving DecidableEq, Repr

/-- A best-effort binding (10 R384). -/
structure Bind where
  src : Nat
  sch : Nat
  dst : Nat
  dch : Nat
  deriving DecidableEq, Repr

/-- A compiled slot plan (10 R382, R386). -/
structure Plan where
  id : Word
  addr : Nat
  len : Nat
  fallback : Bool
  lost : Nat
  spare : Nat
  floor : List Nat
  res : List Resv
  be : List Bind
  deriving DecidableEq, Repr

/-- A message on the mesh (10 R370, R376, R379). -/
structure Msg where
  src : Nat
  sch : Nat
  dst : Nat
  dch : Nat
  flits : List Flit
  reserved : Bool
  waits : Bool := false
  deriving DecidableEq, Repr

/-- The slot network (10 R366 to R390): sluices by engine, channel buffers by node and channel,
messages on the mesh, the live and the armed plan, the frame of the armed swap. -/
structure Net where
  sluice : Tbl (List (Nat × Flit)) := []
  tx : Tbl (List Flit) := []
  rx : Tbl (List Flit) := []
  fly : List Msg := []
  live : Option Plan := none
  armed : Option (Plan × Nat) := none
  bankB : Bool := false
  part : Tbl Nat := []
  deriving DecidableEq, Repr

/-- Who makes a request (10 R277, R393; 12 R473). -/
inductive Who where
  | eng (e : Nat) | keeper | dap | cul (c : Nat) | vault | pcie | eth | csi | weir
  deriving DecidableEq, Repr

/-- A request: its master and the ring it carries (08 R277). -/
structure Req where
  who : Who
  ring : Nat
  deriving DecidableEq, Repr

/-- A matrix transaction waiting for its response (10 R395, R397). -/
structure MtxTxn where
  who : Who
  master : Nat
  ring : Nat
  addr : Nat
  len : Nat
  write : Option (List Byte)
  beats : Nat := 0
  got : List Byte := []
  deriving DecidableEq, Repr

/-! ### Event router and tide -/

/-- A record in the router: its targets still to be delivered, as (index, route word) pairs
(12 R445, R446). -/
structure Pending where
  ev : EvRec
  tgts : List (Nat × Word)
  deriving DecidableEq, Repr

/-- A tide comparator (12 R466): next time with its fraction in 2^-16 ns, period likewise. -/
structure Cmp where
  n : Nat
  p : Nat
  fires : Nat := 0
  deriving DecidableEq, Repr

/-- The tide (12 R461 to R468). `sync` is the moment that starts the count of a lost source. -/
structure Tide where
  count : Nat := 0
  st : Nat := 0
  src : Nat := 0
  port : Nat := 0
  adj : Word := 0
  sync : Nat := 0
  cmps : Tbl Cmp := []
  deriving DecidableEq, Repr

/-! ### Memory control, culverts, pins, links -/

/-- A patrol of a domain (09 R346 to R361). `st` is 0 IDLE, 1 RUNNING, 2 STOPPING. `phase` says what the patrol does with
the block at `next`: 0 nothing yet, 1 copying, 2 testing, 3 restoring. `buf` is the borrow buffer, filled as the copy
goes on, `marks` the ECC mark of each of its doubles, `dirty` its dirty mask, and `pos` counts the array words restored. -/
structure Patrol where
  st : Nat := 0
  alg : Nat := 0
  bg : Nat := 0
  phase : Nat := 0
  buf : List Byte := []
  marks : List Nat := []
  dirty : List Bool := []
  pos : Nat := 0
  next : Nat := 0
  left : Nat := 0
  base : Nat := 0
  blocks : Nat := 0
  destr : Bool := false
  repair : Bool := false
  skipped : Nat := 0
  done : Nat := 0
  fails : Nat := 0
  repaired : Nat := 0
  first : Option Nat := none
  deriving DecidableEq, Repr

/-- A bank (09 R342, R343, R355 to R362): the state of MEM_BANKSTAT, OWNED, zero fill under way,
DEGRADED, the rows replaced, spare rows found bad, the (bit, row) pairs seen failing, the columns
replaced, and the state that a transition leads to. -/
structure MBank where
  st : Nat := 2
  owned : Bool := false
  zf : Bool := false
  degraded : Bool := false
  rows : List Nat := []
  spent : Nat := 0
  bad : List (Nat × Nat) := []
  cols : List Nat := []
  goal : Nat := 2
  deriving DecidableEq, Repr

/-- A culvert channel (11 R422 to R436). `pos` counts the element-stream bytes written, `port` those of the portions
taken, `buf` holds the bytes in the funnel, `crc` and `odd`
carry the check value, `atNext` says that a parked channel waits at a NEXT word. -/
structure Chan where
  st : Nat := 0
  direct : Bool := false
  dbpend : Bool := false
  code : Nat := 0
  cur : Nat := 0
  nxt : Nat := 0
  desc : List Word := []
  pos : Nat := 0
  crc : Nat := 0
  odd : Option Nat := none
  halt : Bool := false
  req : Bool := false
  atNext : Bool := false
  fail : Option St := none
  moved : Bool := false
  last : Option Nat := none
  port : Nat := 0
  buf : List Byte := []
  deriving DecidableEq, Repr

/-- An entry of a pin's edge queue, or of its pairing history (12 R475 to R478). `b` says which
side pushed it first, `paired` that its partner came, `nopair` that none is taken any more, `late` the
time at which a late entry fires. -/
structure Edge where
  time : Nat
  level : Bool
  tag : Nat
  b : Bool
  paired : Bool := false
  nopair : Bool := false
  late : Option Nat := none
  deriving DecidableEq, Repr

/-- A T-pin (12 R470 to R487). -/
structure Pin where
  mode : Nat := 0
  cfg : Word := 0
  p0 : Word := 0
  p1 : Word := 0
  level : Bool := false
  ball : Bool := false
  live : Bool × Bool := (false, false)
  hold : Bool := false
  safed : Bool := false
  queue : List Edge := []
  hist : List Edge := []
  fired : Nat := 0
  lastFire : Nat := 0
  fifo : List (Nat × Nat × Bool) := []
  popped : Option (Nat × Bool) := none
  value : Word := 0
  ab : Bool × Bool := (false, false)
  period : Nat := 0
  duty : Nat := 0
  deriving DecidableEq, Repr

/-- A format element (05 R197). -/
structure Elem where
  opk : Nat
  pos : Nat
  len : Nat
  arg : Word
  deriving DecidableEq, Repr

/-- A format table copied into a block's own memory (12 R496, 16 R604). -/
structure Fmt where
  cls : Nat
  outlen : Nat
  srclen : Nat
  els : List Elem
  deriving DecidableEq, Repr

/-- A pending data set of a drive link (12 R492). -/
structure DSet where
  cycle : Nat
  b : Bool
  words : List Word
  deriving DecidableEq, Repr

/-- A drive link (12 R489 to R500). `st` is 0 STOPPED, 1 RUNNING, 2 HOLD. `frame` is the frame last
sent, as bits. -/
structure Link where
  st : Nat := 0
  cfg : Word := 0xFFFF0000
  bit : Nat := 0
  period : Nat := 0
  phase : Nat := 0
  lead : Nat := 0
  trail : Nat := 0
  rxdelay : Nat := 0
  rxwin : Nat := 0
  live : Bool × Bool := (false, false)
  wdAt : Nat × Nat := (0, 0)
  tx : Option Fmt := none
  rx : Option Fmt := none
  armed : Option (Option Fmt × Option Fmt × Nat) := none
  next : Int := 0
  sets : List DSet := []
  lastSet : Option (List Word) := none
  frame : List Bool := []
  deEnd : Nat := 0
  window : Option (Nat × Nat) := none
  stopReq : Bool := false
  deriving DecidableEq, Repr

/-! ### Weir -/

/-- A polder as the Weir runs it (13 R502 to R525). `vgo` is the operating point whose voltage the
regulator slews to, `goal` the pending operating point, `ceil` a pending lowered point with the entry
it was chosen for, `more` the entries to be admitted with it, `ceilRun` the point of a job that runs
at one, `slept` the banks that the Weir put into RETAIN, `scaled` the metered units and charges of
the 256 periods that a SCALE update is due for, `resume` the point to return to after a warning. -/
structure Pol where
  cur : Nat := 0
  target : Nat := 0
  policy : Nat := 0
  volt : Nat := 0
  vgo : Option Nat := none
  goal : Option Nat := none
  bal : Int := 0
  grant : Nat := 0
  scale : Nat := 256
  meter : Nat := 0
  laste : Nat := 0
  busy : Nat := 0
  m256 : Nat := 0
  s256 : Nat := 0
  scaled : Option (Nat × Nat) := none
  img : Nat := 0
  imgPend : Option Nat := none
  sleep : Bool := false
  quiet : Nat := 0
  slept : List Nat := []
  ceil : Option (Nat × Nat) := none
  more : List Nat := []
  ceilRun : Option (Nat × Nat) := none
  resume : Option Nat := none
  relIn : Nat := 0
  awake : Bool := false
  deriving DecidableEq, Repr

/-- What a Weir period measured, waiting to take effect (13 R510): TMAX and its sensor, the readings,
and for each polder the energy, the busy cycles and the total cycles. -/
structure Meas where
  time : Nat
  tmax : Int
  sensor : Nat
  temps : List Int
  pols : List (Nat × Nat × Nat)
  deriving DecidableEq, Repr

/-- The Weir (13 R510 to R534). `st` is 0 NORMAL, 1 THROTTLE, 2 LIMIT; `lim` says whether the
dispatchers see LIMIT; `next` is a committed configuration; `dip` the start of a supply warning. -/
structure Weir where
  st : Nat := 0
  lim : Bool := false
  tmax : Int := 0
  sensor : Nat := 0
  beff : Nat := 0
  trip : Nat := 0
  meas : Option Meas := none
  next : Option (Tbl Word) := none
  dip : Option Nat := none
  dipReset : Bool := false
  period : Nat := 1
  pols : Tbl Pol := []
  deriving DecidableEq, Repr

/-- A dispatch entry (13 R514 to R521). `st` is 0 IDLE, 1 RELEASED, 2 ADMITTED, 3 RUNNING; `box`
holds the records of its release source not yet handled. -/
structure Disp where
  ctrl : Word := 0
  pc : Word := 0
  deadline : Word := 0
  job : Word := 0
  energy : List Word := [0, 0, 0, 0, 0, 0]
  st : Nat := 0
  thread : Nat := 0
  op : Nat := 0
  wait : Nat := 0
  rel : Nat := 0
  payload : Nat := 0
  runs : Word := 0
  misses : Word := 0
  charge : Nat := 0
  box : List EvRec := []
  deriving DecidableEq, Repr

/-! ### Fault continuity -/

/-- An engine or polder as a unit of fault continuity (14 R536, R546, R566). `cnt` holds the counts
of the DIKE record being closed, `byCommit` says that a CLOSE commit waits for it. -/
structure FUnit where
  st : Nat := 0
  cause : Nat := 0
  closes : Nat := 0
  cnt : List Nat := []
  byCommit : Bool := false
  deriving DecidableEq, Repr

/-- An entry of a join list (14 R563). -/
structure Join where
  link : Bool
  b : Bool
  owner : Nat
  num : Nat
  deriving DecidableEq, Repr

/-- The fault controller (14 R542 to R566): records written, the armed join with its frame, the
fallback under way (polder, plan address, PLANID replaced, swap frame), keeper resynchronisation. -/
structure Flt where
  head : Nat := 0
  join : Option (List Join × Nat) := none
  fb : Option (Nat × Nat × Word × Nat) := none
  ksync : Bool := false
  units : Tbl FUnit := []
  deriving DecidableEq, Repr

/-! ### External links -/

/-- A descriptor that a queue or ring of a port has fetched (15 R571, R572): its address, its index,
its words, and the tag word of the queue's or ring's record when it was fetched. `old` says that a
new configuration came since. -/
structure EthDesc where
  addr : Nat
  idx : Nat
  words : List Word
  tag : Nat
  corr : Nat := 0
  old : Bool := false
  deriving DecidableEq, Repr

/-- A transmit queue (0 to 7) or receive ring (8 to 11) of a port: the index of the next descriptor,
the fetched descriptor, parked, doorbell pending (15 R571, R572). -/
structure EthQ where
  idx : Nat := 0
  desc : Option EthDesc := none
  park : Bool := false
  db : Bool := false
  deriving DecidableEq, Repr

/-- A built cyclic frame: entry, cycle, its time t_c, traffic class, SENTEV, bytes (15 R574). -/
structure CycFrame where
  e : Nat
  due : Nat
  c : Nat
  tc : Nat
  sentEv : Bool
  bytes : List Byte
  tag : Nat := 0
  deriving DecidableEq, Repr

/-- A cyclic entry at work: the frame built and not yet queued, the bytes that each field last wrote,
and the last message that it saw of each channel (15 R574, R575). -/
structure CycSt where
  built : Option CycFrame := none
  last : Tbl (List Byte) := []
  seen : Tbl Nat := []
  deriving DecidableEq, Repr

/-- An Ethernet port (15 R568 to R578): the live configuration block, the armed one with its swap
time, the link, queues and rings, cyclic frames queued by traffic class, cyclic entries, the gate
entry in force and its end, whether the 802.3br verification succeeded, and the frame last put on the
wire. -/
structure EthPort where
  cfg : List Byte := []
  armed : Option (List Byte × Nat) := none
  link : Bool := false
  q : Tbl EthQ := []
  txq : Tbl (List CycFrame) := []
  cyc : Tbl CycSt := []
  gcl : Nat := 0
  gclAt : Nat := 0
  verify : Bool := false
  wire : List Byte := []
  deriving DecidableEq, Repr

/-- A stream of the device-wide stream table (15 R569, R578): its record, the sequence number it
generates next, and the state of its recovery. -/
structure Stream where
  mac : List Byte
  vid : Nat
  ctl : Nat
  sdu : Nat
  gen : Nat := 0
  fresh : Bool := true
  recov : Nat := 0
  hist : List Bool := []
  deriving DecidableEq, Repr

/-- A capture context of a camera input (15 R580 to R583): the four live words, whether a commit
waits for its Frame Start, the frame number, lines written, whether a frame is under way, blocks
consumed. -/
structure CsiCtx where
  words : List Word := [0, 0, 0, 0]
  next : Option (List Word) := none
  frame : Nat := 0
  lines : Nat := 0
  inFrame : Bool := false
  used : Nat := 0
  deriving DecidableEq, Repr

/-- A camera input (15 R579 to R584): live LANES, contexts. -/
structure Csi where
  lanes : Nat := 0
  ctx : Tbl CsiCtx := []
  deriving DecidableEq, Repr

/-- The PCIe endpoint (15 R585 to R590): link width and speed (0 for no link), and the record
copies that wait to be forwarded, with their vectors; `lost` counts the records lost since one was
written. -/
structure Pcie where
  width : Nat := 0
  speed : Nat := 0
  inbox : List (Nat × EvRec) := []
  head : Word := 0
  lost : Nat := 0
  deriving DecidableEq, Repr

/-- An operation of an external unit under way: unit, thread, bank (true for the shadow one), the
operation's number, and the words that its OP packet carries (15 R591, R594). -/
structure UxJob where
  unit : Nat
  key : Nat
  shadow : Bool
  seq : Nat
  words : List Word := []
  deriving DecidableEq, Repr

/-- The annex link (15 R591 to R599). `st` is 0 DOWN, 1 TRAIN, 2 UP; `got` holds the units described
since training began, `bad` those whose last DESC breaks R592. -/
structure Annex where
  st : Nat := 0
  desc : Tbl (List Word) := []
  got : List Nat := []
  bad : List Nat := []
  cred : Tbl Nat := []
  ops : List UxJob := []
  reqs : List (Nat × MtxTxn) := []
  tag : Nat := 0
  deriving DecidableEq, Repr

/-! ### Vault, start-up, test and debug -/

/-- An object of the vault (16 R605 to R608): TYPE, CLASS (1 = pSLC), the number of writes, the tide
time of the last change, the bytes of its current version, and for a log its capacity and records. -/
structure VObj where
  type : Nat
  cls : Nat := 0
  ver : Nat := 0
  time : Nat := 0
  data : List Byte := []
  cap : Nat := 0
  recs : List (List Byte) := []
  deriving DecidableEq, Repr

/-- The vault (16 R600 to R627). `st` is 0 UNMOUNTED, 1 MOUNTED, 2 PAUSED, 3 READONLY; `prev` the
state that a pause interrupted. Per channel: chip enables present, blocks, good free blocks, retired
blocks. `sys` says that the medium holds a system area whose journal can be replayed; `slots` the
installed sequence tables; `locks` the fallback plans copied into VLT_FBAREA; `arms` the slots that
the last LOAD armed, with the address of the armed table; `scrubAt` the end of the scrub period. -/
structure Vault where
  st : Nat := 0
  prev : Nat := 0
  sys : Bool := false
  ce : List Nat := [0, 0]
  blocks : List Nat := [0, 0]
  good : List Nat := [0, 0]
  retired : List Nat := [0, 0]
  objs : Tbl VObj := []
  slots : Tbl Fmt := []
  kept : Tbl Fmt := []
  fbhalf : Nat := 0
  locks : List (Nat × Nat) := []
  arms : List (Nat × Nat × Word) := []
  scrubAt : Nat := 0
  deriving DecidableEq, Repr

/-- Start-up and reset (17 R628 to R643, R654, R655): reset asserted, boot phase, source, HOLD, pins,
failures and status; LAST, STICKY, COUNT and SYS_RSTINFO; the OTP words (0 to 31 the keys, 32 the
configuration); whether the debug access port was opened (R648); the number of doorbell 255 up to which
the boot has answered (R640); whether an accepted SYS_START waits for its time (R642). -/
structure Sys where
  held : Bool := false
  phase : Nat := 1
  src : Nat := 3
  hold : Bool := false
  pins : Nat := 0
  fails : Nat := 0
  status : Nat := 0
  fwid : Word := 0
  last : Nat := 1
  sticky : Nat := 1
  count : Nat := 0
  info : Word := 0
  otp : Tbl Word := []
  dapOpen : Bool := false
  bell : Nat := 0
  starting : Bool := false
  deriving DecidableEq, Repr

/-- The trace buffer of a polder (17 R652, R653): records written, the records by place, and the
engine traced in FLOW mode. -/
structure Trace where
  ptr : Nat := 0
  recs : Tbl (List Word) := []
  eng : Nat := 0
  deriving DecidableEq, Repr

/-- The test access port (17 R646, R647): the instruction selected, whether it holds the device in
DEBUG reset, the captured data and error, the boundary register's update stage
(notes/assumptions/22). -/
structure Tap where
  ir : Nat := 1
  hold : Bool := false
  data : Word := 0
  err : Bool := false
  bsr : List Bool := []
  deriving DecidableEq, Repr

/-! ### The whole state -/

/-- The part: stepping and grade (00 R4), and which of the two lockstep keepers engine 192 follows: K0, or K1
(03 R111; notes/assumptions/12). -/
structure Part where
  a1 : Bool := false
  gradeE : Bool := false
  k1 : Bool := false
  deriving DecidableEq, Repr

/-- Everything the machine holds but memory and the queue of commands. `defSeen` says that the default
target recorded a request since MTX_DEFERRCNT was read (10 R399). -/
structure Dev where
  part : Part := {}
  free : Nat := 0
  tide : Tide := {}
  thr : Tbl Thread := []
  eng : Tbl Engine := []
  hv : Tbl (List HvJob) := []
  regs : Tbl Word := []
  live : Tbl Word := []
  lat : Tbl Word := []
  com : Tbl Com := []
  resp : Resp := {}
  ecc : Tbl Nat := []
  wb : List Nat := []
  eccCnt : Tbl Nat := []
  bank : Tbl MBank := []
  patrol : Tbl Patrol := []
  routes : Tbl Word := []
  evSeq : Tbl Nat := []
  evLost : Tbl Nat := []
  router : List Pending := []
  net : Net := {}
  mtx : List MtxTxn := []
  arb : Tbl (Nat × Nat) := []
  defSeen : Bool := false
  cul : Tbl Chan := []
  tio : Tbl Pin := []
  dlk : Tbl Link := []
  dike : Tbl Bool := []
  weir : Weir := {}
  disp : Tbl Disp := []
  flt : Flt := {}
  eth : Tbl EthPort := []
  strs : List Stream := []
  nhub : Tbl (Nat × List Byte) := []
  csi : Tbl Csi := []
  pcie : Pcie := {}
  annex : Annex := {}
  vault : Vault := {}
  sys : Sys := {}
  trace : Tbl Trace := []
  tap : Tap := {}
  deriving DecidableEq, Repr

/-- A state while a command acts: the machine, memory as the command found it, the memory effects
made so far, newest first, and the detector signals raised so far (cause, unit, detail). -/
structure W extends Dev where
  base : Memory := {}
  jr : List MemEff := []
  sig : List (Nat × Nat × Nat) := []
  deriving DecidableEq, Repr

/-- The state of the block: the machine, memory, and the queue of waiting commands. -/
structure State extends Dev where
  mem : Memory := {}
  pending : List Instr := []
  deriving DecidableEq, Repr

/-- Why a step stops with a fault. No command of this model does: every failure that the spec
describes is an exception, an error response or a fault record, which are next states. -/
inductive Fault where
  /-- Raised by no command; kept so that the type is not empty. Safe. -/
  | none
  deriving DecidableEq, Repr

/-- Why a step refuses a command. -/
inductive Refusal where
  /-- The command has no meaning in this model yet. Raised by exec for its own arm. Safe. -/
  | notModelled (mnemonic : String)
  deriving DecidableEq, Repr

/-- The machine right after power-on reset (17 R628 to R630; notes/assumptions/18): every table
empty, so that every element holds its reset value, no command waiting. -/
def State.reset : State := {}

end Sys2Proof.Machine
end

