-- ==== Sys2Proof/Machine/Ops.lean ====
section
/-! DEFINITION. The shared operations over the state: tables, memory and its journal, free values,
and the running of a command. -/

namespace Sys2Proof.Machine

/-! ### Tables -/

/-- The value of key `n`, or `d` where the key is not listed. -/
def tget {α : Type} (d : α) : Tbl α → Nat → α
  | [], _ => d
  | (k, v) :: r, n => if k = n then v else tget d r n

/-- The value of key `n`, if it is listed. -/
def tfind {α : Type} : Tbl α → Nat → Option α
  | [], _ => none
  | (k, v) :: r, n => if k = n then some v else tfind r n

/-- The table with key `n` holding `x`, kept sorted. -/
def tset {α : Type} : Tbl α → Nat → α → Tbl α
  | [], n, x => [(n, x)]
  | (k, v) :: r, n, x =>
    if n < k then (n, x) :: (k, v) :: r
    else if n = k then (n, x) :: r
    else (k, v) :: tset r n x

/-- The table without key `n`. -/
def tdel {α : Type} (t : Tbl α) (n : Nat) : Tbl α := t.filter fun c => c.1 != n

/-! ### Memory -/

/-- Whether a region holds an address. -/
def Region.has (r : Region) (a : Nat) : Bool :=
  decide (r.lo ≤ a) && decide (a < r.hi) && (decide (4 ≤ r.lane) || decide (a / 8 % 4 = r.lane))

/-- The newest background region that holds an address. -/
def Memory.backOf (m : Memory) (a : Nat) : Option (Region × Option Nat) :=
  m.back.find? fun c => c.1.has a

/-- What an unlisted address reads as: a free byte in an undefined region, else zero
(notes/assumptions/5 and 6). -/
def Memory.unlisted (m : Memory) (a : Nat) : Byte :=
  match m.backOf a with
  | some (_, some n) => Config.freeByte n a
  | _ => 0

/-- One byte of memory. -/
def Memory.read (m : Memory) (a : Nat) : Byte := tget (m.unlisted a) m.cells a

/-- Memory with one byte written; a byte equal to what the unlisted address reads as is not listed. -/
def Memory.write (m : Memory) (a : Nat) (b : Byte) : Memory :=
  { m with cells := if b = m.unlisted a then tdel m.cells a else tset m.cells a b }

/-- Whether every address of region `c` lies in region `r`. -/
def Region.covers (r c : Region) : Bool :=
  decide (r.lo ≤ c.lo) && decide (c.hi ≤ r.hi) && (decide (4 ≤ r.lane) || decide (r.lane = c.lane))

/-- Whether regions may share an address. -/
def Region.meets (r c : Region) : Bool := decide (r.lo < c.hi) && decide (c.lo < r.hi)

/-- The background regions after one is filled: those it covers are gone, and zeros are listed only over a region
that reads otherwise. -/
def backFill (l : List (Region × Option Nat)) (r : Region) (n : Option Nat) : List (Region × Option Nat) :=
  let rest := l.filter fun c => !r.covers c.1
  if n = none ∧ rest.all (fun c => !r.meets c.1) then rest else (r, n) :: rest

/-- Memory with a region back at its background: free bytes or zeros. -/
def Memory.fill (m : Memory) (r : Region) (n : Option Nat) : Memory :=
  { cells := m.cells.filter (fun c => !r.has c.1), back := backFill m.back r n }

/-- Addresses strictly rising. -/
def rising : List Host.Cell → Bool
  | [] => true
  | [_] => true
  | a :: b :: r => decide (a.1 < b.1) && rising (b :: r)

/-- The canonical form: addresses strictly rising, and no listed byte equal to what its address reads
as when unlisted. -/
def Memory.wf (m : Memory) : Bool :=
  rising m.cells && m.cells.all fun c => c.2 != m.unlisted c.1

/-- One memory effect on memory. -/
def MemEff.apply (m : Memory) : MemEff → Memory
  | .put a b => m.write a b
  | .fill r n => m.fill r n

/-- Memory after a journal, whose head is the newest effect. -/
def applyJr (m : Memory) : List MemEff → Memory
  | [] => m
  | e :: r => e.apply (applyJr m r)

/-- One byte as a journal over memory shows it. -/
def jrRead (m : Memory) : List MemEff → Nat → Byte
  | [], a => m.read a
  | .put k b :: r, a => if k = a then b else jrRead m r a
  | .fill g n :: r, a =>
    if g.has a then (match n with | some k => Config.freeByte k a | none => 0) else jrRead m r a

/-- The byte at a physical address while a command acts. -/
def W.rdB (w : W) (a : Nat) : Byte := jrRead w.base w.jr a

/-- A byte written at a physical address while a command acts. -/
def W.wrB (w : W) (a : Nat) (b : Byte) : W := { w with jr := .put a b :: w.jr }

/-- `n` bytes from an address on. -/
def W.rdN (w : W) (a n : Nat) : List Byte := (upTo n).map fun i => w.rdB (a + i)

/-- Bytes written from an address on. -/
def W.wrN (w : W) : Nat → List Byte → W
  | _, [] => w
  | a, b :: r => W.wrN (w.wrB a b) (a + 1) r

/-- The word at a physical address. -/
def W.rdW (w : W) (a : Nat) : Word := w32 (leNat (w.rdN a 4))

/-! ### Free values -/

/-- A fresh free value of width `n`: the counter's value names it, and the counter advances
(notes/assumptions/7). -/
def W.fresh (w : W) (n : Nat) : BitVec n × W := (Config.freeValue n w.free, { w with free := w.free + 1 })

/-- Free bytes written at the given addresses. -/
def W.scramble (w : W) (as : List Nat) : W :=
  { as.foldl (fun w a => w.wrB a (Config.freeByte w.free a)) w with free := w.free + 1 }

/-- A region whose contents become undefined. -/
def W.undefRegion (w : W) (r : Region) : W :=
  { w with jr := .fill r (some w.free) :: w.jr, free := w.free + 1 }

/-- A region filled with zeros. -/
def W.zeroRegion (w : W) (r : Region) : W := { w with jr := .fill r none :: w.jr }

/-! ### Running a command -/

/-- The working state of a command on a state. -/
def State.open (s : State) : W := { toDev := s.toDev, base := s.mem, jr := [] }

/-- The state that a command's working state leaves: memory takes the journal, the queue is as it
was. -/
def State.close (s : State) (w : W) : State :=
  { toDev := w.toDev, mem := applyJr s.mem w.jr, pending := s.pending }

/-- A command whose effect is `f`: it always answers a next state, with the queue unchanged. -/
def runW (f : W → W) (s : State) : Host.Outcome State Fault Refusal := .next (s.close (f s.open))

/-! ### Accessors -/

/-- The key of thread `t` of engine `e`. Engine 192 is the keeper pair (notes/assumptions/12). -/
def tkey (e t : Nat) : Nat := 4 * e + t

/-- A thread at engine reset, key `k` (02 R63, R80, R88; 08 R300): thread 0 is READY in stack mode;
A15 of the stack-mode entry and every shadow A15 point below the reserve areas. -/
def resetThread (k : Nat) : Thread :=
  let top := w32 (0x1FF00 - 0x100 * (k % 4))
  if k % 4 = 0 then { run := .ready, stk := true, a := [(15, top)], aSh := [(15, top)] }
  else { aSh := [(15, top)] }

/-- Thread of key `k`. -/
def W.th (w : W) (k : Nat) : Thread := tget (resetThread k) w.thr k

/-- Thread of key `k` replaced. -/
def W.setTh (w : W) (k : Nat) (x : Thread) : W := { w with thr := tset w.thr k x }

/-- Thread of key `k` changed. -/
def W.modTh (w : W) (k : Nat) (f : Thread → Thread) : W := w.setTh k (f (w.th k))

/-- Engine `e`. -/
def W.en (w : W) (e : Nat) : Engine := tget {} w.eng e

/-- Engine `e` changed. -/
def W.modEn (w : W) (e : Nat) (f : Engine → Engine) : W := { w with eng := tset w.eng e (f (w.en e)) }

/-- The tide count as a 64-bit value (12 R461). -/
def Dev.now (d : Dev) : Nat := d.tide.count

/-- Time carried forward to `t`, if `t` lies ahead (notes/assumptions/3). -/
def W.toTime (w : W) (t : Nat) : W := { w with tide := { w.tide with count := max w.tide.count t } }

end Sys2Proof.Machine
end

