-- ==== Sys2Proof/Machine/Mem.lean ====
section
/-! DEFINITION. Addresses, banks, locks and access rules of the memories (file 09), and access to
memory by physical address with ECC. A physical address is the reservoir's or a remote window's
address of 09 R325 and R326; the keepers' own memories lie from 2^32 on. -/

namespace Sys2Proof.Machine

/-- The request of a thread of engine `e` at a ring; the keepers carry ring 0 (08 R277). -/
def engReq (e ring : Nat) : Req :=
  if e = 192 then { who := .keeper, ring := 0 } else { who := .eng e, ring := ring }

/-- The matrix master ID of a requester (10 R393). -/
def Who.master : Who → Nat
  | .eng e => e / 8 | .keeper => 52 | .cul c => 24 + c | .pcie => 53 | .eth => 54 | .csi => 55
  | .vault => 56 | .dap => 57 | .weir => 52

/-- The polder a requester sits in, if it sits in one (10 R393, 11 R409). -/
def Who.polder : Who → Option Nat
  | .eng e => some (e / 8)
  | .cul c => if c < 24 then some c else none
  | _ => none

/-- First physical address of polder `p`'s window (09 R325). -/
def winBase (p : Nat) : Nat := 0x20000000 + 0x200000 * p

/-- First physical address of engine `e`'s data memory (09 R326). -/
def dmemBase (e : Nat) : Nat :=
  if e = 192 then 0x100010000 else winBase (e / 8) + 0x140000 + 0x10000 * (e % 8)

/-- First physical address of engine `e`'s instruction memory (09 R326). -/
def imemBase (e : Nat) : Nat :=
  if e = 192 then 0x100000000 else winBase (e / 8) + 0x1C0000 + 0x8000 * (e % 8)

/-- Where an address leads. -/
inductive Loc where
  | mem (pa : Nat)
  | reg (a : Nat)
  | annex (a : Nat)
  | pcie (a : Nat)
  | none
  deriving DecidableEq, Repr

/-- The engine address map (09 R325, R327; 17 R635 for the keepers, who have no pool). -/
def engMap (e a : Nat) : Loc :=
  if a < 0x8000 then .mem (imemBase e + a)
  else if 0x10000 ≤ a ∧ a < 0x20000 then .mem (dmemBase e + (a - 0x10000))
  else if 0x1000000 ≤ a ∧ a < 0x1140000 ∧ e ≠ 192 then .mem (winBase (e / 8) + (a - 0x1000000))
  else if 0x10000000 ≤ a ∧ a < 0x11000000 then .mem a
  else if 0x20000000 ≤ a ∧ a < 0x23000000 then .mem a
  else if 0x40000000 ≤ a ∧ a < 0x42000000 then .reg a
  else .none

/-- The matrix decode (10 R394). -/
def mtxMap (a : Nat) : Loc :=
  if 0x10000000 ≤ a ∧ a < 0x11000000 then .mem a
  else if 0x20000000 ≤ a ∧ a < 0x23000000 then .mem a
  else if 0x30000000 ≤ a ∧ a < 0x31000000 then .annex a
  else if 0x40000000 ≤ a ∧ a < 0x42000000 then .reg a
  else if 0x80000000 ≤ a ∧ a < 0x100000000 then .pcie a
  else .none

/-- The map that a requester uses. -/
def Who.map (who : Who) (a : Nat) : Loc :=
  match who with
  | .eng e => engMap e a
  | .keeper => engMap 192 a
  | _ => mtxMap a

/-- The physical address that a requester's address leads to, if it leads to memory. -/
def Who.phys (who : Who) (a : Nat) : Option Nat := match who.map a with | .mem pa => some pa | _ => none

/-- A place in a patrol domain: domain, offset, bank, and index of the double within the bank
(09 R326, R341). -/
structure Place where
  dom : Nat
  off : Nat
  bank : Nat
  idx : Nat
  deriving DecidableEq, Repr

/-- The place of a physical address; keeper memory lies in no domain. -/
def place (pa : Nat) : Option Place :=
  if 0x10000000 ≤ pa ∧ pa < 0x11000000 then
    let o := pa - 0x10000000
    some { dom := 24, off := o, bank := o / 0x40000, idx := o % 0x40000 / 8 }
  else if 0x20000000 ≤ pa ∧ pa < 0x23000000 then
    let p := (pa - 0x20000000) / 0x200000
    let o := (pa - 0x20000000) % 0x200000
    if o < 0x140000 then some { dom := p, off := o, bank := o / 0x20000, idx := o % 0x20000 / 8 }
    else if o < 0x1C0000 then
      let l := (o - 0x140000) % 0x10000
      some { dom := p, off := o, bank := 16 + 4 * ((o - 0x140000) / 0x10000) + l / 8 % 4, idx := l / 32 }
    else
      some { dom := p, off := o, bank := 48 + (o - 0x1C0000) / 0x8000, idx := (o - 0x1C0000) % 0x8000 / 8 }
  else none

/-- Physical address of an offset of a domain (09 R326). -/
def domAddr (dom off : Nat) : Nat := if dom = 24 then 0x10000000 + off else winBase dom + off

/-- Whether a bank number names a bank of a domain (09 R326, R362). -/
def isBank (dom b : Nat) : Bool :=
  if dom = 24 then decide (b < 64) else decide (b < 10) || (decide (16 ≤ b) && decide (b < 56))

/-- The region of a bank (09 R326, *Engine data and instruction memory*). -/
def bankRegion (dom b : Nat) : Region :=
  if dom = 24 then { lo := 0x10000000 + 0x40000 * b, hi := 0x10000000 + 0x40000 * (b + 1) }
  else if b < 10 then { lo := winBase dom + 0x20000 * b, hi := winBase dom + 0x20000 * (b + 1) }
  else if b < 48 then
    { lo := winBase dom + 0x140000 + 0x10000 * ((b - 16) / 4)
      hi := winBase dom + 0x140000 + 0x10000 * ((b - 16) / 4 + 1), lane := (b - 16) % 4 }
  else
    { lo := winBase dom + 0x1C0000 + 0x8000 * (b - 48), hi := winBase dom + 0x1C0000 + 0x8000 * (b - 47) }

/-- The engine whose memory holds a physical address, if an engine's does. -/
def ownerEng (pa : Nat) : Option Nat :=
  if 0x20000000 ≤ pa ∧ pa < 0x23000000 then
    let p := (pa - 0x20000000) / 0x200000
    let o := (pa - 0x20000000) % 0x200000
    if o < 0x140000 then none
    else if o < 0x1C0000 then some (8 * p + (o - 0x140000) / 0x10000)
    else some (8 * p + (o - 0x1C0000) / 0x8000)
  else none

/-- Bank `b` of domain `dom`. -/
def Dev.bk (d : Dev) (dom b : Nat) : MBank := tget {} d.bank (64 * dom + b)

/-- Patrol of domain `dom`. -/
def Dev.pat (d : Dev) (dom : Nat) : Patrol := tget {} d.patrol dom

/-! ### Write locks -/

/-- Whether the 64-byte line of `pa` meets the bytes `lo` to `lo + len - 1` (05 R176). -/
def inLines (pa lo len : Nat) : Bool :=
  decide (lo / 64 ≤ pa / 64) && decide (pa / 64 * 64 < lo + len)

/-- The physical address of a local address of engine `e`, or 2^40 where memory has none. -/
def physOf (e a : Nat) : Nat := match engMap e a with | .mem pa => pa | _ => 2 ^ 40

/-- Whether a table covers the line of `pa`. -/
def tabCovers (e pa : Nat) (t : Option TabRef) : Bool :=
  match t with
  | some r => inLines pa (physOf e r.addr.toNat) r.len
  | none => false

/-- Whether a live ring table of engine `e` covers the line of `pa` (08 R324). -/
def ringCovers (e pa : Nat) (g : Tbl Word) : Bool :=
  let f (o : Nat) : Nat := (tget 0 g o).toNat
  (f 0x64 != 0 && inLines pa (physOf e (f 0x60)) (16 * f 0x64)) ||
  (f 0x6C != 0 && inLines pa (physOf e (f 0x68)) (8 * f 0x6C)) ||
  (f 0x70 != 0 && inLines pa (physOf e (f 0x70)) 64)

/-- Whether a plan covers the line of `pa` (10 R390). -/
def planCovers (pa : Nat) (p : Option Plan) : Bool :=
  match p with
  | some q => inLines pa q.addr q.len
  | none => false

/-- Whether the line of `pa` is write-locked: by a live or armed table, by a table that an operation
under way still uses, by a live ring table, by a plan, or by a fallback plan that FLT_FBADDRp names (05
R176, R177, R205; 08 R324; 10 R390; 16 R623). -/
def Dev.locked (d : Dev) (pa : Nat) : Bool :=
  d.eng.any (fun c =>
    c.2.slots.any (fun s => tabCovers c.1 pa s.2.live || tabCovers c.1 pa s.2.armed) ||
    ringCovers c.1 pa c.2.ringLive) ||
  d.thr.any (fun c => c.2.ops.any fun o =>
    match o.tbl with | some (lo, len) => inLines pa lo len | none => false) ||
  planCovers pa d.net.live || planCovers pa (d.net.armed.map (·.1)) ||
  d.vault.locks.any fun l => inLines pa l.1 l.2 &&
    d.regs.any fun c => decide (0x40070640 ≤ c.1) && decide (c.1 < 0x400706A0) && decide (c.2.toNat = l.1)

/-! ### Access rules -/

/-- Whether a running destructive patrol holds the place (09 R348). -/
def Dev.patrolHeld (d : Dev) (q : Place) : Bool :=
  let t := d.pat q.dom
  decide (t.st ≠ 0) && t.destr && decide (t.base ≤ q.off) && decide (q.off < t.base + 1024 * t.blocks)

/-- Whether a polder's closed dike stands between a requester and a place (10 R393, R400, 14 R544). The
matrix has a target port for a polder and none for an engine, so an engine's closure leaves its memories
readable: DEDUCED, notes/assumptions/29. -/
def Dev.dikeBetween (d : Dev) (who : Who) (pa : Nat) : Bool :=
  match place pa with
  | none => false
  | some q => decide (who.polder ≠ some q.dom) && decide (q.dom < 24) && tget false d.dike q.dom

/-- Whether a requester stands behind a closed dike that its access would cross (10 R400). -/
def Dev.diked (d : Dev) (who : Who) (pa : Nat) : Bool :=
  match who with
  | .eng e =>
    (decide ((place pa).map (·.dom) ≠ some (e / 8)) && tget false d.dike (e / 8)) ||
    (decide (ownerEng pa ≠ some e) && tget false d.dike (256 + e))
  | .cul c => decide (c < 24) && decide ((place pa).map (·.dom) ≠ some c) && tget false d.dike c
  | _ => false

/-- The error that an access to one memory byte meets before its ECC is looked at (04 R157, 05 R176,
09 R344, R348, 10 R400). -/
def Dev.accErr (d : Dev) (who : Who) (pa : Nat) (wr : Bool) : Option St :=
  match place pa with
  | none => if wr && decide (pa < 0x100004000) then some .busError else none
  | some q =>
    if d.dikeBetween who pa || d.diked who pa then some .dikeClosed
    else if (d.bk q.dom q.bank).st ≠ 2 then some .busError
    else if d.patrolHeld q then some .patrolBusy
    else if wr && d.locked pa then some .busError
    else none

/-! ### Counters and registers as words -/

/-- A register word, keyed by its address. -/
def Dev.rg (d : Dev) (a : Nat) : Word := tget 0 d.regs a

/-- A register word replaced. -/
def W.setRg (w : W) (a : Nat) (v : Word) : W := { w with regs := tset w.regs a v }

/-- A saturating counter register advanced (05 R208, 06 R248, 08 R319, 09 R365). -/
def W.bump (w : W) (a : Nat) (n : Nat := 1) : W := w.setRg a (satAdd (w.rg a) n)

/-- Base of domain `d`'s MEM registers (09 R359). -/
def memReg (dom : Nat) : Nat := 0x40060000 + 0x200 * dom

/-- Base of engine `e`'s memory counters (09 R365); the keepers have none. -/
def edmReg (e : Nat) : Nat := 0x4100B000 + 0x10000 * (e / 8) + 0x40 * (e % 8)

end Sys2Proof.Machine
end

