-- ==== Sys2Proof/Machine/Event.lean ====
section
/-! DEFINITION. The event router (12 R441 to R460): raising a record and delivering it. -/

namespace Sys2Proof.Machine

/-- A route target word at power-on reset (12 R447): the fault-manager range goes to the keepers. -/
def defRoute (src j : Nat) : Word :=
  if 0x5D0 ≤ src ∧ src ≤ 0x60F ∧ j = 0 then 0x800000FE else 0

/-- Live target word `j` of a source (12 R445). -/
def Dev.route (d : Dev) (src j : Nat) : Word := tget (defRoute src j) d.routes (4 * src + j)

/-- EVR_UNROUTED and EVR_DROPS (12 R459). -/
def evrUnrouted : Nat := 0x40020030
def evrDrops : Nat := 0x40020034

/-- The thread that a target word names: engine 0 to 191, or 0xFE for the keepers (12 R445). -/
def targetKey (t : Word) : Nat := tkey (if wf t 7 0 = 0xFE then 192 else wf t 7 0) (wf t 17 16)

/-- The MSI-X vectors that forward a source: PCIE_FWDv with EN = 1 (15 R588, R590). -/
def Dev.vectors (d : Dev) (src : Nat) : List Nat :=
  (d.regs.filter fun c =>
    decide (0x404C0100 ≤ c.1) && decide (c.1 < 0x404C0200) && wbit c.2 31 && decide (wf c.2 10 0 = src)).map
    fun c => (c.1 - 0x404C0100) / 4

/-- A dispatch entry as a record passes: an enabled entry whose RELSRC is the source keeps a copy
(13 R516). -/
def Disp.hear (x : Disp) (ev : EvRec) : Disp :=
  if wbit x.ctrl 31 && decide (wf x.ctrl 10 0 = ev.src) && decide (ev.src ≠ 0x7FF) then
    { x with box := x.box ++ [ev] }
  else x

/-- A source raises a record with its occurrence time: it takes the source's next number, and waits
in the router for each target enabled now, or is counted unrouted (12 R442, R446, R448). Dispatch entries and
the PCIe endpoint take copies whatever the routes are (13 R516, 15 R588). -/
def W.raise (w : W) (src payload time : Nat) : W :=
  let n := tget 0 w.evSeq src
  let ev : EvRec := { src := src, seq := n, payload := payload % 2 ^ 32, time := time }
  let w := { w with evSeq := tset w.evSeq src ((n + 1) % 65536), disp := w.disp.map fun (c : Nat × Disp) => (c.1, c.2.hear ev) }
  let tg := ((upTo 4).map fun j => (j, w.route src j)).filter fun c => wbit c.2 31
  let w := { w with pcie := { w.pcie with inbox := w.pcie.inbox ++ (w.vectors src).map fun v => (v, ev) } }
  if tg.isEmpty then w.bump evrUnrouted
  else { w with router := w.router ++ [{ ev := ev, tgts := tg }] }

/-- A record raised at the present tide time (12 R443, *All others*). -/
def W.raiseNow (w : W) (src payload : Nat) : W := w.raise src payload w.now

/-- A detector signals the fault controller, which acts at the end of the step (14 R537, R542). -/
def W.signal (w : W) (cause unit detail : Nat) : W := { w with sig := w.sig ++ [(cause, unit, detail)] }

/-- The key of a thread's lost count for a source (12 R450). -/
def lostKey (k src : Nat) : Nat := k * 2048 + src

/-- EVR_QSTAT of a thread: its DROPS field lies in bits 31:16 (12 R459, R460). -/
def qstatReg (k : Nat) : Nat := 0x40021000 + 4 * k

/-- A record discarded for one thread (12 R450). -/
def W.dropRec (w : W) (k : Nat) (r : EvRec) : W :=
  let l := min (tget 0 w.evLost (lostKey k r.src) + 1) 65536
  let q := (w.rg (qstatReg k)).toNat / 65536
  let w := { w with evLost := tset w.evLost (lostKey k r.src) l }
  let w := (w.setRg (qstatReg k) (w32 (min (q + 1) 0xFFFF * 65536))).bump evrDrops
  if q = 0 then
    w.raiseNow 0x5F2 (2 ^ 28 + (if k / 4 = 192 then 0xFE else k / 4) * 2 ^ 20 + k % 4 * 2 ^ 18)
  else w

/-- Whether records for a thread are discarded: it stands behind a closed dike (12 R450), or the
keepers resynchronise (14 R543). -/
def Dev.thrDiked (d : Dev) (k : Nat) : Bool :=
  if k < 768 then tget false d.dike (k / 4 / 8) || tget false d.dike (256 + k / 4) else d.flt.ksync

/-- The two double words of a record, as four words (12 R441). -/
def EvRec.words (r : EvRec) : List Word :=
  [w32 (r.src % 2048 + b01 r.lost * 2 ^ 11 + b01 r.many * 2 ^ 12 + b01 r.int * 2 ^ 13 + r.seq * 65536),
   w32 r.payload, w32 r.time, w32 (r.time / 2 ^ 32)]

/-! ### Trace -/

/-- DBG_TRCCTRL of polder `p` (17 R654). -/
def trcReg (p : Nat) : Nat := 0x404F0100 + 0x10 * p

/-- A trace record of polder `p`, kept while EN = 1 and MODE names its source; with WRAP = 0, EN clears
after record 1,023 (17 R652, R653). -/
def W.traceRec (w : W) (p mode kind e t : Nat) (a b : Nat) : W :=
  let c := w.rg (trcReg p)
  if wbit c 31 && decide (wf c 5 4 = mode) then
    let x := tget {} w.trace p
    let r := [w32 (kind * 2 ^ 28 + e % 8 * 2 ^ 24 + t % 4 * 2 ^ 22), w32 a, w32 b, w32 w.now]
    let w := { w with trace := tset w.trace p { x with ptr := (x.ptr + 1) % 2 ^ 32, recs := tset x.recs (x.ptr % 1024) r } }
    if !wbit c 30 && decide (x.ptr = 1023) then w.setRg (trcReg p) (wset c 31 31 0) else w
  else w

/-- A FLOW record of the thread of key `k`, if it is the traced thread (17 R653, R655). -/
def W.traceFlow (w : W) (k kind a b : Nat) : W :=
  let p := k / 32
  if k < 768 ∧ (tget {} w.trace p).eng = k / 4 ∧ wf (w.rg (trcReg p)) 3 2 = k % 4 then
    w.traceRec p 1 kind (k / 4) (k % 4) a b
  else w

/-- A record reaches one target: it enters the thread's queue with its flags, or is discarded there
when the queue is full or the thread is behind a closed dike (12 R446, R449, R450). -/
def W.deliverTo (w : W) (r : EvRec) (t : Word) : W :=
  let k := targetKey t
  let x := w.th k
  if 32 ≤ x.evq.length || w.thrDiked k then w.dropRec k r
  else
    let l := tget 0 w.evLost (lostKey k r.src)
    let r' := { r with int := wbit t 30, lost := decide (l > 0), many := decide (l = 65536) }
    let w := { w with evLost := tdel w.evLost (lostKey k r.src) }
    let w := w.setTh k { x with evq := x.evq ++ [r'] }
    if k < 768 then w.traceRec (k / 32) 2 4 (k / 4) (k % 4) ((r'.words.getD 0 0).toNat) r'.payload else w

/-- The first record of a source that the thread of key `k` still waits for, delivered there: whatever routes the
records were raised under, they reach the thread in SEQ order (12 R448, R449, R451). -/
def deliverFrom (src k : Nat) : List Pending → Option (EvRec × Word × List Pending)
  | [] => none
  | p :: r =>
    match (if p.ev.src = src then p.tgts.find? fun c => decide (targetKey c.2 = k) else none) with
    | some (j, t) =>
      let rest := tdel p.tgts j
      some (p.ev, t, if rest.isEmpty then r else { p with tgts := rest } :: r)
    | none => (deliverFrom src k r).map fun c => (c.1, c.2.1, p :: c.2.2)

/-! ### Memory events and ECC -/

/-- A memory event of a domain (09 R341). -/
def W.memEvent (w : W) (dom kind bank idx : Nat) : W :=
  w.raiseNow (0x610 + dom) (kind * 2 ^ 28 + bank % 64 * 2 ^ 22 + idx % 2 ^ 22)

/-- Bytes of an array word of a memory (09, *The patrol*). -/
def arrayWord (dom off : Nat) : Nat := if dom < 24 ∧ 0x140000 ≤ off then 8 else 32

/-- The borrowed block that holds an address: its domain, and the byte of the block (09 R349). -/
def Dev.borrowOf (d : Dev) (pa : Nat) : Option (Nat × Nat) :=
  match place pa with
  | none => none
  | some q =>
    let p := d.pat q.dom
    if p.phase ≠ 0 ∧ p.next ≤ q.off ∧ q.off < p.next + 1024 then some (q.dom, q.off - p.next) else none

/-- Where a borrowed block's copy serves an address: a word that is copied and not yet restored is served there (09
R349). -/
def Dev.copyOf (d : Dev) (pa : Nat) : Option (Nat × Nat) :=
  match d.borrowOf pa with
  | none => none
  | some (dom, o) =>
    let p := d.pat dom
    if o < p.buf.length ∧ ¬(p.phase = 3 ∧ o / arrayWord dom p.next < p.pos) then some (dom, o) else none

/-- The ECC mark of a double of the array: 0 clean, 1 single-bit error, 2 double-bit error. -/
def Dev.eccRaw (d : Dev) (pa : Nat) : Nat := tget 0 d.ecc (pa / 8)

/-- The ECC mark of a double of the array set. -/
def W.setEccRaw (w : W) (pa n : Nat) : W :=
  { w with ecc := if n = 0 then tdel w.ecc (pa / 8) else tset w.ecc (pa / 8) n }

/-- The ECC mark of the double that an access to `pa` meets: the copy's while it is borrowed (09 R336, R349). -/
def Dev.eccOf (d : Dev) (pa : Nat) : Nat :=
  match d.copyOf pa with
  | some (dom, o) => (d.pat dom).marks.getD (o / 8) 0
  | none => d.eccRaw pa

/-- A patrol replaced. -/
def W.setPat (w : W) (dom : Nat) (p : Patrol) : W := { w with patrol := tset w.patrol dom p }

/-- The ECC mark of the double that an access to `pa` meets set. -/
def W.setEcc (w : W) (pa n : Nat) : W :=
  match w.copyOf pa with
  | some (dom, o) => w.setPat dom { w.pat dom with marks := (w.pat dom).marks.set (o / 8) n }
  | none => w.setEccRaw pa n

/-- A counter of the engine whose memory holds `pa` advanced (09 R365). -/
def W.bumpEdm (w : W) (pa off : Nat) : W :=
  match ownerEng pa with
  | some e => w.bump (edmReg e + off)
  | none => w

/-- A read corrects a single-bit error: it counts, and every 1,024th correction of a domain sends
CORRECTED (09 R337). -/
def W.countCor (w : W) (pa : Nat) : W :=
  match place pa with
  | none => w
  | some q =>
    let n := tget 0 w.eccCnt q.dom + 1
    let w := ({ w with eccCnt := tset w.eccCnt q.dom n }.bump (memReg q.dom + 0x140)).bumpEdm pa 0x08
    if n % 1024 = 0 then w.memEvent q.dom 5 0 0 else w

/-- A read meets an uncorrectable double: it counts, MEM_ECCLAST holds its offset, UNCORRECTABLE is
sent, and the fault controller is told (09 R338; 14 R537, cause 5). -/
def W.countUnc (w : W) (pa : Nat) : W :=
  match place pa with
  | none => w
  | some q =>
    let w := (w.bump (memReg q.dom + 0x144)).bumpEdm pa 0x0C
    let w := (w.setRg (memReg q.dom + 0x148) (w32 (2 ^ 31 + q.off / 8 * 8))).memEvent q.dom 1 q.bank q.idx
    let pl := 2 ^ 28 + q.bank % 64 * 2 ^ 22 + q.idx % 2 ^ 22
    match ownerEng pa with
    | some e => w.signal 5 e pl
    | none => if q.dom < 24 then w.signal 5 (256 + q.dom) pl else w

/-! ### The borrow buffer -/

/-- The ECC of a double of the array as the copy phase reads it, and the mark that its copy carries (09 R337, R338, R349):
a single-bit error is corrected, an uncorrectable double stays so. -/
def W.patTouch (w : W) (pa : Nat) : W × Nat :=
  match w.eccRaw pa with
  | 0 => (w, 0)
  | 1 => ({ (w.countCor pa).setEccRaw pa 0 with wb := w.wb.filter fun x => x != pa / 8 }, 0)
  | _ => (w.countUnc pa, 2)

/-- The next `n` doubles of the borrowed block copied, in ascending order; after the last one the test begins (09 R349). -/
def W.copyDoubles (w : W) (dom : Nat) : Nat → W
  | 0 => w
  | n + 1 =>
    let p := w.pat dom
    if p.phase ≠ 1 then w
    else
      let pa := domAddr dom (p.next + p.buf.length)
      let (w, m) := w.patTouch pa
      let buf := p.buf ++ w.rdN pa 8
      let w := w.setPat dom { w.pat dom with
        buf := buf, marks := p.marks ++ [m], dirty := p.dirty ++ List.replicate 8 false
        phase := if buf.length = 1024 then 2 else 1 }
      w.copyDoubles dom n

/-- An access to a word that is not yet copied waits until it has been copied: the copy goes on up to that array word
(09 R349). -/
def W.reach (w : W) (pa : Nat) : W :=
  match w.borrowOf pa with
  | none => w
  | some (dom, o) =>
    let p := w.pat dom
    let k := arrayWord dom p.next
    if p.phase = 1 ∧ p.buf.length ≤ o then w.copyDoubles dom (((o / k + 1) * k - p.buf.length) / 8) else w

/-- An access that a borrow buffer serves counts in EDM_BORROW of the engine that issued it (09 R350). -/
def W.borrowed (w : W) (who : Who) (pa : Nat) : W :=
  match who, w.copyOf pa with
  | .eng e, some _ => w.bump (edmReg e + 0x10)
  | _, _ => w

/-- Bytes inside one double as the copy or the array holds them. -/
def W.rdStored (w : W) (pa n : Nat) : List Byte :=
  match w.copyOf pa with
  | some (dom, o) => ((w.pat dom).buf.drop o).take n
  | none => w.rdN pa n

/-- A list with `new` in place of its elements from position `o` on. -/
def putAt {α : Type} (l : List α) (o : Nat) (new : List α) : List α := l.take o ++ new ++ l.drop (o + new.length)

/-- Bytes inside one double written to the copy, whose dirty mask they set, or to the array (09 R349, R350). -/
def W.wrStored (w : W) (pa : Nat) (bs : List Byte) : W :=
  match w.copyOf pa with
  | some (dom, o) =>
    let p := w.pat dom
    w.setPat dom { p with buf := putAt p.buf o bs, dirty := putAt p.dirty o (bs.map fun _ => true) }
  | none => w.wrN pa bs

/-- The ECC of one double as a read touches it (09 R337, R338). -/
def W.eccTouch (w : W) (pa : Nat) : W × Option St :=
  match w.eccOf pa with
  | 0 => (w, none)
  | 1 =>
    let w := w.countCor pa
    ({ w with wb := if w.wb.contains (pa / 8) then w.wb else w.wb ++ [pa / 8] }, none)
  | _ => (w.countUnc pa, some .eccUncorrectable)

/-- The pieces of a byte range, each inside one double. -/
def pieces : Nat → Nat → Nat → List (Nat × Nat)
  | 0, _, _ => []
  | _, _, 0 => []
  | fuel + 1, a, n =>
    let k := min n (8 - a % 8)
    (a, k) :: pieces fuel (a + k) (n - k)

/-- A read of a piece inside one double (04 R157, 09 R336 to R338, R344, R348 to R350). -/
def W.rdPiece (w : W) (who : Who) (pa n : Nat) : W × Except St (List Byte) :=
  match w.accErr who pa false with
  | some e => (w, .error e)
  | none =>
    match ((w.reach pa).borrowed who pa).eccTouch pa with
    | (w, some e) => (w, .error e)
    | (w, none) =>
      if pa < 0x100000000 ∨ 0x100004000 ≤ pa then (w, .ok (w.rdStored pa n))
      else (w, .ok ((upTo n).map fun i => Config.romByte (pa - 0x100000000 + i)))

/-- A write of a piece inside one double (09 R331, R339, R344, R349, R350; 05 R176). -/
def W.wrPiece (w : W) (who : Who) (pa : Nat) (bs : List Byte) : W × Option St :=
  match w.accErr who pa true with
  | some e => (w, some e)
  | none =>
    let w := (w.reach pa).borrowed who pa
    let full := decide (bs.length = 8)
    match w.eccOf pa with
    | 0 => (w.wrStored pa bs, none)
    | 1 =>
      let w := if full then w else w.countCor pa
      (({ w with wb := w.wb.filter fun x => x != pa / 8 }.setEcc pa 0).wrStored pa bs, none)
    | _ => if full then ((w.setEcc pa 0).wrStored pa bs, none) else (w, some .eccUncorrectable)

/-- The doubles that the access of a failing double touches after it: those of its pool or reservoir word, and none in an
engine's memory, where an access is one double (09 R330, R334 to R336). -/
def laterDoubles (a : Nat) (r : List (Nat × Nat)) : List (Nat × Nat) :=
  if (ownerEng a).isSome then [] else r.takeWhile fun p => decide (p.1 / 32 = a / 32)

/-- Pieces read in ascending order until one fails: the bytes read before it, and its error and
address. The access that fails checks every double that it touches (09 R336). -/
def W.rdPieces (w : W) (who : Who) : List (Nat × Nat) → W × List Byte × Option (St × Nat)
  | [] => (w, [], none)
  | (a, n) :: r =>
    match w.rdPiece who a n with
    | (w, .error e) => ((laterDoubles a r).foldl (fun w p => (w.rdPiece who p.1 p.2).1) w, [], some (e, a))
    | (w, .ok bs) =>
      let (w, rest, e) := w.rdPieces who r
      (w, bs ++ rest, e)

/-- A read of `n` bytes of memory, whole or failed. -/
def W.rdMem (w : W) (who : Who) (pa n : Nat) : W × Except St (List Byte) :=
  match w.rdPieces who (pieces (n + 1) pa n) with
  | (w, bs, none) => (w, .ok bs)
  | (w, _, some (e, _)) => (w, .error e)

/-- Bytes written piece by piece in ascending order until one fails: how many landed, and the
error. -/
def W.wrPieces (w : W) (who : Who) : List (Nat × Nat) → List Byte → W × Nat × Option (St × Nat)
  | [], _ => (w, 0, none)
  | (a, n) :: r, bs =>
    match w.wrPiece who a (bs.take n) with
    | (w, some e) => (w, 0, some (e, a))
    | (w, none) =>
      let (w, k, e) := w.wrPieces who r (bs.drop n)
      (w, n + k, e)

/-- A write of bytes to memory, piece by piece. -/
def W.wrMem (w : W) (who : Who) (pa : Nat) (bs : List Byte) : W × Option St :=
  match w.wrPieces who (pieces (bs.length + 1) pa bs.length) bs with
  | (w, _, none) => (w, none)
  | (w, _, some (e, _)) => (w, some e)

end Sys2Proof.Machine
end

