-- ==== Sys2Proof/Machine/Commit.lean ====
section
/-! DEFINITION. The commit pattern (00 R15 to R21, R680, R681): staging registers, acceptance,
completion, RESULT and DETAIL; and reads of memory on a block's behalf. -/

namespace Sys2Proof.Machine

/-- Base of the table registers of engine `e` (05 R208). -/
def tblReg (e : Nat) : Nat := 0x41008000 + 0x10000 * (e / 8) + 0x100 * (e % 8)

/-- Base of the sentinel and pipeline registers of engine `e` (06 R248). -/
def sntReg (e : Nat) : Nat := 0x41009000 + 0x10000 * (e / 8) + 0x100 * (e % 8)

/-- Base of the ring registers of engine `e` (08 R319). -/
def rngReg (e : Nat) : Nat := 0x4100A000 + 0x10000 * (e / 8) + 0x200 * (e % 8)

/-- Base of channel `n` of culvert `c` (11 R437). -/
def culReg (c n : Nat) : Nat := 0x40100000 + 0x10000 * c + 0x100 * n

/-- Base of T-pin `n` (12 R486). -/
def tioReg (n : Nat) : Nat := 0x40300000 + 0x40 * n

/-- Base of drive link `n` (12 R498). -/
def dlkReg (n : Nat) : Nat := 0x40310000 + 0x400 * n

/-- Base of polder `p`'s PLD block (01 R25). -/
def pldReg (p : Nat) : Nat := 0x41000000 + 0x10000 * p

/-- Base of Ethernet port `n` (01 R25). -/
def ethReg (n : Nat) : Nat := 0x40400000 + 0x10000 * n

/-- Base of camera input `n` (01 R25). -/
def csiReg (n : Nat) : Nat := 0x40480000 + 0x10000 * n

/-- Base of the VLT registers (16 R625). -/
def vltReg : Nat := 0x404E0000

/-- Base of the DBG registers (17 R654). -/
def dbgReg : Nat := 0x404F0000

/-- The address of a block's COMMIT register, by its chapter's register table. -/
def blkCommit : Blk → Nat
  | .tbl e => tblReg e + 0x18
  | .rng e => rngReg e + 0x74
  | .pat d => memReg d + 0x0C
  | .memCfg d => memReg d + 0xC0
  | .slot => 0x40040010
  | .mtx => 0x400500D0
  | .cul c n => culReg c n + 0x48
  | .evr => 0x4002000C
  | .tide => 0x40030018
  | .tio n => tioReg n + 0x0C
  | .dlk n => dlkReg n + 0x30
  | .weir => 0x4001000C
  | .flt => 0x40070020
  | .eth n => ethReg n + 0x10
  | .str => 0x40400108
  | .csi n => csiReg n + 0x04
  | .vlt => vltReg + 0x20
  | .start => 0x40000120
  | .bist => 0x40000144
  | .otp => dbgReg + 0x18
  | .thr => dbgReg + 0x44

/-- The address ranges of the staging registers that a block's commit copies, by its chapter's register
table (00 R16). -/
def blkRanges : Blk → List (Nat × Nat)
  | .tbl e => [(tblReg e, tblReg e + 0x18)]
  | .rng e => [(rngReg e, rngReg e + 0x74)]
  | .pat d => [(memReg d, memReg d + 0x0C)]
  | .memCfg d => [(memReg d + 0x40, memReg d + 0xC0)]
  | .slot => [(0x40040000, 0x40040010)]
  | .mtx => [(0x40050000, 0x40050020), (0x40050040, 0x400500CC)]
  | .cul c n => [(culReg c n, culReg c n + 0x48)]
  | .evr => [(0x40020000, 0x4002000C)]
  | .tide => [(0x40030008, 0x40030018), (0x40030100, 0x40030300)]
  | .tio n => [(tioReg n, tioReg n + 0x0C)]
  | .dlk n => [(dlkReg n, dlkReg n + 0x30)]
  | .weir => (0x40010000, 0x4001000C) :: (upTo 24).map fun p => (pldReg p, pldReg p + 0x10)
  | .flt => [(0x40070000, 0x40070020), (0x40070040, 0x400700A0)]
  | .eth n => [(ethReg n, ethReg n + 0x10)]
  | .str => [(0x40400100, 0x40400108)]
  | .csi n => csiReg n |> fun b => (b, b + 4) :: (upTo 4).map fun v => (b + 0x100 + 0x20 * v, b + 0x110 + 0x20 * v)
  | .vlt => [(vltReg, vltReg + 0x20), (vltReg + 0x30, vltReg + 0x80)]
  | .start => [(0x40000100, 0x40000120)]
  | .bist => [(0x40000140, 0x40000144)]
  | .otp => [(dbgReg + 0x10, dbgReg + 0x18)]
  | .thr => [(dbgReg + 0x40, dbgReg + 0x44)]

/-- Whether a block's commit copies the register at an address. -/
def blkHas (b : Blk) (a : Nat) : Bool := (blkRanges b).any fun r => decide (r.1 ≤ a) && decide (a < r.2)

/-- Reset values of the Weir's staging and live words (13 R531 to R533), of part grade I; grade E differs
in WEIR_THERM (Dev.regReset). -/
def weirReset (a : Nat) : Word :=
  match a % 0x100 with
  | 0x00 => 19000
  | 0x08 => w32 (420 * 65536 + 380)
  | _ => 0

/-- Reset values of a polder's Weir staging and live words (13 R532, R533). -/
def polReset (o : Nat) : Word :=
  match o % 16 with
  | 0 => 790
  | 4 => 0x500
  | 8 => 256
  | _ => 0

/-- The value that a register word shows where nothing was written yet: the reset value that the spec
gives, else 0 (notes/assumptions/4). Staging copies and live words of 09 R362, 10 R407, 12 R499, 13
R531 to R533, 14 R566, 06 R250, 15 R590, 10 R407. -/
def stgReset (a : Nat) : Word :=
  if 0x40060000 ≤ a ∧ a < 0x40063200 then
    let d := (a - 0x40060000) / 0x200
    let o := (a - 0x40060000) % 0x200
    if 0x40 ≤ o ∧ o < 0x80 then
      w32 (joinN 8 ((upTo 4).map fun j => if isBank d (4 * ((o - 0x40) / 4) + j) then 2 else 0))
    else 0
  else if 0x40050000 ≤ a ∧ a < 0x40050020 then
    if a = 0x4005001C then 0x00000011 else 0x11111111
  else if 0x40050100 ≤ a ∧ a < 0x40050120 then
    if a = 0x4005011C then 0x00000011 else 0x11111111
  else if 0x40310000 ≤ a ∧ a < 0x4031C000 ∧ (a - 0x40310000) % 0x400 = 0 then 0xFFFF0000
  else if (0x40010000 ≤ a ∧ a < 0x4001000C) ∨ (0x40010100 ≤ a ∧ a < 0x4001010C) then weirReset a
  else if a = 0x40070018 ∨ a = 0x40070618 then 0x00002045
  else if 0x41000000 ≤ a ∧ a < 0x41180000 then
    let o := (a - 0x41000000) % 0x10000
    if o < 0x20 then polReset o
    else if 0x9000 ≤ o ∧ o < 0x9800 ∧ o % 0x100 = 8 then 0x0F800000
    else 0
  else if a = 0x404C0000 then 2
  else if a = 0x404E003C then w32 (300 * 65536 + 30)
  else if a = 0x404E0040 then w32 (100 * 65536 + 500)
  else if a = 0x404E0044 then w32 (168 * 65536 + 90 * 256 + 20)
  else if a = 0x404E0048 then 200
  else if 0x404C8000 ≤ a ∧ a < 0x404C8400 ∧ a % 16 = 12 then 1
  else 0

/-- The reset value of a register word on this part: WEIR_THERM depends on its grade (13 R531). -/
def Dev.regReset (d : Dev) (a : Nat) : Word :=
  if d.part.gradeE ∧ (a = 0x40010008 ∨ a = 0x40010108) then w32 (500 * 65536 + 460)
  else stgReset a

/-- A staged word of a block as software last wrote it (00 R18). -/
def Dev.stg (d : Dev) (a : Nat) : Word := tget (d.regReset a) d.regs a

/-- The commit record of a block. -/
def Dev.cm (d : Dev) (b : Blk) : Com := tget {} d.com (blkCommit b)

/-- The commit record of a block replaced. -/
def W.setCm (w : W) (b : Blk) (c : Com) : W := { w with com := tset w.com (blkCommit b) c }

/-- A write to COMMIT (00 R16, R17, R19): with bit 0 = 1 and BUSY = 0 it is accepted, SEQ advances
and the staging registers are copied. -/
def W.accept (w : W) (b : Blk) (v : Word) : W :=
  let c := w.cm b
  if wbit v 0 && !c.busy then
    let t := w.regs.filter fun r => blkHas b r.1
    w.setCm b { c with
      busy := true, seq := (c.seq + 1) % 256, acc := w.now
      snap := if b = .weir then tset t 0x40010008 (w.stg 0x40010008) else t }
  else w

/-- A word of the staging copy that a commit took, by address (00 R16). -/
def Com.get (c : Com) (a : Nat) : Word := tget (stgReset a) c.snap a

/-- How a commit ends: its status, and CHECK and INDEX of DETAIL (00 R19, R680; 05 R200, R211). -/
structure Fin3 where
  st : St := .ok
  check : Nat := 0
  index : Nat := 0
  deriving DecidableEq, Repr

/-- A commit ends: BUSY clears and the outcome is recorded (00 R19, R680). -/
def W.finish (w : W) (b : Blk) (f : Fin3) : W :=
  w.setCm b { w.cm b with busy := false, status := f.st.code, check := f.check, index := f.index }

/-- A commit's work: its effect, or the failure of a check, which leaves every live value as it was
(00 R20). -/
def W.complete (w : W) (b : Blk) (f : W → Com → Except Fin3 (W × Nat)) : W :=
  let c := w.cm b
  if c.busy then
    match f w c with
    | .ok (w', i) => w'.finish b { index := i }
    | .error e => w.finish b e
  else w

/-- A check of a commit: passes, or fails with a status, a number and an index. -/
def chk (bad : Bool) (st : St) (n : Nat) (i : Nat := 0xFFFF) : Except Fin3 Unit :=
  if bad then .error { st := st, check := n, index := i } else .ok ()

/-- RESULT of a block (00 R19). -/
def Com.result (c : Com) : Word := w32 (b01 c.busy * 2 ^ 31 + c.seq % 256 * 2 ^ 16 + c.status % 2 ^ 16)

/-- DETAIL of a block (05 R211). -/
def Com.detail (c : Com) : Word := w32 (c.check % 32 * 2 ^ 27 + c.index % 2 ^ 16)

/-! ### Reads by the device -/

/-- The bytes at a location for a requester; only memory is read here. -/
def W.rdAt (w : W) (who : Who) (a n : Nat) : W × Except St (List Byte) :=
  match who.map a with
  | .mem pa => w.rdMem who pa n
  | _ => (w, .error .busError)

/-- Bytes written at a location for a requester; only memory is written here. -/
def W.wrAt (w : W) (who : Who) (a : Nat) (bs : List Byte) : W × Option St :=
  match who.map a with
  | .mem pa => w.wrMem who pa bs
  | _ => (w, some .busError)

/-- The error and its address that reading `n` bytes meets, without its effects. -/
def W.rdErr (w : W) (who : Who) (a n : Nat) : Option St :=
  match (w.rdAt who a n).2 with
  | .error e => some e
  | .ok _ => none

/-- Byte `o` of a block of bytes. -/
def byAt (bs : List Byte) (o : Nat) : Nat := ((bs.drop o).headD 0).toNat

/-- Half at offset `o`. -/
def hfAt (bs : List Byte) (o : Nat) : Nat := leNat ((bs.drop o).take 2)

/-- Word at offset `o`. -/
def wdAt (bs : List Byte) (o : Nat) : Nat := leNat ((bs.drop o).take 4)

/-- Whether bytes `lo` to `hi - 1` are all zero. -/
def zeroAt (bs : List Byte) (lo hi : Nat) : Bool := ((bs.drop lo).take (hi - lo)).all (· == 0)

end Sys2Proof.Machine
end

