-- ==== Sys2Proof/Machine/Tables.lean ====
section
/-! DEFINITION. Curve, sequence and format tables (file 05): the checks of R200, installing, holding,
releasing and swapping, and what CRV and SEQ compute from them. -/

namespace Sys2Proof.Machine

/-- A check made for each index in order: the first failing index fails it (05 R200). -/
def chkEach (l : List Nat) (bad : Nat → Bool) (st : St) (n : Nat) (off : Nat := 0) : Except Fin3 Unit :=
  match l.find? bad with
  | some i => .error { st := st, check := n, index := off + i }
  | none => .ok ()

/-- Key of a slot: curve slots from 0, sequence slots from 16, format slots from 32 (05 R173). -/
def slotKey (k : TKind) (s : Nat) : Nat :=
  match k with
  | .curve => s
  | .seq => 16 + s
  | .fmt => 32 + s

/-- The kind that a KIND field names (05 R210). -/
def kindOf (n : Nat) : Option TKind :=
  match n with
  | 0 => some .curve
  | 1 => some .seq
  | 2 => some .fmt
  | _ => none

/-- A slot of an engine. -/
def Engine.slot (e : Engine) (k : Nat) : Slot := tget {} e.slots k

/-- Whether an armed table is pending at time `now`: not held, or past its release time (05 R203). -/
def Slot.pending (s : Slot) (now : Nat) : Bool :=
  s.armed.isSome && (!s.held || (match s.rel with | some t => decide (t ≤ now) | none => false))

/-- Segment-index entries in use: NSEG of each live and armed curve table, for each slot (05 R190). -/
def Engine.idxUse (e : Engine) : Nat :=
  let f (t : Option TabRef) : Nat :=
    match t with
    | some r => if r.kind = .curve then r.n1 else 0
    | none => 0
  (e.slots.map fun s => f s.2.live + f s.2.armed).foldl (· + ·) 0

/-! ### Curve tables -/

/-- A segment: XS and C0 to C5 (05 R181). -/
structure Seg where
  xs : Nat
  c : List Int
  deriving DecidableEq, Repr

/-- Segment record `s` of a table's bytes (05 R181). -/
def segAt (bs : List Byte) (s : Nat) : Seg :=
  let o := 0x40 + 32 * s
  { xs := wdAt bs o, c := (upTo 6).map fun k => sgn 32 (wdAt bs (o + 4 + 4 * k)) }

/-- Coefficient `k`. -/
def Seg.co (g : Seg) (k : Nat) : Int := g.c.getD k 0

/-- Width of segment `s` of `n` (05, after R181). -/
def segWidth (bs : List Byte) (n span s : Nat) : Nat :=
  (if s + 1 < n then (segAt bs (s + 1)).xs else span) - (segAt bs s).xs

/-- Sum over k of f k times coefficient k. -/
def Seg.sum (g : Seg) (f : Nat → Int) : Int := ((upTo 6).map fun k => f k * g.co k).foldl (· + ·) 0

/-- The joins of a table: from each segment to the next, and from the last to the first with WRAP
(05 R201). The last component is ADVANCE where it counts. -/
def joins (n : Nat) (wrap : Bool) (adv : Int) : List (Nat × Nat × Int) :=
  (upTo (n - 1)).map (fun s => (s, s + 1, 0)) ++ (if wrap then [(n - 1, 0, adv)] else [])

/-- Whether the position difference of a join exceeds TOLP (05 R201). -/
def badP (bs : List Byte) (tol : Nat) (j : Nat × Nat × Int) : Bool :=
  decide (((segAt bs j.1).sum (fun _ => 1) - ((segAt bs j.2.1).co 0 + j.2.2)).natAbs > tol)

/-- Whether the velocity difference of a join exceeds TOLV, compared exactly (05 R201). -/
def badV (bs : List Byte) (n span tol : Nat) (j : Nat × Nat × Int) : Bool :=
  let ws := segWidth bs n span j.1
  let wt := segWidth bs n span j.2.1
  let s1 := (segAt bs j.1).sum (fun k => k)
  decide ((2 ^ 16 * (s1 * wt - (segAt bs j.2.1).co 1 * ws)).natAbs > tol * ws * wt)

/-- Whether the acceleration difference of a join exceeds TOLA, compared exactly (05 R201). -/
def badA (bs : List Byte) (n span tol : Nat) (j : Nat × Nat × Int) : Bool :=
  let ws := segWidth bs n span j.1
  let wt := segWidth bs n span j.2.1
  let s2 := (segAt bs j.1).sum (fun k => (k : Int) * ((k : Int) - 1))
  decide ((2 ^ 32 * (s2 * (wt * wt) - 2 * (segAt bs j.2.1).co 2 * (ws * ws))).natAbs >
    tol * (ws * ws) * (wt * wt))

/-- A check of every join, in order. -/
def chkJoins (js : List (Nat × Nat × Int)) (bad : Nat × Nat × Int → Bool) (n : Nat) : Except Fin3 Unit :=
  match js.find? bad with
  | some j => .error { st := .tableContinuity, check := n, index := j.1 }
  | none => .ok ()

/-- Checks 10 to 16 of a curve table (05 R200); `room` is the free part of the segment index. -/
def curveChecks (bs : List Byte) (n span room : Nat) : Except Fin3 Unit := do
  let fl := hfAt bs 2
  chk (decide (fl / 8 ≠ 0) || !zeroAt bs 0x24 0x40) .badValue 10
  chkEach (upTo n) (fun s => wdAt bs (0x40 + 32 * s + 0x1C) != 0) .badValue 10
  chk (decide ((segAt bs 0).xs ≠ 0)) .tableOrder 11 0
  chkEach (upTo n) (fun s =>
    decide ((segAt bs s).xs ≥ (if s + 1 < n then (segAt bs (s + 1)).xs else span))) .tableOrder 12
  chk (decide (n > room)) .badValue 13
  let js := joins n (fl.testBit 2) (sgn 32 (wdAt bs 0x14))
  let cont := fl % 4
  if cont ≥ 1 then chkJoins js (badP bs (wdAt bs 0x18)) 14
  if cont ≥ 2 then chkJoins js (badV bs n span (wdAt bs 0x1C)) 15
  if cont = 3 then chkJoins js (badA bs n span (wdAt bs 0x20)) 16

/-! ### Sequence tables -/

/-- Entry `i` of a sequence table: low word and ACTION (05 R191, R192). -/
def seqEntry (bs : List Byte) (i : Nat) : Nat × Nat := (wdAt bs (0x20 + 8 * i), wdAt bs (0x24 + 8 * i))

/-- Checks 10, 17 and 18 of a sequence table (05 R200). -/
def seqChecks (bs : List Byte) (ns nc : Nat) : Except Fin3 Unit := do
  chk (decide (hfAt bs 2 ≠ 0) || !zeroAt bs 0x12 0x20) .badValue 10
  chkEach (upTo (ns * nc)) (fun i =>
    let e := seqEntry bs i
    if e.1.testBit 31 then decide (fld e.1 30 12 ≠ 0) else e.1 != 0 || e.2 != 0) .badValue 10
  chk (decide (hfAt bs 0x10 ≥ ns)) .tableOrder 17
  chkEach (upTo (ns * nc)) (fun i =>
    let e := seqEntry bs i
    e.1.testBit 31 && decide (e.1 % 256 ≥ ns)) .tableOrder 18

/-! ### Format tables -/

/-- Element `n` of a format table (05 R197). -/
def elemAt (bs : List Byte) (n : Nat) : Elem :=
  let w0 := wdAt bs (0x20 + 8 * n)
  { opk := fld w0 31 24, pos := fld w0 23 12, len := fld w0 11 0, arg := w32 (wdAt bs (0x24 + 8 * n)) }

/-- Whether the bits of ARG outside the named fields are zero. -/
def argOnly (a : Word) (fs : List (Nat × Nat)) : Bool :=
  decide (fs.foldl (fun acc f => acc + wf a f.1 f.2 * 2 ^ f.2) 0 = a.toNat)

/-- Check 19: the kind is allowed for the class, LEN is in range, and ARG holds only its fields, each
in range (05 R197, R200; 16 R603). -/
def elemOk (cls : Nat) (e : Elem) : Bool :=
  let l := e.len
  match cls, e.opk with
  | 0, 0x01 => decide (1 ≤ l ∧ l ≤ 32) && argOnly e.arg [(l - 1, 0)]
  | 0, 0x02 => decide (1 ≤ l ∧ l ≤ 32) && argOnly e.arg [(7, 0), (20, 16)]
  | 0, 0x03 => decide (l = 16) && argOnly e.arg [(11, 0)]
  | 1, 0x04 => decide (1 ≤ l ∧ l ≤ 32) && argOnly e.arg [(7, 0), (20, 16)]
  | 1, 0x05 => decide (l = 16) && argOnly e.arg [(11, 0)]
  | 1, 0x06 => decide (1 ≤ l ∧ l ≤ 32) && argOnly e.arg [(l - 1, 0)]
  | 2, 0x10 => decide (1 ≤ l ∧ l ≤ 4) && argOnly e.arg [(8 * l - 1, 0)]
  | 2, 0x11 => decide (1 ≤ l ∧ l ≤ 8) && argOnly e.arg [(7, 0), (12, 8), (16, 16), (31, 24)]
  | 3, 0x20 => decide (l = 1) && argOnly e.arg [(7, 0)]
  | 3, 0x21 =>
    decide (1 ≤ l ∧ l ≤ 6) && decide (wf e.arg 1 0 ≠ 3) &&
      (if wf e.arg 1 0 = 2 then decide (l = 1) && argOnly e.arg [(1, 0), (15, 8)]
       else argOnly e.arg [(1, 0)])
  | 3, 0x22 => decide (l = 1) && decide (1 ≤ e.arg.toNat ∧ e.arg.toNat ≤ 1000000)
  | 3, 0x23 =>
    decide (l ≤ 4) && (if l = 0 then e.arg == 0 else if l = 4 then true else argOnly e.arg [(8 * l - 1, 0)])
  | 3, 0x24 => decide (l ≤ 1) && (if l = 0 then e.arg == 0 else argOnly e.arg [(15, 0)])
  | 3, 0x25 => decide (l = 0) && decide (1 ≤ e.arg.toNat ∧ e.arg.toNat ≤ 1000000)
  | _, _ => false

/-- Check 21 for one element: word index, bit, digit and CRC ranges (05 R197, R200). -/
def elemRange (cls srclen : Nat) (e : Elem) : Bool :=
  match cls, e.opk with
  | 0, 0x02 | 1, 0x04 => decide (wf e.arg 7 0 < srclen) && decide (wf e.arg 20 16 + e.len ≤ 32)
  | 0, 0x03 | 1, 0x05 => decide (wf e.arg 11 0 < e.pos)
  | 2, 0x11 => decide (wf e.arg 7 0 < srclen) && decide (wf e.arg 12 8 + e.len ≤ 8)
  | _, _ => true

/-- Checks 10 and 19 to 21 of a format table (05 R200). -/
def fmtChecks (bs : List Byte) (nel : Nat) : Except Fin3 Fmt := do
  let cls := hfAt bs 2 % 4
  let outlen := hfAt bs 0x10
  let srclen := hfAt bs 0x12
  let el := elemAt bs
  chk (decide (hfAt bs 2 / 4 ≠ 0) || !zeroAt bs 0x14 0x20) .badValue 10
  chkEach (upTo nel) (fun i => !elemOk cls (el i)) .badValue 19
  chkEach (upTo nel) (fun i =>
    if cls = 3 then decide ((el i).pos ≠ 0)
    else decide ((el i).pos + (el i).len > outlen) ||
      (decide (0 < i) && decide ((el i).pos < (el (i - 1)).pos + (el (i - 1)).len))) .tableOrder 20
  chkEach (upTo nel) (fun i => !elemRange cls srclen (el i)) .tableOrder 21
  pure { cls := cls, outlen := outlen, srclen := srclen, els := (upTo nel).map el }

/-- Check 9 of a format header: NEL, OUTLEN, SRCLEN and LENGTH (05 R196, R200). -/
def fmtHeadBad (bs : List Byte) : Bool :=
  let cls := hfAt bs 2 % 4
  let nel := wdAt bs 4
  let ol := hfAt bs 0x10
  !(decide (1 ≤ nel ∧ nel ≤ 512) && decide (wdAt bs 8 = 32 + 8 * nel) && decide (hfAt bs 0x12 ≤ 256) &&
    (match cls with
     | 0 | 1 => decide (1 ≤ ol ∧ ol ≤ 4096)
     | 2 => decide (1 ≤ ol ∧ ol ≤ 255)
     | _ => decide (ol = 0)))

/-- The end of the memory that holds a physical address: the reservoir, a pool, or one engine's data or instruction
memory (09 R326). -/
def memEnd (a : Nat) : Nat :=
  match place a with
  | none => 0
  | some q =>
    if q.dom = 24 then 0x11000000
    else if q.off < 0x140000 then winBase q.dom + 0x140000
    else if q.off < 0x1C0000 then winBase q.dom + 0x140000 + roundUp (q.off + 1 - 0x140000) 0x10000
    else winBase q.dom + 0x1C0000 + roundUp (q.off + 1 - 0x1C0000) 0x8000

/-- A format table of at most `most` elements, and of class `cls` where one is asked for, read whole from memory by
a block and checked under R200 (05 R199; 16 R604): the table, or the failing check. No engine owns such a table, so
of checks 6 and 9 the alignment and the one memory remain. A class that the block does not take fails check 9:
DEDUCED, notes/assumptions/56. -/
def W.readFmt (w : W) (who : Who) (a : Nat) (most : Nat := 512) (cls : Option Nat := none) : W × Except Fin3 Fmt :=
  let fail (w : W) (st : St) (n : Nat) : W × Except Fin3 Fmt := (w, .error { st := st, check := n, index := 0xFFFF })
  if a % 64 ≠ 0 then fail w .badValue 6
  else
  match w.rdAt who a 32 with
  | (w, .error e) => fail w e 7
  | (w, .ok h) =>
    if byAt h 0 ≠ 0x46 ∨ byAt h 1 ≠ 1 then fail w .badValue 8
    else if fmtHeadBad h || decide (most < wdAt h 4) || cls.any (· != hfAt h 2 % 4) || decide (memEnd a < a + wdAt h 8) then
      fail w .badValue 9
    else
      match w.rdAt who a (wdAt h 8) with
      | (w, .error e) => fail w e 7
      | (w, .ok bs) => (w, fmtChecks bs (wdAt bs 4))

/-- The characters of a DIGITS element, `n` digits of which are left; `zero` says that every earlier digit was 0
(05 R198). -/
def digitChars (v : Word) (k0 : Nat) (zs : Bool) (pad : Byte) : Nat → Bool → List Byte
  | 0, _ => []
  | n + 1, zero =>
    let d := wf v (4 * (k0 + n) + 3) (4 * (k0 + n))
    (if zs && decide (d = 0) && zero && decide (0 < n) then pad else BitVec.ofNat 8 (0x30 + d)) ::
      digitChars v k0 zs pad n (zero && decide (d = 0))

/-- The print string of a class 2 table and its source words (05 R198). The engine does not render print strings: the
rule fixes what every renderer produces from a table that the device has checked. -/
def Fmt.printString (t : Fmt) (src : List Word) : List Byte :=
  t.els.foldl (fun (cs : List Byte) e =>
    let out := match e.opk with
      | 0x10 => leBytes e.len e.arg.toNat
      | _ => digitChars (src.getD (wf e.arg 7 0) 0) (wf e.arg 12 8) (wbit e.arg 16) (BitVec.ofNat 8 (wf e.arg 31 24)) e.len true
    cs.take e.pos ++ out ++ cs.drop (e.pos + out.length)) (List.replicate t.outlen 0x20)

/-! ### Installing -/

/-- Whether `a` to `a + n - 1` lies wholly in data memory or wholly in the pool (05 R174). -/
def tabPlace (a n : Nat) : Bool :=
  (decide (0x10000 ≤ a) && decide (a + n ≤ 0x20000)) ||
  (decide (0x1000000 ≤ a) && decide (a + n ≤ 0x1140000))

/-- Check 9: counts, spans, LENGTH and place of a table (05 R200). -/
def tabHeadBad (k : TKind) (a : Nat) (h : List Byte) : Bool :=
  !tabPlace a (wdAt h 8) ||
  (match k with
   | .curve =>
     !(decide (1 ≤ wdAt h 4 ∧ wdAt h 4 ≤ 4096) && decide (wdAt h 0x10 ≠ 0) &&
       decide (wdAt h 8 = 64 + 32 * wdAt h 4))
   | .seq =>
     !(decide (1 ≤ hfAt h 4 ∧ hfAt h 4 ≤ 256) && decide (1 ≤ hfAt h 6 ∧ hfAt h 6 ≤ 64) &&
       decide (wdAt h 8 = 32 + 8 * hfAt h 4 * hfAt h 6))
   | .fmt => fmtHeadBad h)

/-- The KIND byte of a table's header (05 R180, R191, R196). -/
def TKind.byte : TKind → Nat
  | .curve => 0x43
  | .seq => 0x53
  | .fmt => 0x46

/-- The table that a header describes, once it has passed its checks. -/
def tabRef (k : TKind) (a : Word) (h : List Byte) : TabRef :=
  match k with
  | .curve => { kind := k, addr := a, len := wdAt h 8, tid := w32 (wdAt h 12), n1 := wdAt h 4, span := wdAt h 0x10 }
  | .seq => { kind := k, addr := a, len := wdAt h 8, tid := w32 (wdAt h 12), n1 := hfAt h 4, n2 := hfAt h 6 }
  | .fmt => { kind := k, addr := a, len := wdAt h 8, tid := w32 (wdAt h 12), n1 := wdAt h 4 }

/-- Checks 7 to 21 of an INSTALL: the table as it will be held (05 R200). -/
def W.readTab (w : W) (e : Nat) (k : TKind) (a : Word) : W × Except Fin3 TabRef :=
  let fail (w : W) (st : St) (n : Nat) : W × Except Fin3 TabRef := (w, .error { st := st, check := n, index := 0xFFFF })
  match w.rdAt (.eng e) a.toNat (if k = .curve then 64 else 32) with
  | (w, .error s) => fail w s 7
  | (w, .ok h) =>
    if byAt h 0 ≠ k.byte ∨ byAt h 1 ≠ 1 then fail w .badValue 8
    else if tabHeadBad k a.toNat h then fail w .badValue 9
    else
      match w.rdAt (.eng e) a.toNat (wdAt h 8) with
      | (w, .error s) => fail w s 7
      | (w, .ok bs) =>
        let r := match k with
          | .curve => curveChecks bs (wdAt bs 4) (wdAt bs 0x10) (8192 - (w.en e).idxUse)
          | .seq => seqChecks bs (hfAt bs 4) (hfAt bs 6)
          | .fmt => (fmtChecks bs (wdAt bs 4)).map fun _ => ()
        (w, r.map fun _ => tabRef k a bs)

/-- One slot of engine `e` replaced. -/
def W.setSlot (w : W) (e k : Nat) (s : Slot) : W := w.modEn e fun x => { x with slots := tset x.slots k s }

/-- The held slots of group `bg`, as a set of slot keys (05 R200 check 5, R203). -/
def Engine.heldOf (e : Engine) (bg now : Nat) : List Nat :=
  (upTo 40).filter fun k =>
    let s := e.slot k
    s.armed.isSome && s.held && !s.pending now && decide (s.bg = bg)

/-- Whether TBL_MASK0 and TBL_MASK1 name slot `k` (05 R208). -/
def maskHas (m0 m1 : Word) (k : Nat) : Bool := if k < 32 then wbit m0 k else wbit m1 (k - 32)

/-- A table commit (05 R200, R203, R206): its effect and INDEX, or its failing check. -/
def tblWork (e : Nat) (w : W) (c : Com) : Except Fin3 (W × Nat) := do
  let g (o : Nat) : Word := c.get (tblReg e + o)
  let cmd := g 0
  let act := wf cmd 27 24
  let slot := wf cmd 3 0
  let bg := wf cmd 19 16
  let E := w.en e
  chk (decide (wf cmd 31 28 ≠ 0) || decide (wf cmd 23 22 ≠ 0) || decide (wf cmd 15 9 ≠ 0) ||
    decide (wf cmd 7 4 ≠ 0) || decide (act = 0) || decide (act > 4) ||
    (decide (act ≠ 4) && (decide (wf cmd 21 20 = 3) || (decide (wf cmd 21 20 = 2) && decide (slot > 7)))) ||
    (decide (act = 4) && decide (wf (g 0x0C) 31 8 ≠ 0))) .badValue 1
  let kind := (kindOf (wf cmd 21 20)).getD .curve
  let key := slotKey kind slot
  let s := E.slot key
  match act with
  | 1 => do
    chk s.armed.isSome .tableBusy 2
    chk (s.live.isSome && s.bg != bg) .badValue 3
    chk (decide ((g 4).toNat % 64 ≠ 0) || !tabPlace (g 4).toNat 64) .badValue 6
    let (w, r) := w.readTab e kind (g 4)
    let t ← r
    if s.live.isSome then
      pure (w.setSlot e key { s with armed := some t, held := wbit cmd 8, rel := none }, 0)
    else pure (w.setSlot e key { live := some t, bg := bg }, 0)
  | 2 => pure (w.setSlot e key { s with armed := none, held := false, rel := none }, b01 s.armed.isSome)
  | 3 => do
    chk s.armed.isSome .tableBusy 4
    pure (w.setSlot e key {}, 0)
  | _ => do
    let held := E.heldOf bg w.now
    chk (!(upTo 40).all fun k => held.contains k == maskHas (g 8) (g 0x0C) k) .badValue 5
    let t := (g 0x10).toNat + (g 0x14).toNat * 2 ^ 32
    pure (held.foldl (fun w k =>
      let s := (w.en e).slot k
      w.setSlot e k (if t ≤ w.now then { s with held := false, rel := none } else { s with rel := some t })) w, 0)

/-- The action that the commit under way on engine `e`'s table registers names. -/
def Dev.tblAction (d : Dev) (e : Nat) : Nat := wf ((d.cm (.tbl e)).get (tblReg e)) 27 24

/-- Held tables whose release time has come become pending (05 R203). -/
def W.tblRelease (w : W) (e : Nat) : W :=
  (upTo 40).foldl (fun w k =>
    let s := (w.en e).slot k
    if s.armed.isSome && s.held && s.pending w.now then w.setSlot e k { s with held := false, rel := none }
    else w) w

/-- The earliest release time that engine `e` still waits for. -/
def Engine.nextRel (e : Engine) : Option Nat :=
  ((e.slots.filterMap fun s => if s.2.armed.isSome && s.2.held then s.2.rel else none)).min?

/-! ### BEAT, EVAL and STEP -/

/-- What BEAT finds: whether it wraps, and the slots it swaps (05 R204). -/
def Engine.beat (e : Engine) (bg : Nat) (t : Word) (now : Nat) : Bool × List Nat :=
  let hi := wf t 31 16
  match tfind e.bgLast bg with
  | none => (false, [])
  | some l =>
    let d := (hi + 65536 - l) % 65536
    if 1 ≤ d ∧ d ≤ 0x7FFF then
      (true, (upTo 40).filter fun k =>
        let s := e.slot k
        s.armed.isSome && s.pending now && decide (s.bg = bg))
    else (false, [])

/-- The mask of swapped slots of one kind. -/
def swapMask (ks : List Nat) (lo n : Nat) : Nat :=
  ((upTo n).map fun i => b01 (ks.contains (lo + i)) * 2 ^ i).foldl (· + ·) 0

/-- The swaps of a BEAT: armed tables become live, TBL_SWAPS and TBL_LASTSWAP are written, the group's
position is recorded (05 R204). -/
def W.doBeat (w : W) (e bg : Nat) (t : Word) : W × Word × Word :=
  let (wrap, ks) := (w.en e).beat bg t w.now
  let w := w.modEn e fun x => { x with
    bgLast := tset x.bgLast bg (wf t 31 16)
    slots := ks.foldl (fun ss k =>
      let s := tget {} ss k
      tset ss k { s with live := s.armed, armed := none, held := false, rel := none }) x.slots }
  let w := if ks.isEmpty then w else
    ((w.setRg (tblReg e + 0x34) (w.rg (tblReg e + 0x34) + w32 ks.length)).setRg
      (tblReg e + 0x38) (w32 w.now)).setRg (tblReg e + 0x3C) (w32 (w.now / 2 ^ 32))
  (w, w32 (swapMask ks 0 16 + swapMask ks 16 16 * 65536), w32 (swapMask ks 32 8 + b01 wrap * 2 ^ 31))

/-- Result of an evaluation: position, velocity, acceleration, and whether one saturated. -/
structure EvalOut where
  p : Word
  v : Word
  a : Word
  sat : Bool
  deriving DecidableEq, Repr

/-- EVAL on segment `g` of width `wd` at offset `x` from its start, exactly (05 R185). -/
def evalSeg (g : Seg) (wd x : Nat) : EvalOut :=
  let u : Nat := x * 2 ^ 32 / wd
  let pw (k : Nat) : Int := ((u ^ k : Nat) : Int)
  let sc (k : Nat) : Int := ((2 ^ (32 * k) : Nat) : Int)
  let c := g.co
  let p := ((upTo 6).map fun (k : Nat) => c k * pw k * sc (5 - k)).foldl (· + ·) 0
  let v := ((upTo 5).map fun (k : Nat) => ((k : Int) + 1) * c (k + 1) * pw k * sc (4 - k)).foldl (· + ·) 0
  let a := ((upTo 4).map fun (k : Nat) => ((k : Int) + 1) * ((k : Int) + 2) * c (k + 2) * pw k * sc (3 - k)).foldl (· + ·) 0
  let p' := roundHalf p (2 ^ 160)
  let v' := roundHalf (v * 2 ^ 16) (2 ^ 128 * wd)
  let a' := roundHalf (a * 2 ^ 32) (2 ^ 96 * wd * wd)
  { p := w32i (sat p' (-(2 ^ 31)) (2 ^ 31 - 1))
    v := w32i (sat v' (-(2 ^ 31)) (2 ^ 31 - 1))
    a := w32i (sat a' (-(2 ^ 31)) (2 ^ 31 - 1))
    sat := ovf32 p' || ovf32 v' || ovf32 a' }

/-- The last segment among `n` whose start is at most `x` (05 R185), found from the segment index
that the commit filled (05 R190): the index does not read memory again. -/
def findSeg (xs : Nat → Nat) (x : Nat) : Nat → Nat
  | 0 => 0
  | n + 1 => if xs n ≤ x then n else findSeg xs x n

end Sys2Proof.Machine
end

