-- ==== Sys2Proof/Machine/CulOps.lean ====
section
/-! DEFINITION. What a culvert channel's doorbell, disable and reset do, and how a descriptor's end is
reported (file 11, R422 to R438). -/

namespace Sys2Proof.Machine

/-- Channel `n` of culvert `c`. -/
def Dev.ch (d : Dev) (c n : Nat) : Chan := tget {} d.cul (16 * c + n)

/-- A channel replaced. -/
def W.setCh (w : W) (c n : Nat) (x : Chan) : W := { w with cul := tset w.cul (16 * c + n) x }

/-- The ring that a channel's requests carry (11 R411). -/
def culRing (n : Nat) : Nat := if n < 14 then 2 else 1

/-- Whether a channel's descriptor holds the culvert (11 R422). -/
def Chan.holds (x : Chan) : Bool := decide (x.st = 2 ∨ x.st = 3 ∨ x.st = 5)

/-- A word of a channel's descriptor (11 R413). -/
def Chan.dw (x : Chan) (o : Nat) : Word := x.desc.getD (o / 4) 0

/-- An event of a channel: kind 1 DONE, 2 BAD, 3 ABORTED, 4 HALTED, 5 FAULT, about a descriptor
address, which is 0 in direct mode (11 R429). -/
def W.culEvent (w : W) (c n : Nat) (st : St) (kind desc : Nat) : W :=
  w.raiseNow (0x240 + 16 * c + n) (st.code * 65536 + kind * 4096 + desc / 64 % 4096)

/-- A word that a culvert writes into a descriptor; an error response to it is not reported. -/
def W.descWord (w : W) (c a : Nat) (v : Word) : W := (w.wrAt (.cul c) a (leBytes 4 v.toNat)).1

/-- The end of a channel's descriptor is written: CHECK after ST_OK, DONE, then STAT, to memory in
chain mode and to the registers (11 R416, R426 to R430). -/
def W.descReport (w : W) (c n : Nat) (st : St) (done : Nat) (check : Option Word) : W :=
  let x := w.ch c n
  let stat : Word := w32 (b01 (decide (st ≠ .ok)) * 2 ^ 30 + st.code)
  let w := if x.direct then w
    else
      let w := match check with
        | some v => w.descWord c (x.cur + 0x34) v
        | none => w
      (w.descWord c (x.cur + 0x38) (w32 done)).descWord c x.cur stat
  let w := match check with
    | some v => w.setRg (culReg c n + 0x60) v
    | none => w
  (w.setRg (culReg c n + 0x64) (w32 done)).setRg (culReg c n + 0x5C) stat

/-- Fields of a descriptor's words (11 R413, R414). -/
def Chan.ctrl (x : Chan) : Word := x.dw 0x08
def Chan.esize (x : Chan) : Nat := 2 ^ wf x.ctrl 25 24
def Chan.paced (x : Chan) : Bool := wbit x.ctrl 30
def Chan.snet (x : Chan) : Bool := wbit x.ctrl 23
def Chan.dnet (x : Chan) : Bool := wbit x.ctrl 22
def Chan.append (x : Chan) : Bool := wbit x.ctrl 28
def Chan.chkKind (x : Chan) : Nat := wf x.ctrl 27 26

/-- The loop counts (11 R413). -/
def Chan.loops (x : Chan) : Nat × Nat × Nat := (wf (x.dw 0x14) 15 0, wf (x.dw 0x14) 31 16, wf (x.dw 0x18) 15 0)

/-- The bytes that a descriptor transfers (11 R417). -/
def Chan.total (x : Chan) : Nat := x.esize * (x.loops.1 * x.loops.2.1 * x.loops.2.2)

/-! ### The element stream -/

/-- Address of element `i` of a side, whose base and strides lie at the given offsets (11 R417). -/
def Chan.elemAt (x : Chan) (base s0 i : Nat) : Nat :=
  let (n0, n1, _) := x.loops
  let a : Word := x.dw base + w32 (i % n0) * x.dw s0 + w32 (i / n0 % n1) * x.dw (s0 + 4) + w32 (i / n0 / n1) * x.dw (s0 + 8)
  a.toNat

/-- The runs of a side inside the stream bytes `p` to `p + m - 1`: an address and a length each (11 R418). -/
def Chan.runs (x : Chan) (base s0 : Nat) : Nat → Nat → Nat → List (Nat × Nat)
  | 0, _, _ => []
  | _, _, 0 => []
  | fuel + 1, p, m =>
    let e := x.esize
    let size := if (x.dw s0).toNat = e then e * x.loops.1 else e
    let n := min m (size - p % size)
    ((x.elemAt base s0 (p / e) + p % e) % 2 ^ 32, n) :: x.runs base s0 fuel (p + n) (m - n)

/-- Destination bytes that a failed or disabled descriptor leaves undefined: those beyond DONE that it may write (11 R430,
R432). -/
def W.restFree (w : W) (c : Nat) (x : Chan) (p : Nat) : W :=
  if x.dnet then w
  else
    let ds := (x.runs 0x10 0x28 (x.total + 1) p (x.total - p)).flatMap fun r => (upTo r.2).map (r.1 + ·)
    w.scramble (ds.filterMap fun a =>
      match (Who.cul c).phys a with
      | some pa => if (w.accErr (.cul c) pa true).isNone then some pa else none
      | none => none)

/-! ### Doorbell, disable, reset and request -/

/-- A doorbell for a channel (11 R436). -/
def W.culRing (w : W) (c n : Nat) : W := w.setCh c n { w.ch c n with dbpend := true }

/-- A channel is disabled: a running descriptor stops and is reported ABORTED, and its destination is undefined from
the first byte that is not confirmed (11 R432). -/
def W.culDisable (w : W) (c n : Nat) : W :=
  let x := w.ch c n
  let w := if x.holds then
      ((w.restFree c x x.pos).descReport c n .aborted x.pos none).culEvent c n .aborted 3 (if x.direct then 0 else x.cur)
    else w
  w.setCh c n { req := x.req, dbpend := x.dbpend }

/-- The channels named by a register write, as far as its ring allows (11 R438). -/
def culMask (v : Word) (ring : Nat) : List Nat :=
  (upTo 16).filter fun n => wbit v n && (decide (n < 14) || decide (ring ≤ 1))

/-- A write to CUL_DOORBELL (11 R436, R438). -/
def W.culDoorbell (w : W) (c : Nat) (v : Word) (ring : Nat) : W :=
  (culMask v ring).foldl (fun w n => w.culRing c n) w

/-- A write to CUL_DISABLE (11 R432, R438). -/
def W.culDisables (w : W) (c : Nat) (v : Word) (ring : Nat) : W :=
  (culMask v ring).foldl (fun w n => w.culDisable c n) w

/-- A reset of a culvert: every channel is disabled and the counters clear (11 R434, R437). -/
def W.culReset (w : W) (c : Nat) : W :=
  let w := (upTo 16).foldl (fun w n => w.culDisable c n) w
  let w := (upTo 16).foldl (fun w n =>
    ((w.setRg (culReg c n + 0x68) 0).setRg (culReg c n + 0x6C) 0).setRg (culReg c n + 0x70) 0) w
  w.setRg (culReg c 0 + 0x100C) 0

/-- CULVERT_REQUEST_CHANGE: a peripheral asserts or withdraws a channel's request; one that goes while a portion is in
progress counts, and the channel waits (11 R425). A portion is in progress until the next one starts or the
descriptor completes (notes/assumptions/17). -/
def W.culRequest (w : W) (c n : Nat) (on : Bool) : W :=
  if 28 ≤ c ∨ 16 ≤ n then w
  else
    let x := w.ch c n
    let mid := x.holds && x.paced && x.moved && !on && x.req && x.fail.isNone
    let w := w.setCh c n { x with
      req := on
      st := if mid ∧ x.st = 2 ∧ x.port < x.total then 3 else x.st
      moved := x.moved && !mid }
    if mid then w.bump (culReg c n + 0x70) else w

/-- CUL_CHn_STATE and CUL_CHn_CUR (11 R437, R439). -/
def Dev.culState (d : Dev) (c n : Nat) : Word :=
  let x := d.ch c n
  w32 (x.st * 2 ^ 29 + b01 x.dbpend * 2 ^ 28 + b01 x.direct * 2 ^ 27 + (if x.st = 7 then x.code else 0))

/-- CUL_CHn_CUR (11 R437). -/
def Dev.culCur (d : Dev) (c n : Nat) : Word :=
  let x := d.ch c n
  if x.st = 0 ∨ x.direct then 0 else w32 (if x.st = 1 ∨ (x.st = 6 ∧ !x.atNext) then x.nxt else x.cur)

/-- CUL_STATUS (11 R439). -/
def Dev.culStatus (d : Dev) (c : Nat) : Word :=
  let act := ((upTo 16).map fun n => b01 (decide ((d.ch c n).st ≠ 0)) * 2 ^ n).foldl (· + ·) 0
  match (upTo 16).find? fun n => (d.ch c n).holds with
  | some n => w32 (act * 65536 + 16 + n)
  | none => w32 (act * 65536)

end Sys2Proof.Machine
end

