-- ==== Sys2Proof/Machine/Net.lean ====
section
/-! DEFINITION. The slot network (file 10, R366 to R392): slot plans, their checks and their swap,
send and receive channels, messages on the mesh. -/

namespace Sys2Proof.Machine

/-- The mesh node of polder `p` (10 R366). -/
def polNode (p : Nat) : Nat := if p < 12 then p else p + 6

/-- The polder of a mesh node, if it is a polder's. -/
def nodePol (n : Nat) : Option Nat := if n < 12 then some n else if 18 ≤ n ∧ n < 30 then some (n - 6) else none

/-- Whether a node lies behind a closed dike (10 R381). -/
def Dev.nodeDiked (d : Dev) (n : Nat) : Bool :=
  match nodePol n with
  | some p => tget false d.dike p
  | none => false

/-- Whether a channel lies behind a closed dike: its node's, or that of the engine that it belongs to
(10 R369, R381; 14 R544). -/
def Dev.chanDiked (d : Dev) (n ch : Nat) : Bool :=
  d.nodeDiked n ||
  (match nodePol n with
   | some p => tget false d.dike (256 + 8 * p + ch / 4)
   | none => false)

/-- A network event from source 0x5F0 (10 R403). -/
def W.netEvent (w : W) (kind node ch index : Nat) : W :=
  w.raiseNow 0x5F0 (kind * 2 ^ 28 + node % 64 * 2 ^ 22 + ch % 64 * 2 ^ 16 + index % 65536)

/-- A slot-network counter advanced and its event sent (10 R380). -/
def W.netLoss (w : W) (reg kind node ch : Nat) (index : Nat := 0) : W :=
  (w.bump reg).netEvent kind node ch index

/-- SLOT_MISS, SLOT_RXDROP, SLOT_CORRUPT, SLOT_TXERR and SLOT_DIKEDROP (10 R404). -/
def slotMiss : Nat := 0x40040030
def slotRxdrop : Nat := 0x40040034
def slotCorrupt : Nat := 0x40040038
def slotTxerr : Nat := 0x4004003C
def slotDikedrop : Nat := 0x40040040

/-! ### Plans -/

/-- The nodes of a minimal route, source and destination included (10 R368). -/
def routeNodes (src dst : Nat) (yx : Bool) : List Nat :=
  let x0 := src % 6
  let y0 := src / 6
  let x1 := dst % 6
  let y1 := dst / 6
  let line (a b : Nat) : List Nat :=
    if a ≤ b then (upTo (b - a + 1)).map (a + ·) else (upTo (a - b + 1)).map (a - ·)
  if yx then
    (line y0 y1).map (fun y => 6 * y + x0) ++ ((line x0 x1).drop 1).map (fun x => 6 * y1 + x)
  else
    (line x0 x1).map (fun x => 6 * y0 + x) ++ ((line y0 y1).drop 1).map (fun y => 6 * y + x1)

/-- Consecutive pairs. -/
def pairsOf : List Nat → List (Nat × Nat)
  | a :: b :: r => (a, b) :: pairsOf (b :: r)
  | _ => []

/-- The ports and links of a reservation with the first slot each uses: injection port, links in
order, ejection port (07 R257, 10 R375). -/
def Resv.uses (r : Resv) : List (Nat × Nat) :=
  let ls := pairsOf (routeNodes r.src r.dst r.yx)
  [(r.src, r.start)] ++ ls.mapIdx (fun k l => (60 + 30 * l.1 + l.2, r.start + 2 * k)) ++
    [(30 + r.dst, r.start + 2 * ls.length)]

/-- Whether slots `a` to `a + l - 1` meet slots `b` to `b + m - 1`. -/
def meet (a l b m : Nat) : Bool := decide (a < b + m) && decide (b < a + l)

/-- Whether occurrences of two reservations use one slot of one link or port (10 R391 check 9). The
frames of two power-of-two periods meet at a distance of `k` frames when their phases agree modulo the
shorter period. -/
def Resv.clash (r q : Resv) : Bool :=
  let m := 2 ^ min r.plog q.plog
  r.uses.any fun u => q.uses.any fun v =>
    decide (u.1 = v.1) &&
    ((meet u.2 r.len v.2 q.len && decide (r.phase % m = q.phase % m)) ||
     (meet u.2 r.len (v.2 + 1024) q.len && decide ((r.phase + 1) % m = (q.phase + 2 * m) % m)) ||
     (meet (u.2 + 1024) r.len v.2 q.len && decide (r.phase % m = (q.phase + 1) % m)))

/-- Slots of a use that fall in frame `f`, one of the 256 frames of the pattern (10 R384). -/
def Resv.slotsIn (r : Resv) (a f : Nat) : Nat :=
  let here := if f % 2 ^ r.plog = r.phase then min (a + r.len) 1024 - min a 1024 else 0
  let rest := if (f + 255) % 256 % 2 ^ r.plog = r.phase then (a + r.len - 1024) - (a - 1024) else 0
  here + rest

/-- Slots that the reservations of a list reserve on resource `u` in frame `f`. -/
def slotLoad (rs : List Resv) (u f : Nat) : Nat :=
  (rs.map fun r => ((r.uses.filter fun v => decide (v.1 = u)).map fun v => r.slotsIn v.2 f).foldl (· + ·) 0).foldl (· + ·) 0

/-- Whether some link or port carries more than 960 reserved slots in some frame (07 R258, 10 R391
check 8). -/
def overcommit (rs : List Resv) : Bool :=
  (rs.flatMap fun r => r.uses.map (·.1)).eraseDups.any fun u =>
    (upTo 256).any fun f => decide (slotLoad rs u f > 960)

/-- Whether an occurrence of `r` uses a slot that an occurrence of the live plan's `q` may reach by
carrying over (10 R391 check 10). -/
def Resv.carryClash (r q : Resv) : Bool :=
  r.uses.any fun u => q.uses.any fun v =>
    decide (u.1 = v.1) && decide (v.2 + q.len > 1024) &&
    meet u.2 r.len (max v.2 1024 - 1024) (v.2 + q.len - max v.2 1024)

/-- Reservation record `i` of a plan (10 R383). -/
def resvAt (bs : List Byte) (i : Nat) : Resv :=
  let o := 0x40 + 16 * i
  { src := byAt bs o, dst := byAt bs (o + 1), sch := byAt bs (o + 2), dch := byAt bs (o + 3)
    start := hfAt bs (o + 4), len := byAt bs (o + 6), yx := (byAt bs (o + 7)).testBit 0
    req := (byAt bs (o + 7)).testBit 1, plog := byAt bs (o + 8), phase := byAt bs (o + 9) }

/-- Whether a reservation record breaks R383 (10). -/
def resvBad (bs : List Byte) (i : Nat) : Bool :=
  let o := 0x40 + 16 * i
  let r := resvAt bs i
  !(decide (r.src < 30) && decide (r.dst < 30) && decide (r.src ≠ r.dst) && decide (r.sch < 32) &&
    decide (r.dch < 32) && decide (r.start < 1024) && decide (1 ≤ r.len ∧ r.len ≤ 16) &&
    decide (byAt bs (o + 7) < 4) && decide (r.plog ≤ 8) && decide (r.phase < 2 ^ r.plog) &&
    decide (hfAt bs (o + 10) = 0))

/-- Best-effort binding `k` of a plan with `n` reservations (10 R384). -/
def bindAt (bs : List Byte) (n k : Nat) : Bind :=
  let o := 0x40 + 16 * n + 4 * k
  { src := byAt bs o, sch := byAt bs (o + 1), dst := byAt bs (o + 2), dch := byAt bs (o + 3) }

/-- Whether a plan header breaks R382 (10), given its address. -/
def planHeadBad (a : Nat) (h : List Byte) : Bool :=
  let k := byAt h 0x0A
  let nr := hfAt h 6
  let nb := hfAt h 8
  !(decide (wdAt h 0 = 0x314E4C50) && decide (hfAt h 4 = 1) && decide (nr ≤ 1024) && decide (nb ≤ 960) &&
    decide (k ≤ 1) && (if k = 1 then decide (byAt h 0x0B < 24) else decide (byAt h 0x0B = 0xFF)) &&
    (decide (byAt h 0x0C < 24) || decide (byAt h 0x0C = 0xFF)) && zeroAt h 0x0D 0x10 &&
    (upTo 24).all (fun p => decide (byAt h (0x14 + p) ≤ 5) || decide (byAt h (0x14 + p) = 0xFF)) &&
    decide (wdAt h 0x2C = 64 + 16 * nr + 4 * nb) && zeroAt h 0x30 0x40 &&
    decide (a + wdAt h 0x2C ≤ 0x11000000))

/-- The plan that checked bytes describe. -/
def planOf (a : Nat) (bs : List Byte) : Plan :=
  { id := w32 (wdAt bs 0x10), addr := a, len := wdAt bs 0x2C, fallback := decide (byAt bs 0x0A = 1)
    lost := byAt bs 0x0B, spare := byAt bs 0x0C, floor := (upTo 24).map fun p => byAt bs (0x14 + p)
    res := (upTo (hfAt bs 6)).map (resvAt bs)
    be := (upTo (hfAt bs 8)).map (bindAt bs (hfAt bs 6)) }

/-- Checks 3 to 10 of a plan at address `a` (10 R391). `load` asks for check 10 too. -/
def W.readPlan (w : W) (a : Nat) (load : Bool) : W × Except Fin3 Plan :=
  let fail (w : W) (st : St) (n : Nat) : W × Except Fin3 Plan := (w, .error { st := st, check := n, index := 0xFFFF })
  if a % 64 ≠ 0 ∨ a < 0x10000000 ∨ 0x11000000 ≤ a then fail w .badValue 3
  else
    match w.rdAt .weir a 64 with
    | (w, .error e) => fail w e 4
    | (w, .ok h) =>
      if planHeadBad a h then fail w .badValue 5
      else
        match w.rdAt .weir a (wdAt h 0x2C) with
        | (w, .error e) => fail w e 4
        | (w, .ok bs) =>
          let p := planOf a bs
          let nr := hfAt bs 6
          let rs : Nat → Resv := resvAt bs
          (w, do
            chkEach (upTo nr) (fun i => resvBad bs i || (upTo i).any fun j =>
              decide ((rs j).src = (rs i).src ∧ (rs j).sch = (rs i).sch) &&
              !decide ((rs j).dst = (rs i).dst ∧ (rs j).dch = (rs i).dch)) .badValue 6
            chkEach (upTo (hfAt bs 8)) (fun k =>
              let b := bindAt bs nr k
              !(decide (b.src < 30) && decide (b.dst < 30) && decide (b.src ≠ b.dst) &&
                decide (b.sch < 32) && decide (b.dch < 32)) ||
              p.res.any (fun r => decide (r.src = b.src ∧ r.sch = b.sch)) ||
              (upTo k).any (fun j =>
                decide ((bindAt bs nr j).src = b.src ∧ (bindAt bs nr j).sch = b.sch))) .badValue 7 nr
            chk (overcommit p.res) .slotOvercommit 8
            chkEach (upTo nr) (fun i => (upTo i).any fun j => (rs j).clash (rs i)) .slotConflict 9
            match w.net.live with
            | some q =>
              if load then
                chkEach (upTo nr) (fun i => q.res.any fun r => (rs i).carryClash r) .slotConflict 10
            | none => pure ()
            pure p)

/-- A SLOT commit (10 R386, R389, R391, R404): its effect and INDEX, or its failing check. -/
def slotWork (w : W) (c : Com) : Except Fin3 (W × Nat) := do
  let cmd := c.get 0x40040000
  let act := wf cmd 27 24
  chk (decide (act = 0) || decide (act > 3) || decide (wf cmd 31 28 ≠ 0) || decide (wf cmd 23 9 ≠ 0) ||
    decide (wf cmd 7 0 ≠ 0) || (decide (act = 1) && decide (wf (c.get 0x4004000C) 31 22 ≠ 0))) .badValue 1
  if act = 3 then
    pure ({ w with net := { w.net with armed := none } }, b01 w.net.armed.isSome)
  else do
    chk (decide (act = 1) && w.net.armed.isSome && !wbit cmd 8) .badValue 2
    let (w, r) := w.readPlan (c.get 0x40040004).toNat (decide (act = 1))
    let p ← r
    if act = 1 then
      let f := (c.get 0x40040008).toNat + (c.get 0x4004000C).toNat * 2 ^ 32
      pure ({ w with net := { w.net with armed := some (p, f) } }, 0)
    else pure (w, 0)

/-! ### Channels -/

/-- The first complete message of a channel's flits, and the rest (10 R370). -/
def firstMsg (fs : List Flit) : Option (List Flit × List Flit) :=
  match fs.findIdx? (·.last) with
  | some i => if i < 16 then some (fs.take (i + 1), fs.drop (i + 1)) else some (fs.take 16, fs.drop 16)
  | none => if 16 ≤ fs.length then some (fs.take 16, fs.drop 16) else none

/-- Every complete message of a list of flits, and what is left. -/
def splitMsgs : Nat → List Flit → List (List Flit) × List Flit
  | 0, fs => ([], fs)
  | n + 1, fs =>
    match firstMsg fs with
    | some (m, r) => let (ms, l) := splitMsgs n r; (m :: ms, l)
    | none => ([], fs)

/-- The reservations of a send channel under the live plan. -/
def Dev.resOf (d : Dev) (node ch : Nat) : List Resv :=
  match d.net.live with
  | some p => p.res.filter fun r => decide (r.src = node ∧ r.sch = ch)
  | none => []

/-- The best-effort binding of a send channel under the live plan. -/
def Dev.bindOf (d : Dev) (node ch : Nat) : Option Bind :=
  match d.net.live with
  | some p => p.be.find? fun b => decide (b.src = node ∧ b.sch = ch)
  | none => none

/-- Whether a message of `n` flits has a way out of a send channel (10 R376, R384). -/
def Dev.hasWay (d : Dev) (node ch n : Nat) : Bool :=
  (d.bindOf node ch).isSome || (d.resOf node ch).any fun r => decide (n ≤ r.len)

/-- The complete messages of a send channel that have no way are discarded and counted (10 R376,
R384). -/
def W.dropNoWay (w : W) (key : Nat) : W :=
  let (ms, rest) := splitMsgs 32 (tget [] w.net.tx key)
  let keep := ms.filter fun m => w.hasWay (key / 32) (key % 32) m.length
  let w := { w with net := { w.net with tx := tset w.net.tx key (keep.flatten ++ rest) } }
  (ms.filter fun m => !w.hasWay (key / 32) (key % 32) m.length).foldl
    (fun w _ => w.netLoss slotTxerr 4 (key / 32) (key % 32)) w

/-- A flit enters a send-channel buffer: a node behind a closed dike discards it, and counts the message that its last
or sixteenth flit ends; a message that completes without a way is discarded (10 R370, R376, R381, R384). -/
def W.enterTx (w : W) (node ch : Nat) (f : Flit) : W :=
  let key := 32 * node + ch
  let n := tget 0 w.net.part key + 1
  if w.chanDiked node ch then
    if f.last || decide (n = 16) then
      W.netLoss { w with net := { w.net with part := tdel w.net.part key } } slotDikedrop 6 node ch
    else { w with net := { w.net with part := tset w.net.part key n } }
  else
    W.dropNoWay { w with net := { w.net with tx := tset w.net.tx key (tget [] w.net.tx key ++ [f]) } } key

/-- The node and first channel of engine `e`: the keepers send from the Terp's node (10 R366, R369). -/
def engChan (e ch : Nat) : Nat × Nat := if e = 192 then (15, ch) else (polNode (e / 8), 4 * (e % 8) + ch)

/-- Flits of engine `e`'s send sluice move to their channel buffers while there is room, in order
(10 R369). -/
def W.drainSluice (w : W) (e : Nat) : Nat → W
  | 0 => w
  | n + 1 =>
    match tget [] w.net.sluice e with
    | [] => w
    | (ch, f) :: r =>
      let (node, c) := engChan e ch
      if (tget [] w.net.tx (32 * node + c)).length < 32 then
        W.drainSluice (W.enterTx { w with net := { w.net with sluice := tset w.net.sluice e r } } node c f) e n
      else w

/-- The engines whose sluice holds flits drain what they can. -/
def W.drainAll (w : W) : W := w.net.sluice.foldl (fun w c => w.drainSluice c.1 8) w

/-- A complete message leaves a send channel for the mesh. -/
def W.launch (w : W) (node ch : Nat) (dst dch : Nat) (reserved : Bool) (m rest : List Flit) : W :=
  let gone : W := { w with net := { w.net with tx := tset w.net.tx (32 * node + ch) rest } }
  if w.chanDiked node ch then gone.netLoss slotDikedrop 6 node ch
  else
    let msg : Msg := { src := node, sch := ch, dst := dst, dch := dch, flits := m, reserved := reserved }
    W.drainAll { gone with net := { gone.net with fly := gone.net.fly ++ [msg] } }

/-- An occurrence of reservation `i` of the live plan in frame `f`: at its start slot it carries the
oldest complete message that fits, else its slots go to best-effort traffic, and a required one counts
a miss (10 R375, R376). One whose time has passed, or that the plan does not hold in that frame, does
nothing. -/
def W.occurrence (w : W) (i f : Nat) : W :=
  match w.net.live.bind (fun p => p.res[i]?) with
  | none => w
  | some r =>
    let t := 1024 * f + r.start
    if f % 2 ^ r.plog ≠ r.phase ∨ t < w.now then w
    else
      let w := w.toTime t
      match firstMsg (tget [] w.net.tx (32 * r.src + r.sch)) with
      | some (m, rest) =>
        if m.length ≤ r.len then w.launch r.src r.sch r.dst r.dch true m rest
        else if r.req then w.netLoss slotMiss 2 r.src r.sch i else w
      | none => if r.req then w.netLoss slotMiss 2 r.src r.sch i else w

/-- A best-effort message of a send channel starts across the mesh (10 R379). -/
def W.bestEffort (w : W) (node ch : Nat) : W :=
  match w.bindOf node ch, firstMsg (tget [] w.net.tx (32 * node + ch)) with
  | some b, some (m, rest) => w.launch node ch b.dst b.dch false m rest
  | _, _ => w

/-- Whether the receive channel of a message has room for all its flits (10 R377, R379). -/
def Dev.msgFits (d : Dev) (m : Msg) : Bool :=
  decide ((tget [] d.net.rx (32 * m.dst + m.dch)).length + m.flits.length ≤ 32)

/-- The link on which a best-effort message comes to its destination's router, and the links of its route (10 R368,
R379). -/
def Msg.links (m : Msg) : List (Nat × Nat) := pairsOf (routeNodes m.src m.dst false)

/-- Whether a message on the mesh is held back: a best-effort message behind one that waits for room at the end of a
link that both take (10 R379). -/
def heldBack (fly : List Msg) (m : Msg) : Bool :=
  !m.reserved && (fly.takeWhile (· != m)).any fun x =>
    x.waits && !x.reserved && (x.links.getLast?.any fun l => m.links.contains l)

/-- The first message equal to `m` in a list marked as waiting for room. -/
def markWaits (m : Msg) : List Msg → List Msg
  | [] => []
  | x :: r => if x = m then { m with waits := true } :: r else x :: markWaits m r

/-- The message of a send channel that comes next (10 R371); one that waits for room never holds back a reserved one
(R379). -/
def Dev.nextMsg (d : Dev) (src sch : Nat) : Option Msg :=
  match d.net.fly.filter fun m => decide (m.src = src ∧ m.sch = sch) with
  | [] => none
  | m :: r => if m.waits && !d.msgFits m then (match r.find? (·.reserved) with | some q => some q | none => some m) else some m

/-- The next message of send channel `sch` of node `src` reaches its receive channel: it is taken whole, or discarded
when it is corrupt, behind a closed dike, or (reserved) finds no room; a best-effort message waits for room (10 R371,
R377 to R381). Its flits pass the receive sluice without a stay there: DEDUCED, notes/assumptions/59. -/
def W.arrive (w : W) (src sch dst dch : Nat) (corrupt : Bool) : W :=
  match w.nextMsg src sch with
  | none => w
  | some m =>
    if m.dst ≠ dst ∨ m.dch ≠ dch ∨ heldBack w.net.fly m then w
    else
      let key := 32 * dst + dch
      let gone : W := { w with net := { w.net with fly := w.net.fly.erase m } }
      if corrupt then gone.netLoss slotCorrupt 5 dst dch
      else if w.chanDiked dst dch then gone.netLoss slotDikedrop 6 dst dch
      else if w.msgFits m then
        let fs := m.flits.mapIdx fun i f => { f with last := decide (i + 1 = m.flits.length) }
        { gone with net := { gone.net with rx := tset gone.net.rx key (tget [] w.net.rx key ++ fs) } }
      else if m.reserved then gone.netLoss slotRxdrop 3 dst dch
      else { w with net := { w.net with fly := markWaits m w.net.fly } }

/-- The plan swap of frame `f`, if an armed plan is due by it (10 R386 to R388, R403). -/
def W.planSwap (w : W) (f : Nat) : W :=
  match w.net.armed with
  | some (p, sf) =>
    if sf ≤ f then
      let w := { w with net := { w.net with live := some p, armed := none, bankB := !w.net.bankB } }
      let w := (w.setRg 0x40040028 (w32 f)).setRg 0x4004002C (w32 (f / 2 ^ 32 % 2 ^ 22))
      let w := (w.net.tx.foldl (fun w c => w.dropNoWay c.1) w).drainAll
      w.netEvent 1 0 0 0
    else w
  | none => w

/-- An MTX commit (10 R408). -/
def mtxWork (w : W) (c : Com) : Except Fin3 (W × Nat) := do
  let wt (i : Nat) : Nat := wf (c.get (0x40050000 + 4 * (i / 8))) (4 * (i % 8) + 3) (4 * (i % 8))
  let pk (t : Nat) : Word := c.get (0x40050040 + 4 * t)
  chkEach (upTo 64) (fun i => if i < 58 then decide (wt i = 0) else decide (wt i ≠ 0)) .badValue 1
  chkEach (upTo 35) (fun t =>
    decide (wf (pk t) 31 8 ≠ 0) || wbit (pk t) 6 ||
    (wbit (pk t) 7 && decide (wf (pk t) 5 0 > 57))) .badValue 2 0x40
  let w := (upTo 8).foldl (fun w k => w.setRg (0x40050100 + 4 * k) (c.get (0x40050000 + 4 * k))) w
  pure ((upTo 35).foldl (fun w t => w.setRg (0x40050140 + 4 * t) (pk t)) w, 0)

end Sys2Proof.Machine
end

