-- ==== Sys2Proof/Machine/MemCtl.lean ====
section
/-! DEFINITION. Bank power states, the patrol and soft repair (file 09, R342 to R364). -/

namespace Sys2Proof.Machine

/-- A bank replaced. -/
def W.setBk (w : W) (dom b : Nat) (x : MBank) : W := { w with bank := tset w.bank (64 * dom + b) x }

/-- Whether engine `e` has a thread that is neither STOPPED nor halted (17 R650). -/
def Dev.busy (d : Dev) (e : Nat) : Bool :=
  (upTo 4).any fun t =>
    let x := tget (resetThread (4 * e + t)) d.thr (4 * e + t)
    decide (x.run ≠ .stopped) && !x.halted

/-- The banks of a domain. -/
def banksOf (dom : Nat) : List Nat := (upTo 64).filter (isBank dom)

/-- The live no-patrol range `k` of a domain, if it is enabled: first offset and first past it
(09 R363). -/
def Dev.npRange (d : Dev) (dom k : Nat) : Option (Nat × Nat) :=
  let b := tget 0 d.live (memReg dom + 0x80 + 8 * k)
  let l := tget 0 d.live (memReg dom + 0x84 + 8 * k)
  if wbit b 0 then some (wf b 23 10 * 1024, wf l 23 10 * 1024) else none

/-- Whether an offset of a domain lies in an enabled no-patrol range. -/
def Dev.inNp (d : Dev) (dom off : Nat) : Bool :=
  (upTo 8).any fun k =>
    match d.npRange dom k with
    | some (lo, hi) => decide (lo ≤ off) && decide (off < hi)
    | none => false

/-- Whether a pool bank of a polder is claimed by an engine's image (07 R254, 09 R347). -/
def Dev.claimed (d : Dev) (dom b : Nat) : Bool :=
  decide (dom < 24) && decide (b < 10) &&
    (upTo 8).any fun i => (tget {} d.eng (8 * dom + i)).claim.testBit b

/-- The bank that holds an offset of a domain. -/
def bankAt (dom off : Nat) : Nat :=
  match place (domAddr dom off) with
  | some q => q.bank
  | none => 0

/-- The doubles of the 1 KB block at an offset, by physical address. -/
def blockDoubles (dom off : Nat) : List Nat := (upTo 128).map fun i => domAddr dom off + 8 * i

/-- The banks that a 1 KB block touches. -/
def blockBanks (dom off : Nat) : List Nat := ((upTo 4).map fun i => bankAt dom (off + 8 * i)).eraseDups

/-- Whether some line of the block is write-locked. -/
def Dev.blockLocked (d : Dev) (dom off : Nat) : Bool := (upTo 16).any fun i => d.locked (domAddr dom off + 64 * i)

/-- Whether the block holds an owned byte (09 R347). -/
def Dev.blockOwned (d : Dev) (dom off : Nat) : Bool :=
  (blockBanks dom off).any (fun b => (d.bk dom b).owned || d.claimed dom b) ||
  d.blockLocked dom off || d.inNp dom off ||
  (match ownerEng (domAddr dom off) with
   | some e => d.busy e
   | none => false)

/-- Whether a preserving run skips the block (09 R352). -/
def Dev.blockSkipped (d : Dev) (dom off : Nat) : Bool :=
  d.inNp dom off || d.blockLocked dom off || (blockBanks dom off).any (fun b => d.claimed dom b) ||
  (match ownerEng (domAddr dom off) with
   | some e => (tget {} d.eng e).strict
   | none => false)

/-- Whether offsets `lo` to `hi - 1` lie wholly in one memory of a domain (09 R361 check 3). -/
def oneMemory (dom lo hi : Nat) : Bool :=
  if dom = 24 then decide (hi ≤ 0x1000000)
  else if lo < 0x140000 then decide (hi ≤ 0x140000)
  else if lo < 0x1C0000 then decide ((lo - 0x140000) / 0x10000 = (hi - 1 - 0x140000) / 0x10000) && decide (hi ≤ 0x1C0000)
  else decide ((lo - 0x1C0000) / 0x8000 = (hi - 1 - 0x1C0000) / 0x8000) && decide (hi ≤ 0x200000)

/-- A patrol that holds no block: its borrow buffer and dirty mask are discarded (09 R349, R350). -/
def Patrol.released (p : Patrol) : Patrol := { p with phase := 0, buf := [], marks := [], dirty := [], pos := 0 }

/-- The end of a run (09 R354). -/
def W.patEnd (w : W) (dom : Nat) : W :=
  (w.setPat dom { w.pat dom with st := 0 }).memEvent dom 2 0 0

/-- A patrol commit (09 R361): its effect and INDEX, or its failing check. -/
def patWork (dom : Nat) (w : W) (c : Com) : Except Fin3 (W × Nat) := do
  let r := memReg dom
  let ctl := c.get (r + 8)
  let act := wf ctl 27 24
  let bs := c.get r
  let ln := c.get (r + 4)
  let off := wf bs 23 10 * 1024
  let n := wf ln 14 0
  let p := w.pat dom
  let blocks := (upTo n).map fun i => off + 1024 * i
  chk (!(decide (act = 1 ∨ act = 2)) || decide (1 < wf ctl 5 4) || decide (wf ctl 31 28 ≠ 0) ||
    decide (wf ctl 15 10 ≠ 0) || decide (wf ctl 7 6 ≠ 0) || decide (wf ctl 3 2 ≠ 0) ||
    (decide (act = 1) && (decide (wf bs 31 24 ≠ 0) || decide (wf bs 9 0 ≠ 0) || decide (wf ln 31 15 ≠ 0))))
    .badValue 1
  if act = 2 then
    if p.st = 0 then pure (w, 0)
    else if p.phase = 0 then pure (w.patEnd dom, 0)
    else pure (w.setPat dom { p with st := 2 }, 0)
  else do
    chk (decide (p.st ≠ 0)) .badValue 2
    chk (decide (n = 0) || !oneMemory dom off (off + 1024 * n)) .badValue 3
    chk (blocks.any fun o => (blockBanks dom o).any fun b => decide ((w.bk dom b).st ≠ 2)) .badValue 4
    chk (!wbit ctl 0 && decide (dom < 24) && decide (0x1C0000 ≤ off)) .badValue 5
    chk (wbit ctl 0 && blocks.any (w.blockOwned dom)) .badValue 6
    pure (w.setPat dom { st := 1, left := n, base := off, next := off, blocks := n
                         destr := wbit ctl 0, repair := wbit ctl 1, alg := wf ctl 5 4, bg := wf ctl 9 8 }, 0)

/-- The action that a patrol commit under way names. -/
def Dev.patAction (d : Dev) (dom : Nat) : Nat := wf ((d.cm (.pat dom)).get (memReg dom + 8)) 27 24

/-- Spare rows and spare columns of a bank (09 R355). -/
def spares (dom b : Nat) : Nat × Nat := if dom < 24 ∧ 16 ≤ b then (4, 2) else (8, 4)

/-- The row of a bank that holds a double: 256 bytes of an engine memory bank, 1 KB elsewhere
(09 R355). -/
def rowOf (dom b idx : Nat) : Nat := if dom < 24 ∧ 16 ≤ b then idx / 32 else idx / 128

/-- A spare that is not there: DEGRADED and SPARES_EXHAUSTED (09 R357). -/
def W.exhausted (w : W) (dom : Nat) (q : Place) : W :=
  (w.setBk dom q.bank { w.bk dom q.bank with degraded := true }).memEvent dom 4 q.bank q.idx

/-- Repair of a failing array word at a place: `bits` are the failing bit positions of its doubles, `badSpares` how
many spare rows the test of a spare finds bad first, `tried` the rows (bank and row) that this test of the block has
dealt with, with which it answers (09 R356). A bit position that fails in a second row takes a spare column, any other
failure a spare row; a row whose spare fails in a later test takes another one. -/
def W.repairWord (w : W) (dom : Nat) (q : Place) (bits : List Nat) (badSpares : Nat) (colsToo : Bool)
    (tried : List (Nat × Nat)) : W × List (Nat × Nat) :=
  let x := w.bk dom q.bank
  let row := rowOf dom q.bank q.idx
  let bits := bits.filter fun b => !x.cols.contains b
  let cols := bits.filter fun b => colsToo && x.bad.any fun r => decide (r.1 = b) && decide (r.2 ≠ row)
  let rowToo := bits.any fun b => !cols.contains b
  let x := { x with bad := x.bad ++ bits.map fun b => (b, row) }
  let (sr, sc) := spares dom q.bank
  let fitC := cols.take (sc - x.cols.length)
  let w := w.setBk dom q.bank { x with cols := x.cols ++ fitC }
  let w := if fitC.length < cols.length then w.exhausted dom q else w
  if rowToo && !tried.contains (q.bank, row) then
    let x := w.bk dom q.bank
    let again := x.rows.contains row
    let free := sr - (x.rows.length + x.spent)
    let w :=
      if badSpares < free then
        let w := w.setBk dom q.bank { x with
          rows := if again then x.rows else x.rows ++ [row], spent := x.spent + badSpares + b01 again }
        w.setPat dom { w.pat dom with repaired := (w.pat dom).repaired + 1 }
      else (w.setBk dom q.bank { x with spent := x.spent + free }).exhausted dom q
    (w, (q.bank, row) :: tried)
  else (w, tried)

/-- The elements of a march algorithm: whether it works downward, and its operations on an array word, each a read or a
write of the background or (`true`) of its complement. An element that may work either way is given upward (09 R346). -/
def marchOf (alg : Nat) : List (Bool × List (Bool × Bool)) :=
  let r (b : Bool) : Bool × Bool := (true, b)
  let w (b : Bool) : Bool × Bool := (false, b)
  let pass (x : Bool) : List (Bool × Bool) := if alg = 0 then [r x, w (!x)] else [r x, r x, w x, r x, w (!x)]
  [(false, [w false]), (false, pass false), (false, pass true), (true, pass false), (true, pass true), (false, [r false])]

/-- A defect that a patrol meets in a block: the array word's number in the block, the element and the operation that
read a value other than the expected one, the bit positions that differ (72 for each double of the array word), and the
spare rows found bad while the row is repaired. -/
abbrev Defect := Nat × Nat × Nat × List Nat × Nat

/-- Whether a defect shows: its operation is a read of the algorithm, and a bit differs (09 R346). -/
def defectShows (alg k : Nat) (f : Defect) : Bool :=
  decide (f.1 * k < 1024) && ((((marchOf alg)[f.2.1]?).bind fun e => e.2[f.2.2.1]?).any fun o => o.1) &&
    f.2.2.2.1.any fun b => decide (b < 72 * (k / 8))

/-- The place of a defect in the order in which the algorithm works over the block. -/
def defectOrder (alg k : Nat) (f : Defect) : Nat :=
  let down := ((marchOf alg)[f.2.1]?).any fun e => e.1
  (f.2.1 * 128 + (if down then 1024 / k - 1 - f.1 else f.1)) * 8 + f.2.2.1

/-- A defect put among others by its place. -/
def insDefect (key : Defect → Nat) (f : Defect) : List Defect → List Defect
  | [] => [f]
  | g :: r => if key f < key g then f :: g :: r else g :: insDefect key f r

/-- The failing array words of a block, in the order in which they fail: each with its first defect, and every bit
position that fails in it (09 R346, R356). -/
def failingWords (alg k : Nat) (fs : List Defect) : List Defect :=
  let fs := (fs.filter (defectShows alg k)).foldr (insDefect (defectOrder alg k)) []
  fs.foldl (fun acc f =>
    if acc.any fun g => decide (g.1 = f.1) then
      acc.map fun g => if g.1 = f.1 then (g.1, g.2.1, g.2.2.1, g.2.2.2.1 ++ f.2.2.2.1, g.2.2.2.2) else g
    else acc ++ [f]) []

/-- A failing array word is counted, the first one is recorded and sends PATROL_FAIL, and it is repaired where R356
allows (09 R354, R356, R360). `c.2` are the rows that this test of the block has dealt with. -/
def W.patFail (dom off : Nat) (c : W × List (Nat × Nat)) (f : Defect) : W × List (Nat × Nat) :=
  let w := c.1
  let k := arrayWord dom off
  let o := off + f.1 * k
  let bits := f.2.2.2.1.filter fun b => decide (b < 72 * (k / 8))
  match place (domAddr dom (o + 8 * (bits.foldl min 287 / 72))) with
  | none => c
  | some q =>
    let p := w.pat dom
    let w := w.setPat dom { p with fails := min (p.fails + 1) 0xFFFF, first := some (p.first.getD o) }
    let w := if p.first.isNone then w.memEvent dom 3 q.bank q.idx else w
    if p.repair && (p.destr || decide (k = 32)) then
      w.repairWord dom q ((bits.map (· % 72)).eraseDups) f.2.2.2.2 p.destr c.2
    else (w, c.2)

/-- The test of the block at an offset of a domain, with the defects that the algorithm meets there. -/
def W.patTest (w : W) (dom off : Nat) (fs : List Defect) : W :=
  ((failingWords (w.pat dom).alg (arrayWord dom off) fs).foldl (W.patFail dom off) (w, [])).1

/-- A block is released: the run goes on with the next one, or ends after its last block or a STOP (09 R349, R354). -/
def W.patDone (w : W) (dom : Nat) : W :=
  let p := w.pat dom
  let w := w.setPat dom { p.released with next := p.next + 1024, left := p.left - 1, done := p.done + 1 }
  if p.left ≤ 1 ∨ p.st = 2 then w.patEnd dom else w

/-- The next block of a run starts: a preserving run skips it, or borrows it and copies `n` array words; a destructive
run tests it in place (09 R348, R349, R352). -/
def W.patStart (w : W) (dom n : Nat) : W :=
  let p := w.pat dom
  if p.destr then w.setPat dom { p with phase := 2 }
  else if w.blockSkipped dom p.next then
    let w := w.setPat dom { p with next := p.next + 1024, left := p.left - 1, skipped := (p.skipped + 1) % 2 ^ 15 }
    if p.left ≤ 1 then w.patEnd dom else w
  else (w.setPat dom { p.released with phase := 1 }).copyDoubles dom (n * (arrayWord dom p.next / 8))

/-- Double `i` of the copy written back to the array, with valid ECC unless it is marked (09 R349). -/
def W.restoreDouble (w : W) (dom i : Nat) : W :=
  let p := w.pat dom
  let pa := domAddr dom (p.next + 8 * i)
  { (w.wrN pa ((p.buf.drop (8 * i)).take 8)).setEccRaw pa (p.marks.getD i 0) with wb := w.wb.filter fun x => x != pa / 8 }

/-- The copy restores its next `n` array words in ascending order; after the last one the block is released (09 R349). -/
def W.patRestore (w : W) (dom n : Nat) : W :=
  let p := w.pat dom
  let k := arrayWord dom p.next
  let m := min n (1024 / k - p.pos)
  let w := (upTo (m * (k / 8))).foldl (fun w i => w.restoreDouble dom (p.pos * (k / 8) + i)) w
  let w := w.setPat dom { w.pat dom with pos := p.pos + m }
  if p.pos + m = 1024 / k then w.patDone dom else w

/-- A tested block of a destructive run is written with zeros and valid ECC (09 R348). -/
def W.patZero (w : W) (dom : Nat) : W :=
  let off := (w.pat dom).next
  let w := (blockDoubles dom off).foldl (fun w a => w.setEccRaw a 0) w
  ({ w with wb := w.wb.filter fun x => !(blockDoubles dom off).contains (8 * x) }.zeroRegion
    { lo := domAddr dom off, hi := domAddr dom off + 1024 }).patDone dom

/-- A patrol goes on: it starts its next block, copies `n` more array words, tests the block, with the defects found,
or restores `n` more array words (09 R348 to R356). -/
def W.patBlock (w : W) (dom n : Nat) (fs : List Defect) : W :=
  let p := w.pat dom
  if p.st = 0 then w
  else
    match p.phase with
    | 0 => w.patStart dom n
    | 1 => w.copyDoubles dom (n * (arrayWord dom p.next / 8))
    | 2 =>
      let w := w.patTest dom p.next fs
      if p.destr then w.patZero dom else w.setPat dom { w.pat dom with phase := 3 }
    | _ => w.patRestore dom n

/-! ### Bank configuration -/

/-- The staged byte of bank `b` of a domain. -/
def cfgByte (c : Com) (dom b : Nat) : Nat := wf (c.get (memReg dom + 0x40 + 4 * (b / 4))) (8 * (b % 4) + 7) (8 * (b % 4))

/-- The state a bank has or goes to. -/
def MBank.settled (x : MBank) : Nat := if x.st ≤ 2 then x.st else x.goal

/-- Checks 4 to 6 of R364 (09) for a bank that would leave ON, or whose state would change: locked or
claimed; its engine running; in the region of a running patrol. -/
def Dev.bankPinned (d : Dev) (dom b : Nat) : Bool :=
  let r := bankRegion dom b
  (upTo ((r.hi - r.lo) / 64)).any (fun i => d.locked (r.lo + 64 * i)) || d.claimed dom b

/-- Whether a data-memory bank's engine has a thread that is not STOPPED. -/
def Dev.bankBusy (d : Dev) (dom b : Nat) : Bool :=
  decide (dom < 24) && decide (16 ≤ b) && decide (b < 48) && d.busy (8 * dom + (b - 16) / 4)

/-- Whether a bank lies in the region of a running patrol. -/
def Dev.bankPatrolled (d : Dev) (dom b : Nat) : Bool :=
  let p := d.pat dom
  decide (p.st ≠ 0) && (upTo p.blocks).any fun i => (blockBanks dom (p.base + 1024 * i)).contains b

/-- A bank starts for a new state (09 R343). -/
def W.bankTo (w : W) (dom b n : Nat) (zf : Bool) : W :=
  let x := w.bk dom b
  if x.settled = n then w
  else
    match x.st, n with
    | 1, 2 => w.setBk dom b { x with st := 3, goal := 2, zf := false }
    | 0, 2 => w.setBk dom b { x with st := 3, goal := 2, zf := zf }
    | 1, 0 => (w.setBk dom b { x with st := 0, goal := 0 }).undefRegion (bankRegion dom b)
    | _, _ => w.setBk dom b { x with st := 4, goal := n }

/-- A configuration commit (09 R364): its effect and INDEX, or its failing check. -/
def memCfgWork (dom : Nat) (w : W) (c : Com) : Except Fin3 (W × Nat) := do
  let by' := cfgByte c dom
  let st (b : Nat) : Nat := by' b % 4
  let np (k : Nat) : Word := c.get (memReg dom + 0x80 + 8 * k)
  let nl (k : Nat) : Word := c.get (memReg dom + 0x84 + 8 * k)
  let size : Nat := if dom = 24 then 0x1000000 else 0x200000
  let bs := banksOf dom
  let leaves (b : Nat) : Bool := decide ((w.bk dom b).settled = 2) && decide (st b ≠ 2)
  let moves (b : Nat) : Bool := decide ((w.bk dom b).settled ≠ st b)
  chkEach (upTo 64) (fun b =>
    if isBank dom b then
      decide (16 ≤ by' b) || decide (st b = 3) || (decide (dom < 24) && decide (48 ≤ b) && decide (st b ≠ 2))
    else decide (by' b ≠ 0)) .badValue 1
  chkEach (upTo 8) (fun k =>
    decide (wf (np k) 31 24 ≠ 0) || decide (wf (np k) 9 1 ≠ 0) || decide (wf (nl k) 31 24 ≠ 0) ||
    decide (wf (nl k) 9 0 ≠ 0) ||
    (if wbit (np k) 0 then
      decide (wf (nl k) 23 10 ≤ wf (np k) 23 10) || decide (size < 1024 * wf (nl k) 23 10)
     else decide (wf (np k) 23 10 ≠ 0) || decide (wf (nl k) 23 10 ≠ 0))) .badValue 2 0x40
  chkEach bs (fun b => decide ((w.bk dom b).settled = 0) && decide (st b = 1)) .badValue 3
  chkEach bs (fun b => leaves b && w.bankPinned dom b) .badValue 4
  chkEach bs (fun b => leaves b && w.bankBusy dom b) .badValue 5
  chkEach bs (fun b => moves b && w.bankPatrolled dom b) .badValue 6
  chkEach bs (fun b => moves b && decide (2 < (w.bk dom b).st)) .badValue 7
  let w := bs.foldl (fun w b =>
    let w := w.setBk dom b { w.bk dom b with owned := (by' b).testBit 3 }
    w.bankTo dom b (st b) ((by' b).testBit 2)) w
  let lv := (upTo 8).foldl (fun t k =>
    tset (tset t (memReg dom + 0x80 + 8 * k) (np k)) (memReg dom + 0x84 + 8 * k) (nl k)) w.live
  pure ({ w with live := lv }, 0)

/-- A bank's transition ends (09 R343). -/
def W.bankDone (w : W) (dom b : Nat) : W :=
  let x := w.bk dom b
  let r := bankRegion dom b
  match x.st with
  | 3 => if x.zf then w.setBk dom b { x with st := 5 } else w.setBk dom b { x with st := 2 }
  | 4 =>
    let w := w.setBk dom b { x with st := if x.goal = 2 then 3 else x.goal }
    if x.goal = 0 then w.undefRegion r else w
  | 5 =>
    let w := (w.setBk dom b { x with st := 2, zf := false }).zeroRegion r
    { w with ecc := w.ecc.filter fun c => !r.has (8 * c.1), wb := w.wb.filter fun a => !r.has (8 * a) }
  | _ => w

/-- BORROWED: a block of the bank is borrowed or under a destructive run (09 R362). -/
def Dev.bankBorrowed (d : Dev) (dom b : Nat) : Bool :=
  let p := d.pat dom
  if p.destr then d.bankPatrolled dom b else decide (p.phase ≠ 0) && (blockBanks dom p.next).contains b

/-- MEM_BANKSTAT byte of a bank (09 R362). -/
def Dev.bankStat (d : Dev) (dom b : Nat) : Nat :=
  if isBank dom b then
    let x := d.bk dom b
    x.st + 8 * b01 x.owned + 16 * b01 x.degraded + 32 * b01 (d.bankBorrowed dom b)
  else 0

/-- MEM_PATSTATUS, MEM_PATFAILS, MEM_PATFIRST and MEM_SPARES (09 R360, R363). -/
def Dev.patRegs (d : Dev) (dom o : Nat) : Word :=
  let p := d.pat dom
  match o with
  | 0x14 => w32 (p.st * 2 ^ 30 + p.skipped * 2 ^ 15 + p.done % 2 ^ 15)
  | 0x18 => w32 (p.repaired % 65536 * 65536 + p.fails)
  | 0x1C => match p.first with | some f => w32 (2 ^ 31 + f) | none => 0
  | _ =>
    let bs := banksOf dom
    w32 (((bs.map fun b => (d.bk dom b).cols.length).foldl (· + ·) 0) * 65536 +
      (bs.map fun b => (d.bk dom b).rows.length).foldl (· + ·) 0)

end Sys2Proof.Machine
end

