-- ==== Sys2Proof/Machine/Weir.lean ====
section
/-! DEFINITION. The Weir (file 13): operating points, grants and balances, the dispatch queues, sleep,
and the Weir commit. -/

namespace Sys2Proof.Machine

/-- Base of the WEIR registers (13 R530). -/
def weirReg : Nat := 0x40010000

/-- Polder `p` as the Weir runs it. -/
def Dev.pol (d : Dev) (p : Nat) : Pol := tget {} d.weir.pols p

/-- A polder replaced. -/
def W.setPol (w : W) (p : Nat) (x : Pol) : W := { w with weir := { w.weir with pols := tset w.weir.pols p x } }

/-- Dispatch entry `j` of polder `p`, by its key. -/
def dispKey (p j : Nat) : Nat := 256 * p + j

/-- A dispatch entry. -/
def Dev.dsp (d : Dev) (k : Nat) : Disp := tget {} d.disp k

/-- A dispatch entry replaced. -/
def W.setDsp (w : W) (k : Nat) (x : Disp) : W := { w with disp := tset w.disp k x }

/-- A live Weir word of polder `p`: 0 CAP, 1 OPCTRL, 2 CARRY, 3 RET (13 R532). -/
def Dev.polCfg (d : Dev) (p i : Nat) : Word := d.stg (pldReg p + 0x10 + 4 * i)

/-- MODE is AUTO (13 R533). -/
def Dev.polAuto (d : Dev) (p : Nat) : Bool := wbit (d.polCfg p 1) 15

/-- A live WEIR word: 0 BUDGET, 1 RESERVE, 2 THERM (13 R530). -/
def Dev.weirCfg (d : Dev) (i : Nat) : Word := d.stg (weirReg + 0x100 + 4 * i)

/-- A FLOOR byte, where 0xFF counts as OP0 (13 R505). -/
def floorByte (b : Nat) : Nat := if b = 0xFF then 0 else b

/-- The floor in effect (13 R505). -/
def Dev.floor (d : Dev) (p : Nat) : Nat :=
  max (match d.net.live with | some q => floorByte (q.floor.getD p 0xFF) | none => 0) (d.pol p).img

/-- The floor that an armed plan or a loaded image asks for (13 R505, R506). -/
def Dev.floorAhead (d : Dev) (p : Nat) : Nat :=
  max (d.floor p) (max (match d.net.armed with | some (q, _) => floorByte (q.floor.getD p 0xFF) | none => 0)
    ((d.pol p).imgPend.getD 0))

/-- The lower bound lo of a polder (13 R505). -/
def Dev.polLo (d : Dev) (p : Nat) : Nat := max (d.floor p) (wf (d.polCfg p 1) 6 4)

/-- An operating point as a supply warning bounds it: at most OP1 (13 R523, R526). -/
def Dev.dipCap (d : Dev) (b : Nat) : Nat := if d.weir.dip.isSome then min b 1 else b

/-- A Weir record of a polder (13 R529). -/
def W.polEvent (w : W) (p kind : Nat) (rest : Nat := 0) : W := w.raiseNow (0x590 + p) (kind * 2 ^ 28 + rest)

/-! ### Operating points -/

/-- The Weir starts a change of a polder to an operating point: a raise brings the regulator up first
(13 R504). -/
def W.opChange (w : W) (p b : Nat) : W :=
  let x := w.pol p
  if b = x.cur then w.setPol p { x with goal := none }
  else if x.cur < b ∧ (x.volt < b ∨ x.vgo.getD x.volt < b) then w.setPol p { x with goal := some b, vgo := some b }
  else w.setPol p { x with goal := some b }

/-- A polder's clock runs at an operating point from now (06 R220). -/
def W.setOp (w : W) (p b : Nat) : W :=
  (w.setPol p { w.pol p with cur := b }).bump (pldReg p + 0x44)

/-- A regulator's slew has settled (13 R503, R504). -/
def W.settled (w : W) (p : Nat) : W :=
  let x := w.pol p
  match x.vgo with
  | some v => w.setPol p { x with volt := v, vgo := none }
  | none => w

/-- Whether a pending change may switch the clock now (13 R504). -/
def Pol.ready (x : Pol) : Bool :=
  match x.goal with
  | some b => decide (b < x.cur) || (decide (b ≤ x.volt) && decide (b ≤ x.vgo.getD x.volt))
  | none => false

/-- The floor that an armed plan or an image needs is raised at once, but not during a supply warning
(13 R505, R506). -/
def W.raiseFloors (w : W) : W :=
  if w.weir.dip.isSome then w
  else
    (upTo 24).foldl (fun w p =>
      let x := w.pol p
      let f := w.floorAhead p
      if x.goal.getD x.cur < f ∧ x.resume.isNone then w.opChange p f else w) w

/-! ### Jobs -/

/-- CLASS of an entry: 0 HARD, 1 FIRM, 2 SOFT (13 R514). -/
def Disp.cls (x : Disp) : Nat := wf x.ctrl 29 28

/-- The engine of an entry of polder `p`. -/
def Disp.eng (x : Disp) (p : Nat) : Nat := 8 * p + wf x.ctrl 22 20

/-- The absolute deadline D (13 R519). -/
def Disp.dl (x : Disp) : Nat := x.rel + x.deadline.toNat

/-- ENERGY at an operating point. -/
def Disp.en (x : Disp) (o : Nat) : Nat := (x.energy.getD o 0).toNat

/-- The charge C(o) (13 R518). -/
def Disp.cost (x : Disp) (scale o : Nat) : Nat := (x.en o * 125 * scale + 511) / 512

/-- An entry is charged at an operating point: BAL falls, saturating at -2^31, CHARGE is written, and
the estimate counts for SCALE (13 R512, R513, R518). -/
def W.charge (w : W) (p j o : Nat) : W :=
  let x := w.dsp (dispKey p j)
  let q := w.pol p
  let c := x.cost q.scale o
  (w.setPol p { q with bal := max (q.bal - c) (-(2 ^ 31)), s256 := q.s256 + x.en o * 125 }).setDsp (dispKey p j)
    { x with charge := c }

/-- A JOB trace record of an entry: 1 release, 2 admission, 3 end (17 R653). -/
def W.traceJob (w : W) (p j what : Nat) : W :=
  let x := w.dsp (dispKey p j)
  w.traceRec p 3 5 (x.eng p) x.thread (j + what * 256) x.job.toNat

/-- An outcome of an entry: kind 1 MISSED, 2 LATE, 3 OVERRUN, 4 ABORTED (13 R521, R529). -/
def W.outcome (w : W) (p j kind : Nat) : W :=
  let x := w.dsp (dispKey p j)
  let w := (w.setDsp (dispKey p j) { x with misses := x.misses + 1 }).polEvent p kind j
  if kind = 3 then w else w.bump (pldReg p + 0x40)

/-- Whether engine `e` is released from reset and IN_SERVICE: boot step 3 holds every engine but the
keepers in reset (14 R536; 17 R634). -/
def Dev.inService (d : Dev) (e : Nat) : Bool :=
  decide ((tget {} d.flt.units e).st = 0) && decide ((tget {} d.flt.units (256 + e / 8)).st = 0) &&
  (decide (192 ≤ e) || decide (4 ≤ d.sys.phase))

/-- A sleeping polder wakes (13 R525). -/
def W.polWake (w : W) (p : Nat) : W :=
  let x := w.pol p
  if x.sleep then
    let w := x.slept.foldl (fun w b => if (w.bk p b).settled = 1 then w.bankTo p b 2 false else w) w
    let t := w.dipCap (max x.policy (w.polLo p))
    let w := w.setPol p { x with sleep := false, quiet := 0, target := t }
    (w.opChange p t).polEvent p 7
  else w

/-- The oldest record that an entry has heard releases it (13 R516, R517, R525). -/
def W.jobRelease (w : W) (p j : Nat) : W :=
  let k := dispKey p j
  let x := w.dsp k
  match x.box with
  | [] => w
  | r :: rest =>
    let w := w.setDsp k { x with box := rest }
    if !wbit x.ctrl 31 then w
    else
    let w := w.traceJob p j 1
    if x.cls = 0 then
      let w := w.setDsp k { w.dsp k with rel := r.time, payload := r.payload, runs := x.runs + 1 }
      if w.inService (x.eng p) then w.charge p j (w.pol p).cur else w
    else if x.st ≠ 0 then w.outcome p j 3
    else
      let w := w.setPol p { w.pol p with relIn := w.weir.period }
      (w.setDsp k { w.dsp k with st := 1, rel := r.time, payload := r.payload, wait := 0 }).polWake p

/-- Whether a thread of engine `e` is held for an admitted job (13 R520). -/
def Dev.heldThread (d : Dev) (e t : Nat) : Bool :=
  d.disp.any fun c => decide (c.2.st = 2) && decide (c.2.eng (c.1 / 256) = e) && decide (c.2.thread = t)

/-- The lowest-numbered free thread of an entry (13 R520; 17 R650). -/
def Dev.freeThread (d : Dev) (p : Nat) (x : Disp) : Option Nat :=
  (upTo 4).find? fun t =>
    let h := tget (resetThread (4 * x.eng p + t)) d.thr (4 * x.eng p + t)
    wbit x.ctrl (16 + t) && decide (h.run = .stopped) && !h.halted && !d.heldThread (x.eng p) t

/-- An entry is admitted at an operating point on a thread (13 R519). -/
def W.admitJob (w : W) (p j o t : Nat) : W :=
  let k := dispKey p j
  ((w.setDsp k { w.dsp k with st := 2, thread := t, op := o, wait := 0 }).charge p j o).traceJob p j 2

/-- An entry waits for tokens (1), a thread (2) or banks (3) (13 R514). -/
def W.jobWait (w : W) (p j n : Nat) : W := w.setDsp (dispKey p j) { w.dsp (dispKey p j) with wait := n }

/-- Whether the banks that the Weir put into RETAIN are ON again (13 R525). -/
def Dev.banksOn (d : Dev) (p : Nat) : Bool := (d.pol p).slept.all fun b => decide ((d.bk p b).st = 2)

/-- Insertion by a key and then by the number. -/
def insBy (key : Nat → Nat) (x : Nat) : List Nat → List Nat
  | [] => [x]
  | y :: r => if key y < key x ∨ (key y = key x ∧ y ≤ x) then y :: insBy key x r else x :: y :: r

/-- A list sorted by a key and then by the number. -/
def sortBy (key : Nat → Nat) (l : List Nat) : List Nat := l.foldr (insBy key) []

/-- The released entries of a polder in the order of R519 (13): FIRM by deadline, then SOFT by release
time. -/
def Dev.candidates (d : Dev) (p : Nat) : List Nat :=
  let js (c : Nat) : List Nat := (d.disp.filter fun e =>
    decide (e.1 / 256 = p) && decide (e.2.st = 1) && decide (e.2.cls = c)).map fun e => e.1 % 256
  sortBy (fun j => (d.dsp (dispKey p j)).dl) (js 1) ++ sortBy (fun j => (d.dsp (dispKey p j)).rel) (js 2)

/-- The highest operating point from `lo` to below `op` that a balance covers. -/
def lowerPoint (x : Disp) (scale lo op : Nat) (have' : Int) : Option Nat :=
  ((upTo op).filter fun o => decide (lo ≤ o) && decide ((x.cost scale o : Int) ≤ have')).getLast?

/-- The test of one candidate; `firm` says whether a FIRM job already waits for tokens (13 R519). -/
def W.admitOne (w : W) (p : Nat) (firm : Bool) (j : Nat) : W × Bool :=
  let x := w.dsp (dispKey p j)
  let q := w.pol p
  let n : Int := Int.fdiv ((x.dl : Int) - w.now) 32768
  let op := match q.ceil with | some (o, _) => o | none => q.cur
  let take (w : W) (t : Nat) : W :=
    if q.ceil.isSome then w.setPol p { w.pol p with more := (w.pol p).more ++ [j] } else w.admitJob p j op t
  if q.ceil.map (·.2) = some j ∨ q.more.contains j then (w, firm)
  else if !w.banksOn p then (w.jobWait p j 3, firm)
  else if !w.inService (x.eng p) then (w, firm)
  else
    match w.freeThread p x with
    | none => (w.jobWait p j 2, firm)
    | some t =>
      if x.cls = 1 then
        let h : Int := q.bal + (q.grant : Int) * n
        if (x.cost q.scale op : Int) ≤ h then (take w t, firm)
        else
          match (if w.polAuto p && q.ceil.isNone then lowerPoint x q.scale (w.polLo p) op h else none) with
          | some o => ((w.setPol p { q with ceil := some (o, j) }).opChange p o, firm)
          | none => (w.jobWait p j 1, true)
      else if (x.cost q.scale op : Int) ≤ q.bal && !firm then (take w t, firm)
      else (w.jobWait p j 1, firm)

/-- The dispatcher of a polder tests its released jobs (13 R511, R519). -/
def W.jobAdmit (w : W) (p : Nat) : W :=
  if w.weir.lim then w
  else ((w.candidates p).foldl (fun a j => a.1.admitOne p a.2 j) (w, false)).1

/-- A FIRM job that is still RELEASED at its deadline is discarded (13 R521, R523). -/
def W.jobDeadline (w : W) (p j : Nat) : W :=
  let x := w.dsp (dispKey p j)
  if x.st = 1 ∧ x.cls = 1 then
    let w := (w.toTime x.dl).setDsp (dispKey p j) { x with st := 0, wait := 0 }
    let q := w.pol p
    let q := if q.ceil.map (·.2) = some j then { q with ceil := none, more := [] }
      else { q with more := q.more.filter fun i => i != j }
    (w.setPol p q).outcome p j 1
  else w

/-- The end of a job: LATE or ABORTED where due, and the end of a lowered point it ran at
(13 R521, R523). -/
def W.endJob (w : W) (p j : Nat) (aborted : Bool) : W :=
  let x := w.dsp (dispKey p j)
  let q := w.pol p
  let w := w.traceJob p j 3
  let w := if q.ceilRun.map (·.2) = some j then w.setPol p { q with ceilRun := none } else w
  if aborted then (w.setDsp (dispKey p j) { x with st := 0 }).outcome p j 4
  else
    let w := w.setDsp (dispKey p j) { x with st := 0, runs := x.runs + 1 }
    if x.cls = 1 ∧ x.dl < w.now then w.outcome p j 2 else w

/-- The thread of key `k` becomes STOPPED: the job that it runs ends (13 R521). -/
def W.jobStopped (w : W) (k : Nat) (aborted : Bool) : W :=
  w.disp.foldl (fun w c =>
    if c.2.st = 3 ∧ c.2.eng (c.1 / 256) = k / 4 ∧ c.2.thread = k % 4 then
      w.endJob (c.1 / 256) (c.1 % 256) aborted
    else w) w

/-- Software starts a thread that is held for an admitted job: the admission is undone (13 R520). -/
def W.jobUnheld (w : W) (k : Nat) : W :=
  w.disp.foldl (fun w c =>
    if c.2.st = 2 ∧ c.2.eng (c.1 / 256) = k / 4 ∧ c.2.thread = k % 4 then
      let p := c.1 / 256
      let q := w.pol p
      (w.setPol p { q with bal := q.bal + c.2.charge }).setDsp c.1 { w.dsp c.1 with st := 1, wait := 2 }
    else w) w

/-- A write to word `o` of a dispatch entry: whether it is accepted, and its effect (13 R515). -/
def W.dispWrite (w : W) (p j o : Nat) (v : Word) : W × Bool :=
  let k := dispKey p j
  let x := w.dsp k
  if wbit x.ctrl 31 && !(decide (o = 0) && !wbit v 31) then (w, false)
  else
    let y := match o with
      | 0x00 => { x with ctrl := v &&& 0xBC7F07FF#32 }
      | 0x04 => { x with pc := v }
      | 0x08 => { x with deadline := v }
      | 0x0C => { x with job := v }
      | _ => if 0x10 ≤ o ∧ o ≤ 0x24 then { x with energy := x.energy.set ((o - 0x10) / 4) v } else x
    let y := if o = 0 && !wbit v 31 then
      { y with box := [], st := if y.st = 1 ∨ y.st = 2 then 0 else y.st, wait := 0 } else y
    let q := w.pol p
    let q := if o = 0 && !wbit v 31 then
      { q with ceil := if q.ceil.map (·.2) = some j then none else q.ceil
               more := if q.ceil.map (·.2) = some j then [] else q.more.filter fun i => i != j } else q
    ((w.setPol p q).setDsp k y, true)

/-- Word `o` of a dispatch entry as it reads (13 R514). -/
def Dev.dispRead (d : Dev) (p j o : Nat) : Word :=
  let x := d.dsp (dispKey p j)
  match o with
  | 0x00 => x.ctrl
  | 0x04 => x.pc
  | 0x08 => x.deadline
  | 0x0C => x.job
  | 0x28 => w32 (x.st * 2 ^ 30 + x.thread * 2 ^ 28 + x.op * 2 ^ 21 + x.wait * 2 ^ 19)
  | 0x2C => w32 x.rel
  | 0x34 => x.runs
  | 0x38 => x.misses
  | 0x3C => w32 x.charge
  | _ => x.energy.getD ((o - 0x10) / 4) 0

/-! ### Weir periods -/

/-- The new thermal state on TMAX (13 R511). -/
def Dev.thermalOf (d : Dev) (q : Int) : Nat :=
  let th := d.weirCfg 2
  if q ≤ sgn 16 (wf th 15 0) then 0 else if q < sgn 16 (wf th 31 16) then 1 else 2

/-- A thermal record (13 R529). -/
def W.thermalRec (w : W) (kind sensor : Nat) (q : Int) : W :=
  w.raiseNow 0x5A8 (kind * 2 ^ 28 + sensor * 65536 + modn 16 q)

/-- A committed configuration takes effect at a Weir period boundary (13 R534). -/
def W.weirNext (w : W) : W :=
  match w.weir.next with
  | none => w
  | some t =>
    let g (a : Nat) : Word := tget (stgReset a) t a
    let w := { w with weir := { w.weir with next := none } }
    let w := (upTo 3).foldl (fun w i => w.setRg (weirReg + 0x100 + 4 * i) (g (weirReg + 4 * i))) w
    let w := (upTo 24).foldl (fun w p =>
      let w := (upTo 4).foldl (fun w i => w.setRg (pldReg p + 0x10 + 4 * i) (g (pldReg p + 4 * i))) w
      let x := w.pol p
      let x := { x with bal := min x.bal (wf (w.polCfg p 2) 15 0 * x.grant) }
      let vh := wf (w.polCfg p 1) 14 12
      w.setPol p (if x.vgo.getD x.volt < vh then { x with vgo := some vh } else x)) w
    w.raiseNow 0x5AA (2 ^ 28)

/-- No thread of a polder's engines is other than STOPPED, and no entry is RELEASED, ADMITTED or RUNNING
(13 R524). -/
def Dev.polStill (d : Dev) (p : Nat) : Bool :=
  (upTo 8).all (fun i => !d.busy (8 * p + i)) &&
  d.disp.all fun c => decide (c.1 / 256 ≠ p) || decide (c.2.st = 0)

/-- A polder has been idle through all of the period just ended: it was still at its start and is so now, and
neither a thread started nor an entry was released in between (13 R524). -/
def Dev.polQuiet (d : Dev) (p : Nat) : Bool :=
  d.polStill p && !(d.pol p).awake && decide ((d.pol p).relIn < d.weir.period) &&
  (upTo 32).all fun i => decide ((tget (resetThread (32 * p + i)) d.thr (32 * p + i)).startIn < d.weir.period)

/-- The banks that PLD_WEIR_RET names and that may leave ON (13 R524). -/
def Dev.sleepBanks (d : Dev) (p : Nat) : List Nat :=
  let r := d.polCfg p 3
  (banksOf p).filter fun b =>
    (if b < 10 then wbit r b else decide (b < 48) && wbit r 10) && decide ((d.bk p b).st = 2) &&
    !d.bankPinned p b && !d.bankBusy p b && !d.bankPatrolled p b

/-- The sleep policy of a polder at a period boundary (13 R524). `counts` says that SLEEPAFTER was not 0 in the
period just ended. -/
def W.polSleep (w : W) (p : Nat) (counts : Bool) : W :=
  let x := { w.pol p with awake := !w.polStill p }
  let n := wf (w.polCfg p 3) 31 24
  if n = 0 ∨ !counts ∨ !w.polQuiet p then w.setPol p { x with quiet := 0 }
  else if x.sleep then w.setPol p x
  else if x.quiet + 1 < n then w.setPol p { x with quiet := x.quiet + 1 }
  else
    let w := w.setPol p x
    let bs := w.sleepBanks p
    let w := bs.foldl (fun w b => w.bankTo p b 1 false) w
    let t := w.dipCap (w.polLo p)
    let w := w.setPol p { w.pol p with sleep := true, quiet := n, slept := bs, target := t }
    (w.opChange p t).polEvent p 6

/-- The Weir period boundary `n` (13 R508 to R511, R513, R524, R534): `temps` are the 32 sensor
readings, `pols` the energy, busy cycles and cycles of each polder in the period just ended. -/
def W.weirBoundary (w : W) (n : Nat) (temps : List Int) (pols : List (Nat × Nat × Nat)) : W :=
  let t := 32768 * n
  if t < w.now then w
  else
    let counts := (upTo 24).map fun p => decide (wf (w.polCfg p 3) 31 24 ≠ 0)
    let w := (w.toTime t).weirNext
    let temps := (upTo 32).map fun i => temps.getD i 0
    let q := temps.foldl max (temps.getD 0 0)
    let s := (temps.findIdx? (· == q)).getD 0
    let old := w.weir.st
    let st := w.thermalOf q
    let w := if st = old then w
      else
        let w := if old = 2 then w.thermalRec 4 s q else w
        w.thermalRec (match st with | 0 => 2 | 1 => 1 | _ => 3) s q
    let w := if st = 0 then w else w.bump (weirReg + 0x20)
    let lim := sgn 16 (wf (w.weirCfg 2) 31 16)
    let w := { w with weir := { w.weir with
      st := st, trip := if lim + 40 ≤ q then w.weir.trip + 1 else 0
      meas := some { time := t, tmax := q, sensor := s, temps := temps, pols := pols } } }
    let w := (upTo 24).foldl (fun w p =>
      let x := w.pol p
      let e := (pols.getD p (0, 0, 0)).1
      let x := { x with m256 := x.m256 + e }
      let w := w.setPol p (if n % 256 = 0 then { x with scaled := some (x.m256, x.s256), m256 := 0, s256 := 0 } else x)
      w.polSleep p (counts.getD p false)) w
    { w with weir := { w.weir with period := w.weir.period + 1 } }

/-- BEFF on TMAX (13 R510). -/
def beffOf (budget bmin : Nat) (q thr lim : Int) : Nat :=
  if q ≤ thr then budget
  else if lim ≤ q then bmin
  else budget - (Int.fdiv (((budget : Int) - bmin) * (q - thr)) (lim - thr)).toNat

/-- The grant of polder `p` (13 R510). -/
def grantOf (mins caps : List Nat) (extra : Int) (p : Nat) : Nat :=
  let mi := mins.getD p 0
  let ca := caps.getD p 0
  let span : Int := ((caps.foldl (· + ·) 0 : Nat) : Int) - (mins.foldl (· + ·) 0 : Nat)
  if span ≤ extra then ca * 2048
  else mi * 2048 + (Int.fdiv (extra * 2048 * ((ca : Int) - mi)) span).toNat

/-- The target of R523 (13) from the values now in force. -/
def Dev.policy (d : Dev) (p busy cyc : Nat) : Nat :=
  let x := d.pol p
  let c := d.polCfg p 1
  let lo := max (d.floorAhead p) (wf c 6 4)
  let t :=
    if d.weir.lim then lo
    else if !d.polAuto p then max (wf c 2 0) (d.floorAhead p)
    else
      let t : Int :=
        if x.bal < 0 then (x.cur : Int) - 1
        else if 7 * cyc ≤ 8 * busy ∧ (x.grant : Int) ≤ x.bal then x.cur + 1
        else if 4 * busy < cyc then (x.cur : Int) - 1
        else x.cur
      let t := (sat t lo (wf c 10 8)).toNat
      let cap (t : Nat) (o : Option (Nat × Nat)) : Nat := match o with | some (b, _) => min t b | none => t
      cap (cap t x.ceil) x.ceilRun
  d.dipCap t

/-- The measurements of a period take effect: grants, balances and targets (13 R510, R512, R523). -/
def W.grantApply (w : W) : W :=
  match w.weir.meas with
  | none => w
  | some m =>
    let w := w.toTime (m.time + 2048)
    let thr := sgn 16 (wf (w.weirCfg 2) 15 0)
    let lim := sgn 16 (wf (w.weirCfg 2) 31 16)
    let caps := (upTo 24).map fun p => wf (w.polCfg p 0) 15 0
    let mins := (upTo 24).map fun p => wf (w.polCfg p 0) 31 16
    let bmin := wf (w.weirCfg 1) 15 0 + mins.foldl (· + ·) 0
    let beff := beffOf (wf (w.weirCfg 0) 15 0) bmin m.tmax thr lim
    let w := { w with weir := { w.weir with
      meas := none, beff := beff, tmax := m.tmax, sensor := m.sensor, lim := decide (lim ≤ m.tmax) } }
    let w := m.temps.zipIdx.foldl (fun w c => w.setRg (weirReg + 0x80 + 4 * c.2) (w32 (modn 16 c.1))) w
    (upTo 24).foldl (fun w p =>
      let (e, bu, cy) := m.pols.getD p (0, 0, 0)
      let g := grantOf mins caps ((beff : Int) - bmin) p
      let x := w.pol p
      let w := w.setPol p { x with
        grant := g, bal := max (min (x.bal + g) (wf (w.polCfg p 2) 15 0 * g)) (-(2 ^ 31))
        meter := (x.meter + e) % 2 ^ 64, laste := e, busy := bu }
      let t := w.policy p bu cy
      let w := w.setPol p { w.pol p with policy := t }
      let x := w.pol p
      let t := if x.sleep then w.dipCap (max (w.floorAhead p) (wf (w.polCfg p 1) 6 4)) else t
      let w := w.setPol p { x with target := t }
      if t = x.goal.getD x.cur then w else w.opChange p t) w

/-- SCALE is corrected from the meters of the 256 periods just ended (13 R513), once the period's
measurements have taken effect (13 R510). -/
def W.scaleUpdate (w : W) : W :=
  if w.weir.meas.isSome then w
  else (upTo 24).foldl (fun w p =>
    let x := w.pol p
    match x.scaled with
    | none => w
    | some (m, e) =>
      let x := { x with scaled := none }
      if 0 < e ∧ m ≤ 8 * e then
        let s : Int := x.scale + Int.fdiv (((512 * m / e : Nat) : Int) - x.scale) 4
        let c := sat s 0x80 0x400
        let w := w.setPol p { x with scale := c.toNat }
        if c = s then w else w.raiseNow 0x5AA (2 ^ 29 + p)
      else w.setPol p x) w

/-! ### The Weir commit -/

/-- Checks 3 to 5 of R534 (13) on a configuration, with the floors and the polders that have enabled
HARD entries. -/
def weirChecks (budget reserve : Nat) (cap opc : Nat → Word) (floor : Nat → Nat) (hard : Nat → Bool) :
    Except Fin3 Unit := do
  chkEach (upTo 24) (fun p => decide (wf (cap p) 15 0 < wf (cap p) 31 16)) .budgetInvalid 3
  chk (decide (budget < reserve + ((upTo 24).map fun p => wf (cap p) 31 16).foldl (· + ·) 0) ||
    decide (19000 < budget)) .budgetInvalid 4
  chkEach (upTo 24) (fun p =>
    decide (wf (opc p) 10 8 < floor p) || (decide (wf (cap p) 31 16 = 0) && hard p)) .budgetInvalid 5

/-- Whether a polder has an enabled HARD entry (13 R534). -/
def Dev.hasHard (d : Dev) (p : Nat) : Bool :=
  d.disp.any fun c => decide (c.1 / 256 = p) && wbit c.2.ctrl 31 && decide (c.2.cls = 0)

/-- A WEIR commit (13 R534): its effect and INDEX, or its failing check. The copy holds the staging
registers of the WEIR block and of all polders. -/
def weirWork (w : W) (c : Com) : Except Fin3 (W × Nat) := do
  let g (a : Nat) : Word := c.get a
  let cap (p : Nat) : Word := g (pldReg p)
  let opc (p : Nat) : Word := g (pldReg p + 4)
  let car (p : Nat) : Word := g (pldReg p + 8)
  let ret (p : Nat) : Word := g (pldReg p + 12)
  let thr := sgn 16 (wf (g (weirReg + 8)) 15 0)
  let lim := sgn 16 (wf (g (weirReg + 8)) 31 16)
  chk (decide (wf (g weirReg) 31 16 ≠ 0) || decide (wf (g (weirReg + 4)) 31 16 ≠ 0)) .badValue 1
  chkEach (upTo 24) (fun p =>
    decide (wf (opc p) 31 16 ≠ 0) || wbit (opc p) 11 || wbit (opc p) 7 || wbit (opc p) 3 ||
    decide (wf (car p) 31 16 ≠ 0) || decide (wf (ret p) 23 11 ≠ 0) ||
    decide (5 < wf (opc p) 2 0) || decide (5 < wf (opc p) 6 4) || decide (5 < wf (opc p) 10 8) ||
    decide (5 < wf (opc p) 14 12) || decide (wf (opc p) 10 8 < wf (opc p) 6 4) ||
    decide (wf (car p) 15 0 = 0)) .badValue 1
  chk (decide (lim ≤ thr) || decide (thr < 0) || decide ((if w.part.gradeE then 500 else 420) < lim))
    .budgetInvalid 2
  weirChecks (wf (g weirReg) 15 0) (wf (g (weirReg + 4)) 15 0) cap opc w.floor w.hasHard
  pure ({ w with weir := { w.weir with next := some c.snap } }, 0)

/-! ### Registers -/

/-- WEIR_STATE (13 R531). -/
def Dev.weirState (d : Dev) : Word :=
  w32 (d.weir.st * 2 ^ 30 + b01 d.weir.dip.isSome * 2 ^ 29 + b01 d.weir.dipReset * 2 ^ 28 +
    d.weir.sensor * 65536 + modn 16 d.weir.tmax)

/-- PLD_WEIR_OPSTAT (13 R533). -/
def Dev.opStat (d : Dev) (p : Nat) : Word :=
  let x := d.pol p
  w32 (x.cur * 2 ^ 29 + x.target * 2 ^ 26 + d.floor p * 2 ^ 23 + x.volt * 2 ^ 20 + b01 x.vgo.isSome * 2 ^ 19 +
    b01 (decide (x.cur < d.floor p)) * 2 ^ 18 + b01 x.sleep * 2 ^ 17 +
    b01 (x.ceil.isSome || x.ceilRun.isSome) * 2 ^ 16)

/-- The read-only Weir words of a polder at offsets 0x20 to 0x3C (13 R532). -/
def Dev.polRegs (d : Dev) (p o : Nat) : Word :=
  let x := d.pol p
  match o with
  | 0x20 => d.opStat p
  | 0x24 => w32 x.grant
  | 0x28 => w32i x.bal
  | 0x2C => w32 x.scale
  | 0x30 => w32 x.meter
  | 0x38 => w32 x.laste
  | _ => w32 x.busy

end Sys2Proof.Machine
end

