-- ==== Sys2Proof/Machine/Threads.lean ====
section
/-! DEFINITION. Starting and stopping threads, engine reset and the watchdogs (02 R80 to R83; 13 R520,
R521; 14 R540; 17 R650). -/

namespace Sys2Proof.Machine

/-- PLD_WDT of the thread of key `k` (14 R541). -/
def wdtReg (k : Nat) : Nat := 0x4100C000 + 0x10000 * (k / 32) + 0x40 * (k / 4 % 8) + 4 * (k % 4)

/-- The watchdog of a thread restarts its count now (14 R540). -/
def W.wdRestart (w : W) (k : Nat) : W := w.modTh k fun x => { x with wdFrom := w.now }

/-- An EVQ operation completes: EXP clears and a pending WATCHDOG exception is withdrawn (14 R540). -/
def W.wdKick (w : W) (k : Nat) : W :=
  let w := w.modTh k fun x => { x with wdFrom := w.now, wdPend := false, excs := x.excs.filter fun e => e.vec != 13 }
  if k < 768 then w.setRg (wdtReg k) (wset (w.rg (wdtReg k)) 30 30 0) else w

/-- A thread's watchdog expires: the first time it sets EXP and makes WATCHDOG pending, the second time
it signals the fault controller (14 R540). -/
def W.watchdog (w : W) (k : Nat) : W :=
  let x := w.th k
  let r := w.rg (wdtReg k)
  if 768 ≤ k ∨ !wbit r 31 ∨ x.run = .stopped ∨ x.halted then w
  else
    let w := (w.toTime (x.wdFrom + 64 * wf r 23 0)).wdRestart k
    if wbit r 30 then w.signal 3 (k / 4) (k % 4)
    else (w.setRg (wdtReg k) (wset r 30 30 1)).modTh k fun x => { x with wdPend := true }

/-- A write to PLD_WDT (14 R541). -/
def W.wdtWrite (w : W) (k : Nat) (v : Word) : W :=
  let r := w.rg (wdtReg k)
  if wbit v 31 && decide (wf v 23 0 = 0) then w
  else
    let w := if wbit v 31 && !wbit r 31 then w.wdRestart k else w
    w.setRg (wdtReg k) (w32 (wf v 31 31 * 2 ^ 31 + wf r 30 30 * 2 ^ 30 + wf v 23 0))

/-- A STOPPED thread that is not halted starts in move mode at an address and a ring (02 R81; 08 R314;
17 R650). `held` says that the Weir starts a job on it. DESIGN CHOICE (notes/assumptions/47): what the thread was stopped
inside of, a repetition, a delay slot, a fence, a handler, the shadow of a ring change, is dropped. -/
def W.startThread (w : W) (k : Nat) (pc : Word) (ring : Nat) (held : Bool := false) : W :=
  let x := w.th k
  if x.run ≠ .stopped ∨ x.halted then w
  else
    let w := if held then w else w.jobUnheld k
    (w.modTh k fun x => { x with
      run := .ready, pc := pc, ring := ring, stk := false, shadow := false, ie := false, dfault := false
      rpt := 0, latch := none, br := none, fence := none, under := [], oneMore := false, front := [], bub := 0
      hvSeen := false, rcLeft := 0, rcRing := ring, startIn := w.weir.period }).wdRestart k

/-- A thread stops after its current bundle: operations in flight go on, its job ends (02 R82; 08 R314;
13 R521). -/
def W.stopThread (w : W) (k : Nat) : W :=
  let x := w.th k
  if x.run = .stopped then w
  else (w.setTh k { x with run := .stopped, dfault := false }).jobStopped k false

/-- The Weir starts an admitted job (13 R520). -/
def W.jobStart (w : W) (p j : Nat) : W :=
  let x := w.dsp (dispKey p j)
  let k := tkey (x.eng p) x.thread
  let h := w.th k
  if x.st ≠ 2 ∨ h.run ≠ .stopped ∨ h.halted then w
  else
    let d := tset (tset (tset (tset h.d 0 (w32 x.payload)) 1 (w32 j)) 2 (w32 x.rel)) 3 (w32 (x.rel / 2 ^ 32))
    let w := (w.setTh k { h with d := d }).startThread k x.pc (wf x.ctrl 27 26) true
    w.setDsp (dispKey p j) { w.dsp (dispKey p j) with st := 3 }

/-- A thread after an engine reset: its register file, control registers without reset value and event
queue place are as they were; sockets, shadow registers, work in flight and TS are reset (02 R47, R63,
R80, R88; 08 R300). -/
def Thread.reset (k : Nat) (now : Nat) (x : Thread) : Thread :=
  let f := resetThread k
  { f with
    d := x.d, a := if f.stk then tset x.a 15 (tget 0 f.aSh 15) else x.a, x := x.x, p := x.p
    lk := x.lk, rc := x.rc, spc := x.spc, sst := x.sst, srpt := x.srpt, slim := x.slim, gtbase := x.gtbase
    wdFrom := now, startIn := x.startIn }

/-- An engine reset (02 R80; 05 R179; 06 R248, R682; 08 R300, R315; 09 R365; 12 R453; 13 R521): `hold`
leaves t0 STOPPED (14 R561). -/
def W.engineReset (w : W) (e : Nat) (hold : Bool) : W :=
  let w := (upTo 4).foldl (fun w t =>
    let k := tkey e t
    let w := w.jobStopped k true
    let q := (w.th k).evq
    let w := w.setTh k ((w.th k).reset k w.now)
    let w := if hold then w.modTh k fun x => { x with run := .stopped } else w
    q.foldl (fun w r => w.dropRec k r) w) w
  let w := { w with hv := w.hv.map fun (c : Nat × List HvJob) => (c.1, c.2.filter fun j => decide (j.key / 4 ≠ e)) }
  let w := w.modEn e fun x => { x with strict := false, exposed := false, slots := [], bgLast := [] }
  if e = 192 then w
  else
    let w := (upTo 23).foldl (fun w i => w.setRg (sntReg e + 4 * i) 0) w
    let w := (upTo 5).foldl (fun w i => w.setRg (edmReg e + 4 * i) 0) w
    let w := { w with lat := tdel w.lat (sntReg e + 0x10) }
    (w.setRg (sntReg e + 8) 0x0F800000).setRg (tblReg e + 0x34) 0

end Sys2Proof.Machine
end

