-- ==== Sys2Proof/Machine/Timed.lean ====
section
/-! DEFINITION. Route commits, the tide, timed pins and drive links (file 12, R445 to R501). -/

namespace Sys2Proof.Machine

/-! ### Event routes -/

/-- Target word `j` of source `s` among the bytes of a route commit that starts at source `f`. -/
def routeWord (bs : List Byte) (f s j : Nat) : Word := w32 (wdAt bs (16 * (s - f) + 4 * j))

/-- Whether target word `j` of a source breaks check 3 of R448 (12). -/
def badTarget (g : Nat → Word) (j : Nat) : Bool :=
  decide (wf (g j) 29 18 ≠ 0) || decide (wf (g j) 15 8 ≠ 0) ||
  (decide (191 < wf (g j) 7 0) && decide (wf (g j) 7 0 ≠ 0xFE)) ||
  (wbit (g j) 31 && (upTo j).any fun k =>
    wbit (g k) 31 && decide (wf (g k) 7 0 = wf (g j) 7 0 ∧ wf (g k) 17 16 = wf (g j) 17 16))

/-- A route commit (12 R448): its effect and INDEX, or its failing check. -/
def evrWork (w : W) (c : Com) : Except Fin3 (W × Nat) := do
  let a := (c.get 0x40020000).toNat
  let f := (c.get 0x40020004).toNat
  let n := (c.get 0x40020008).toNat
  chk (decide (2047 < f) || decide (4095 < n) || decide (n = 0) || decide (2048 < f + n) ||
    decide (a % 16 ≠ 0)) .badValue 1
  let (w, r) := w.rdAt .weir a (16 * n)
  let bs ← match r with
    | .ok bs => pure bs
    | .error e => .error { st := e, check := 2, index := 0xFFFF }
  let ss := (upTo n).map (f + ·)
  chkEach ss (fun s => (upTo 4).any (badTarget (routeWord bs f s))) .badValue 3
  chkEach ss (fun s => decide (0x740 ≤ s) && (upTo 4).any fun j => wbit (routeWord bs f s j) 31) .badValue 4
  pure (ss.foldl (fun w s => (upTo 4).foldl
    (fun w j => { w with routes := tset w.routes (4 * s + j) (routeWord bs f s j) }) w) w, 0)

/-! ### The tide -/

/-- Base of the TIDE registers (12 R467). -/
def tideReg : Nat := 0x40030000

/-- The state of the tide set; every change raises a record from 0x5CF, and the count of a lost source
starts anew (12 R463, R464). -/
def W.setTide (w : W) (st : Nat) : W :=
  if w.tide.st = st then w
  else
    let w := { w with tide := { w.tide with st := st, sync := w.now } }
    w.raiseNow 0x5CF st

/-- Whether a STEP is allowed now (12 R465). -/
def Dev.stepOk (d : Dev) : Bool :=
  decide (d.tide.st ≤ 1) && d.net.live.isNone && d.net.armed.isNone &&
  d.tio.all (fun c => decide (c.2.mode = 0 ∨ c.2.mode = 2)) &&
  d.dlk.all (fun c => decide (c.2.st = 0)) && d.tide.cmps.isEmpty

/-- Whether a tide commit breaks check 1 of R469 (12). -/
def tideBad (c : Com) : Bool :=
  let cmd := c.get (tideReg + 8)
  let act := wf cmd 27 24
  decide (act = 0) || decide (5 < act) || decide (wf cmd 21 20 = 3) || decide (29 < wf cmd 4 0) ||
  decide (wf cmd 31 28 ≠ 0) || decide (wf cmd 23 22 ≠ 0) || wbit cmd 19 || decide (wf cmd 15 14 ≠ 0) ||
  decide (wf cmd 11 9 ≠ 0) || decide (wf cmd 7 5 ≠ 0) ||
  (decide (act = 5) && decide (wf (c.get (tideReg + 0x10C + 16 * wf cmd 4 0)) 31 16 ≠ 0))

/-- A tide commit (12 R462, R465, R466, R469): its effect and INDEX, or its failing check. -/
def tideWork (w : W) (c : Com) : Except Fin3 (W × Nat) := do
  let cmd := c.get (tideReg + 8)
  let k := wf cmd 4 0
  let adj := c.get (tideReg + 0xC)
  let stp := (c.get (tideReg + 0x10)).toNat + 2 ^ 32 * (c.get (tideReg + 0x14)).toNat
  let first := (c.get (tideReg + 0x100 + 16 * k)).toNat + 2 ^ 32 * (c.get (tideReg + 0x104 + 16 * k)).toNat
  let per := (c.get (tideReg + 0x108 + 16 * k)).toNat * 65536 + wf (c.get (tideReg + 0x10C + 16 * k)) 15 0
  let t := w.tide
  chk (tideBad c) .badValue 1
  match wf cmd 27 24 with
  | 1 => do
    chk (decide (t.st = 2)) .badValue 4
    pure ({ w with tide := { t with src := wf cmd 21 20, port := wf cmd 18 16 } }, 0)
  | 2 => do
    chk (decide (100000 < adj.toInt.natAbs)) .badValue 2
    pure ({ w with tide := { t with adj := adj } }, 0)
  | 3 => do
    chk (!w.stepOk) .badValue 3
    pure ({ w with tide := { t with count := (t.count + stp) % 2 ^ 64 } }, 0)
  | 4 => do
    let ns := wf cmd 13 12
    chk ((decide (ns = 2) && decide (t.src = 0)) || (decide (ns = 3) && decide (t.st ≠ 2))) .badValue 4
    pure (w.setTide ns, 0)
  | _ => do
    chk (wbit cmd 8 && (decide (first < c.acc + 1024) || (decide (per ≠ 0) && decide (per < 1024 * 65536))))
      .badValue 5
    let cmps := if wbit cmd 8 then tset t.cmps k { n := first * 65536, p := per } else tdel t.cmps k
    pure ({ w with tide := { t with cmps := cmps } }, 0)

/-- The action that a tide commit under way names. -/
def Dev.tideAction (d : Dev) : Nat := wf ((d.cm .tide).get (tideReg + 8)) 27 24

/-- Whether the tide commit under way enables a comparator. -/
def Dev.tideEnables (d : Dev) : Bool := wbit ((d.cm .tide).get (tideReg + 8)) 8

/-- Comparator `k` fires at its next time (12 R466). -/
def W.cmpFire (w : W) (k : Nat) : W :=
  match tfind w.tide.cmps k with
  | none => w
  | some c =>
    let t := c.n / 65536
    let w := w.toTime t
    let cmps := if c.p = 0 then tdel w.tide.cmps k
      else tset w.tide.cmps k { c with n := c.n + c.p, fires := c.fires + 1 }
    W.raise { w with tide := { w.tide with cmps := cmps } } (0x5B0 + k) c.fires t

/-- A PPS edge at a fraction of the present nanosecond (12 R464). -/
def W.ppsEdge (w : W) (frac : Nat) : W :=
  let t := w.now
  let w := ((w.setRg (tideReg + 0x2C) (w32 t)).setRg (tideReg + 0x30) (w32 (t / 2 ^ 32))).setRg
    (tideReg + 0x34) (w32 (frac % 65536))
  let w := if w.tide.src = 1 ∧ w.tide.st = 2 then { w with tide := { w.tide with sync := t } } else w
  w.raise 0x5CE (frac % 65536 * 65536) t

/-- A locked tide has lost its source for 1,100 ms (12 R464). -/
def W.holdover (w : W) : W :=
  if w.tide.st = 2 ∧ w.tide.src ≠ 0 then (w.toTime (w.tide.sync + 1100000000)).setTide 3 else w

/-! ### Timed pins -/

/-- T-pin `n`. -/
def Dev.pin (d : Dev) (n : Nat) : Pin := tget {} d.tio n

/-- T-pin `n` replaced. -/
def W.setPin (w : W) (n : Nat) (p : Pin) : W := { w with tio := tset w.tio n p }

/-- DUAL of a pin. -/
def Pin.dual (p : Pin) : Bool := wbit p.cfg 18

/-- Whether side `b` is configured (12 R472, R479). -/
def Pin.has (p : Pin) (b : Bool) : Bool :=
  if b then p.dual && decide (wf p.p1 23 16 ≠ 0xFF) else decide (wf p.p1 7 0 ≠ 0xFF)

/-- OWNER of a side (12 R472). -/
def Pin.owner (p : Pin) (b : Bool) : Nat := if b then wf p.p1 23 16 else wf p.p1 7 0

/-- Whether a side is live. -/
def Pin.alive (p : Pin) (b : Bool) : Bool := if b then p.live.2 else p.live.1

/-- A side made live or withdrawn. -/
def Pin.setLive (p : Pin) (b v : Bool) : Pin := { p with live := if b then (p.live.1, v) else (v, p.live.2) }

/-- Depth of the queue or FIFO (12 R485, R487). -/
def Pin.depth (p : Pin) : Nat := if p.mode = 2 then p.fifo.length else p.queue.length

/-- A status record of a pin (12 R485). -/
def W.pinStatus (w : W) (n kind : Nat) (b : Bool := false) (tag : Nat := 0) : W :=
  w.raiseNow (2 * n + 1) (kind * 2 ^ 28 + b01 b * 2 ^ 24 + tag % 256 * 65536 + (w.pin n).depth)

/-- The time at which an entry fires. -/
def Edge.due (e : Edge) : Nat := e.late.getD e.time

/-- An entry placed in the queue by its time, with LATE where its time is less than 64 ns away
(12 R475). The queue keeps the order of processing. -/
def W.placeEdge (w : W) (n : Nat) (e : Edge) (b : Bool) : W :=
  let p := w.pin n
  let soon := w.now + 64
  if e.time < soon then
    (w.setPin n { p with queue := p.queue ++ [{ e with late := some soon }] }).pinStatus n 2 b e.tag
  else w.setPin n { p with queue := p.queue ++ [{ e with late := none }] }

/-- Whether an entry can pair with a push of side `b` with a tag (12 R477, R478). -/
def Edge.pairs (e : Edge) (b : Bool) (tag : Nat) : Bool :=
  decide (e.tag = tag) && (e.b != b) && !e.paired && !e.nopair

/-- A list with the first element that satisfies `p` changed by `f`. -/
def mapFirst {α : Type} (p : α → Bool) (f : α → α) : List α → List α
  | [] => []
  | x :: r => if p x then f x :: r else x :: mapFirst p f r

/-- A push pairs with an entry of the other side: it confirms it, or side A's values are taken and
SPLIT is raised (12 R477). -/
def W.pairEdge (w : W) (n : Nat) (b : Bool) (t : Nat) (level : Bool) (tag : Nat) (e : Edge) (fired : Bool) : W :=
  let p := w.pin n
  let sel := fun x : Edge => x.pairs b tag
  let done := fun x : Edge => { x with paired := true }
  if e.time = t ∧ e.level = level then
    w.setPin n { p with queue := mapFirst sel done p.queue
                        hist := if fired then mapFirst sel done p.hist else p.hist }
  else
    let w := w.pinStatus n 5 b tag
    let p := w.pin n
    if fired then w.setPin n { p with hist := mapFirst sel done p.hist }
    else if b then w.setPin n { p with queue := mapFirst sel done p.queue }
    else
      let w := w.setPin n { p with queue := p.queue.filter fun x => !sel x }
      w.placeEdge n { done e with time := t, level := level } false

/-- An accepted push of an entry on a live side of a pin in mode OUT (12 R475 to R477). -/
def W.pushEdge (w : W) (n : Nat) (b : Bool) (t : Nat) (level : Bool) (tag : Nat) : W :=
  let p := w.pin n
  let new : Edge := { time := t, level := level, tag := tag, b := b }
  let add (w : W) : W :=
    if 16 ≤ (w.pin n).queue.length then w.pinStatus n 3 b tag else w.placeEdge n new b
  if !p.dual then add w
  else if (p.queue ++ p.hist).any fun e => decide (e.tag = tag) && (e.b == b) && !e.paired then
    w.pinStatus n 4 b tag
  else
    match p.queue.find? (fun e => e.pairs b tag), p.hist.find? (fun e => e.pairs b tag) with
    | some e, _ => w.pairEdge n b t level tag e false
    | none, some e => w.pairEdge n b t level tag e true
    | none, none => add w

/-- A pin drives SAFE (12 R479). -/
def W.driveSafe (w : W) (n : Nat) : W :=
  let p := w.pin n
  (w.setPin n { p with level := wbit p.cfg 22, safed := true }).pinStatus n 8

/-- A pin whose last configured side is withdrawn enters HOLD (12 R479). -/
def W.pinHold (w : W) (n : Nat) : W :=
  let p := w.pin n
  if !p.hold && !(p.has false && p.live.1) && !(p.has true && p.live.2) then
    let w := (w.setPin n { p with hold := true }).pinStatus n 7
    if p.p0 ≠ 0 ∧ p.queue.isEmpty then w.driveSafe n else w
  else w

/-- A side of a pin is withdrawn (12 R478): queued entries stay, and none of the pin's entries pairs
any more. -/
def W.pinWithdraw (w : W) (n : Nat) (b : Bool) : W :=
  let p := w.pin n
  if p.mode = 1 && p.has b && p.alive b then
    let no := fun x : Edge => { x with nopair := true }
    let w := w.setPin n { p.setLive b false with queue := p.queue.map no, hist := p.hist.map no }
    (w.pinStatus n 6 b).pinHold n
  else w

/-- A withdrawn side of a pin becomes live again (12 R480): the entries there now do not pair with its
later pushes. -/
def W.pinJoin (w : W) (n : Nat) (b : Bool) : W :=
  let p := w.pin n
  if p.mode = 1 && p.has b && !p.alive b then
    let no := fun x : Edge => { x with nopair := true }
    w.setPin n { p.setLive b true with hold := false, queue := p.queue.map no, hist := p.hist.map no }
  else w

/-- An accepted write to TIO_x_PUSH (12 R474, R478). -/
def W.tioPush (w : W) (n : Nat) (b : Bool) (v : Word) : W :=
  let p := w.pin n
  if wbit v 30 then w.pinWithdraw n b
  else if !p.alive b then w
  else
    let o := tioReg n + (if b then 0x2C else 0x20)
    w.pushEdge n b ((w.rg o).toNat + 2 ^ 32 * (w.rg (o + 4)).toNat) (wbit v 31) (wf v 7 0)

/-- The entry that fires first: earliest due, and of equal times the one processed first (12 R475). -/
def firstEdge : List Edge → Option Edge
  | [] => none
  | e :: r =>
    match firstEdge r with
    | some x => if x.due < e.due then some x else some e
    | none => some e

/-- The first queued entry of a pin fires (12 R475, R477, R485). -/
def W.edgeFire (w : W) (n : Nat) : W :=
  match firstEdge (w.pin n).queue with
  | none => w
  | some e =>
    let w := w.toTime e.due
    let p := w.pin n
    let rest := p.queue.erase e
    let covered := rest.any fun x => decide (e.due ≤ x.due) && decide (x.due < e.due + 4)
    let w := w.setPin n { p with
      queue := rest, hist := (p.hist ++ [e]).drop (p.hist.length + 1 - 16), fired := (p.fired + 1) % 65536
      lastFire := w.now, level := if covered then p.level else e.level
      safed := if covered then p.safed else false }
    if wbit p.cfg 23 && decide (rest.length = wf p.cfg 27 24) then w.pinStatus n 1 else w

/-- SAFEDELAY expires on a held pin with an empty queue (12 R479). -/
def W.safeDrive (w : W) (n : Nat) : W :=
  let p := w.pin n
  if p.mode = 1 && p.hold && !p.safed && p.queue.isEmpty && p.p0 != 0 then
    (w.toTime (p.lastFire + p.p0.toNat)).driveSafe n
  else w

/-- An accepted change of a capture pin's input at tide time `t` and fraction `frac`, seen FILT ns
later (12 R481). -/
def W.captureEdge (w : W) (n : Nat) (ball : Bool) (t frac : Nat) : W :=
  let p := w.pin n
  if p.mode ≠ 2 then w.setPin n { p with ball := ball }
  else
    let w := (w.toTime (t + wf p.p0 15 0)).setPin n { p with ball := ball }
    let lv := ball != wbit p.cfg 19
    if (if lv then wbit p.cfg 16 else wbit p.cfg 17) then
      let p := w.pin n
      let w := if p.fifo.length < 16 then w.setPin n { p with fifo := p.fifo ++ [(t, frac % 65536, lv)] }
        else w.pinStatus n 9
      w.raise (2 * n) (frac % 65536 * 65536 + b01 lv) t
    else w

/-- A read of TIO_CAP_LO pops the FIFO head (12 R486). -/
def W.capPop (w : W) (n : Nat) : W × Word :=
  let p := w.pin n
  match p.fifo with
  | [] => ({ w.setPin n { p with popped := none } with lat := tset w.lat (tioReg n + 0x3C) 0 }, 0)
  | (t, f, l) :: r =>
    ({ w.setPin n { p with fifo := r, popped := some (f, l) } with
        lat := tset w.lat (tioReg n + 0x3C) (w32 (t / 2 ^ 32)) }, w32 t)

/-- The position of a quadrature pair in its cycle, in the order in which A leads B. -/
def quadPos (a b : Bool) : Nat := if a then (if b then 2 else 1) else (if b then 3 else 0)

/-- The filtered levels of a pair, as the levels at its balls and INV give them (12 R482, R487). -/
def Dev.pairLevels (d : Dev) (n : Nat) (inv : Bool) : Bool × Bool := ((d.pin n).ball != inv, (d.pin (n + 1)).ball != inv)

/-- The level at the ball of pin `n`. -/
def W.setBall (w : W) (n : Nat) (b : Bool) : W := w.setPin n { w.pin n with ball := b }

/-- Filtered levels of a QDEC or SDEC pair (12 R482), given at the balls. -/
def W.encCount (w : W) (n : Nat) (a b : Bool) : W :=
  let p := w.pin n
  let w := if p.mode = 4 ∨ p.mode = 5 then (w.setBall n a).setBall (n + 1) b else w
  let p := { p with ball := a }
  let a := a != wbit p.cfg 19
  let b := b != wbit p.cfg 19
  let q := { p with ab := (a, b) }
  if p.mode = 4 then
    match (quadPos a b + 4 - quadPos p.ab.1 p.ab.2) % 4 with
    | 0 => w.setPin n q
    | 1 => w.setPin n { q with value := p.value + 1 }
    | 3 => w.setPin n { q with value := p.value - 1 }
    | _ => (w.setPin n q).pinStatus n 10
  else if p.mode = 5 then
    if a && !p.ab.1 then w.setPin n { q with value := if b then p.value + 1 else p.value - 1 }
    else w.setPin n q
  else w

/-- Whether `t` lies ahead (or is now) and is a multiple of a nonzero period. -/
def onGrid (now t per : Nat) : Bool := decide (per ≠ 0) && decide (t % per = 0) && decide (now ≤ t)

/-- The sample record of a QDEC or SDEC pair at a multiple `t` of SAMPLE (12 R482). -/
def W.encSample (w : W) (n t : Nat) : W :=
  let p := w.pin n
  if (p.mode = 4 ∨ p.mode = 5) ∧ onGrid w.now t p.p0.toNat then (w.toTime t).raise (2 * n) p.value.toNat t
  else w

/-- A PWM period begins at a multiple `t` of PERIOD, with the values then in force (12 R483). -/
def W.pwmPeriod (w : W) (n t : Nat) : W :=
  let p := w.pin n
  if p.mode = 3 ∧ onGrid w.now t p.p0.toNat then
    (w.toTime t).setPin n { p with period := p.p0.toNat, duty := p.p1.toNat }
  else w

/-- The binary value of an `n`-bit Gray code (12 R484). -/
def grayBits : Nat → Nat → Nat
  | 0, _ => 0
  | n + 1, x => x ^^^ grayBits n (x / 2)

/-- An SSI frame at a multiple `t` of SAMPLE: `ready` is the level of the data ball then, `bits` its levels as the
NBITS bits are sampled, most significant first (12 R484, R487). The frame ends with the last of its NBITS + 1 clock
periods of 2 × HALF ns; before and after it the clock is at 1. -/
def W.ssiFrame (w : W) (n t : Nat) (ready : Bool) (bits : Nat) : W :=
  let p := w.pin n
  if p.mode = 6 ∧ onGrid w.now t p.p0.toNat then
    let w := (w.toTime t).setBall (n + 1) ready
    if ready == wbit p.cfg 19 then w.pinStatus n 10
    else
      let nb := wf p.p1 5 0
      let x := (bits % 2 ^ nb) ^^^ (if wbit p.cfg 19 then 2 ^ nb - 1 else 0)
      let v := if wbit p.p1 6 then grayBits nb x else x
      let w := (w.toTime (t + 2 * wf p.p1 19 8 * (nb + 1))).setBall (n + 1) (bits.testBit 0)
      (w.setPin n { p with value := w32 v }).raise (2 * n) v t
  else w

/-- The level that an output pin drives now, before INV (12 R483, R484, R486): an SSI clock idles at 1. -/
def Dev.pinDriven (d : Dev) (n : Nat) : Bool :=
  let p := d.pin n
  match p.mode with
  | 3 => decide (p.period ≠ 0) && decide (d.now % p.period < p.duty)
  | 6 => true
  | _ => p.level

/-- Whether an owner code is one of R472 (12). -/
def ownerCode (x : Nat) : Bool := decide (x < 192) || decide (x = 0xFE) || decide (x = 0xFF)

/-- Whether two owners fit DUAL (12 R472). -/
def ownersOk (dual : Bool) (a b : Nat) : Bool :=
  ownerCode a && ownerCode b &&
  (if dual then decide (a ≠ b) && decide (a ≠ 0xFF) && decide (b ≠ 0xFF) else decide (b = 0xFF))

/-- Whether a bit is set that the parameters of a mode leave unnamed: such a bit is reserved and fails check 1 (12
R472, R488; 00 R11). -/
def paramsReserved (mode : Nat) (p0 p1 : Word) : Bool :=
  match mode with
  | 1 => decide (wf p1 31 24 ≠ 0) || decide (wf p1 15 8 ≠ 0)
  | 2 => decide (wf p0 31 16 ≠ 0)
  | 4 | 5 => decide (wf p1 31 16 ≠ 0)
  | 6 => wbit p1 7
  | _ => false

/-- Check 3 of a pin commit: the parameters of a mode; one that the table does not name is 0 (12 R472). -/
def paramsOk (mode : Nat) (dual : Bool) (p0 p1 : Word) : Bool :=
  match mode with
  | 0 => p0 == 0 && p1 == 0
  | 1 => ownersOk dual (wf p1 7 0) (wf p1 23 16)
  | 2 => p1 == 0
  | 3 => decide (16 ≤ p0.toNat) && decide (p1.toNat ≤ p0.toNat)
  | 4 | 5 => true
  | 6 =>
    let nb := wf p1 5 0
    decide (1 ≤ nb ∧ nb ≤ 32) && decide (50 ≤ wf p1 19 8) && decide (1 ≤ wf p1 31 20) &&
      decide (2 * wf p1 19 8 * (nb + 1) + 64 * wf p1 31 20 ≤ p0.toNat)
  | _ => false

/-- Whether pin `n` shows PAIRED (12 R471). -/
def Dev.pinPaired (d : Dev) (n : Nat) : Bool := decide (n % 2 = 1) && decide (4 ≤ (d.pin (n - 1)).mode)

/-- A pin commit (12 R479, R480, R482, R488): its effect and INDEX, or its failing check. A pin that stays in OUT and
whose configured sides are then all withdrawn enters HOLD; a pair starts from the levels at its balls. -/
def tioWork (n : Nat) (w : W) (c : Com) : Except Fin3 (W × Nat) := do
  let cfg := c.get (tioReg n)
  let p0 := c.get (tioReg n + 4)
  let p1 := c.get (tioReg n + 8)
  let mode := wf cfg 2 0
  let p := w.pin n
  chk (decide (wf cfg 31 28 ≠ 0) || decide (wf cfg 15 14 ≠ 0) || decide (wf cfg 10 3 ≠ 0) ||
    decide (mode = 7) || (decide (mode = 2) && decide (wf cfg 17 16 = 0)) || paramsReserved mode p0 p1) .badValue 1
  chk (decide (n % 2 = 1) && (decide (4 ≤ mode) || w.pinPaired n)) .pinConflict 2 (n - 1)
  chk (decide (4 ≤ mode) && decide ((w.pin (n + 1)).mode ≠ 0)) .pinConflict 2 (n + 1)
  chk (!paramsOk mode (wbit cfg 18) p0 p1) .badValue 3
  let flush := wbit cfg 11
  chk (!flush && (!p.queue.isEmpty || !p.fifo.isEmpty) &&
    (decide (mode ≠ p.mode) || (wbit cfg 18 != wbit p.cfg 18) || (wbit cfg 19 != wbit p.cfg 19))) .badValue 4
  let q := { p with mode := mode, cfg := cfg, p0 := p0, p1 := p1 }
  let q := if flush then { q with queue := [], hist := [], fifo := [] } else q
  if mode = 1 then
    if p.mode = 1 then
      let w := w.setPin n { q with live := (p.live.1 && q.has false, p.live.2 && q.has true) }
      let w := if flush then w.driveSafe n else w
      let w := if wbit cfg 12 then w.pinJoin n false else w
      let w := if wbit cfg 13 then w.pinJoin n true else w
      pure (if q.has false || q.has true then w.pinHold n else w, 0)
    else
      pure (w.setPin n { q with
        live := (q.has false, q.has true), hold := false, safed := false, hist := [], level := wbit cfg 21 }, 0)
  else
    let q := { q with live := (false, false), hold := false, safed := false, hist := [] }
    let q := if mode = 3 && p.mode = 3 then q else { q with period := 0, duty := 0 }
    let q := if mode = p.mode && (wbit cfg 19 == wbit p.cfg 19) then q else { q with ab := w.pairLevels n (wbit cfg 19) }
    pure (w.setPin n (if mode = p.mode then q else { q with popped := none }), 0)

/-- TIO_STATUS (12 R487). -/
def Dev.tioStatus (d : Dev) (n : Nat) : Word :=
  let p := d.pin n
  let out := (d.pinDriven n) != wbit p.cfg 19
  let ball := if p.mode = 1 ∨ p.mode = 3 ∨ p.mode = 6 then (if out && wbit p.cfg 20 then p.ball else out) else p.ball
  w32 ((if d.pinPaired n then 7 else p.mode) * 2 ^ 29 + b01 ball * 2 ^ 28 + b01 p.live.1 * 2 ^ 27 +
    b01 p.live.2 * 2 ^ 26 + b01 p.hold * 2 ^ 25 + b01 p.safed * 2 ^ 24 + p.depth * 2 ^ 16 + p.fired)

/-- TIO_VALUE (12 R486). -/
def Dev.tioValue (d : Dev) (n : Nat) : Word :=
  let p := d.pin n
  match p.mode with
  | 1 | 3 => w32 (b01 (d.pinDriven n))
  | 2 =>
    match p.popped with
    | some (f, l) => w32 (f * 65536 + 2 + b01 l)
    | none => 0
  | 4 | 5 | 6 => p.value
  | _ => 0

/-! ### Drive links -/

/-- Drive link `n`. -/
def Dev.link (d : Dev) (n : Nat) : Link := tget {} d.dlk n

/-- Drive link `n` replaced. -/
def W.setLink (w : W) (n : Nat) (l : Link) : W := { w with dlk := tset w.dlk n l }

/-- DUAL of a link. -/
def Link.dual (l : Link) : Bool := wbit l.cfg 15

/-- OWNER of a side of a link (12 R499). -/
def Link.owner (l : Link) (b : Bool) : Nat := if b then wf l.cfg 31 24 else wf l.cfg 23 16

/-- Whether a side of a link is configured. -/
def Link.has (l : Link) (b : Bool) : Bool := decide (l.owner b ≠ 0xFF) && (!b || l.dual)

/-- Whether a side of a link is live. -/
def Link.alive (l : Link) (b : Bool) : Bool := if b then l.live.2 else l.live.1

/-- A side of a link made live or withdrawn. -/
def Link.setLive (l : Link) (b v : Bool) : Link := { l with live := if b then (l.live.1, v) else (v, l.live.2) }

/-- The exchange time of cycle `c` (12 R491). -/
def Link.tc (l : Link) (c : Nat) : Nat := c * l.period + l.phase

/-- A record of a link about a cycle: `k` selects 0x180 + 4n + k (12 R443, R497). -/
def W.linkRec (w : W) (n k kind c : Nat) (b : Bool := false) (elem : Nat := 0) : W :=
  w.raise (0x180 + 4 * n + k) (kind * 2 ^ 28 + b01 b * 2 ^ 24 + elem % 256 * 65536 + c % 65536) ((w.link n).tc c)

/-- The CRC of R197 (05) over frame bits, most significant coefficient first. -/
def crc16Bits : Nat → List Bool → Nat
  | c, [] => c
  | c, b :: r =>
    let top := (c / 32768 == 1) != b
    let s := c * 2 % 65536
    crc16Bits (if top then s ^^^ 0x1021 else s) r

/-- Frame bits `f` to `p - 1`. -/
def frameBits (fr : List Bool) (f p : Nat) : List Bool := (fr.drop f).take (p - f)

/-- The value of frame bits, bit 0 first. -/
def bitsNat : List Bool → Nat
  | [] => 0
  | b :: r => b01 b + 2 * bitsNat r

/-- The low `n` bits of a value, bit 0 first. -/
def natBits : Nat → Nat → List Bool
  | 0, _ => []
  | n + 1, x => x.testBit 0 :: natBits n (x / 2)

/-- A frame with bits put from position `p` on. -/
def putBits (fr : List Bool) (p : Nat) (bs : List Bool) : List Bool :=
  fr.take p ++ bs ++ fr.drop (p + bs.length)

/-- The frame that a transmit table makes of source words (05 R197, class 0). -/
def frameOf (t : Fmt) (src : List Word) : List Bool :=
  t.els.foldl (fun fr e =>
    let bits := match e.opk with
      | 0x01 => natBits e.len e.arg.toNat
      | 0x02 => natBits e.len ((src.getD (wf e.arg 7 0) 0).toNat / 2 ^ wf e.arg 20 16)
      | _ => (natBits 16 (crc16Bits 0xFFFF (frameBits fr (wf e.arg 11 0) e.pos))).reverse
    putBits fr e.pos bits) (List.replicate t.outlen false)

/-- The first receive element that rejects a frame (05 R197, class 1). -/
def badElem (t : Fmt) (fr : List Bool) : Option Nat :=
  t.els.findIdx? fun e =>
    match e.opk with
    | 0x05 => crc16Bits 0xFFFF (frameBits fr (wf e.arg 11 0) e.pos) !=
        bitsNat (frameBits fr e.pos (e.pos + 16)).reverse
    | 0x06 => bitsNat (frameBits fr e.pos (e.pos + e.len)) != e.arg.toNat % 2 ^ e.len
    | _ => false

/-- Destination words with the TAKE fields of a frame written (05 R197). -/
def takeFields (t : Fmt) (fr : List Bool) (dst : List Word) : List Word :=
  t.els.foldl (fun d e =>
    if e.opk = 0x04 then
      let k := wf e.arg 7 0
      let b := wf e.arg 20 16
      d.set k (wset (d.getD k 0) (b + e.len - 1) b (bitsNat (frameBits fr e.pos (e.pos + e.len))))
    else d) dst

/-- SRCLEN of a transmit table: without one, a set has no words (12 R492). -/
def srcWords (t : Option Fmt) : Nat := match t with | some t => t.srclen | none => 0

/-- The words of a set over `k` words: those that its push did not copy, because another table was in force then,
are bits of a free value (12 R492, R496; notes/assumptions/61). -/
def padWords (k from' : Nat) (v : BitVec 1536) (ws : List Word) : List Word :=
  ws ++ (upTo (k - ws.length)).map fun i => v.extractLsb' (32 * (from' + i)) 32

/-- A link whose sets for cycle `c`, and the set last sent, hold the words that its transmit table reads. -/
def Link.pad (l : Link) (c : Nat) (v : BitVec 1536) : Link :=
  let k := srcWords l.tx
  { l with
    sets := l.sets.map fun s => if s.cycle = c then { s with words := padWords k (if s.b then 16 else 0) v s.words } else s
    lastSet := l.lastSet.map (padWords k 32 v) }

/-- Whether a set that the exchange of cycle `c` can send lacks words of the transmit table. -/
def Link.short (l : Link) (c : Nat) : Bool :=
  (l.sets.any fun s => decide (s.cycle = c) && decide (s.words.length < srcWords l.tx)) ||
  l.lastSet.any fun ws => decide (ws.length < srcWords l.tx)

/-- A push of a data set on a live side (12 R492). -/
def W.pushSet (w : W) (n : Nat) (b : Bool) (tag : Nat) : W :=
  let l := w.link n
  let c := l.next.toNat
  let d := (tag + 65536 - c % 65536) % 65536
  if 4 ≤ d then w.linkRec n 3 7 (c + d) b
  else if l.tc (c + d) ≤ w.now + l.lead + 256 then w.linkRec n 3 6 (c + d) b
  else
    let o := dlkReg n + (if b then 0x140 else 0x100)
    let k := match l.armed with
      | some (t, _, sw) => srcWords (if sw ≤ l.tc (c + d) then t else l.tx)
      | none => srcWords l.tx
    let set : DSet := { cycle := c + d, b := b, words := (upTo k).map fun i => w.rg (o + 4 * i) }
    w.setLink n { l with sets := (l.sets.filter fun s => !(decide (s.cycle = c + d) && s.b == b)) ++ [set] }

/-- A side of a link is withdrawn (12 R494). -/
def W.linkWithdraw (w : W) (n : Nat) (b : Bool) : W :=
  let l := w.link n
  if l.st ≠ 0 && l.has b && l.alive b then
    let l := { l.setLive b false with wdAt := if b then (l.wdAt.1, w.now) else (w.now, l.wdAt.2) }
    let w := (w.setLink n l).linkRec n 3 3 l.next.toNat b
    if l.st = 1 ∧ !(l.has false && l.live.1) ∧ !(l.has true && l.live.2) then
      (w.setLink n { l with st := 2 }).linkRec n 3 4 l.next.toNat
    else w
  else w

/-- A withdrawn side of a link becomes live, with no pending set (12 R494; 14 R564). -/
def W.linkJoin (w : W) (n : Nat) (b : Bool) : W :=
  let l := w.link n
  if l.st ≠ 0 && l.has b && !l.alive b then
    w.setLink n { l.setLive b true with st := 1, sets := l.sets.filter fun s => s.b != b }
  else w

/-- An accepted write to DLK_x_PUSH (12 R492, R494). -/
def W.dlkPush (w : W) (n : Nat) (b : Bool) (v : Word) : W :=
  if wbit v 30 then w.linkWithdraw n b
  else if (w.link n).alive b then w.pushSet n b (wf v 15 0)
  else w

/-- A link stops: pending sets are discarded (12 R494, R500). A frame under way is still sent: DE stays asserted to its
end (R491). -/
def Link.halt (l : Link) : Link :=
  { l with st := 0, sets := [], live := (false, false), window := none, stopReq := false }

/-- The set that a link sends for cycle `c`, and the record that the selection raises: its kind and
side; two sets are compared over SRCLEN words (12 R493, R494). `none` for the set sends no frame. -/
def Link.select (l : Link) (c : Nat) : Option (List Word) × Option (Nat × Bool) × Bool :=
  let get (b : Bool) : Option (List Word) := (l.sets.find? fun s => decide (s.cycle = c) && s.b == b).map (·.words)
  if l.st = 2 then
    let both := decide (l.wdAt.1 = l.wdAt.2)
    let r := if !l.dual then get false
      else if both then (match get false with | some s => some s | none => get true)
      else get (decide (l.wdAt.1 < l.wdAt.2))
    (r, none, r.isNone)
  else
    let a := l.has false && l.live.1
    let b := l.has true && l.live.2
    match (if a then get false else none), (if b then get true else none) with
    | some x, some y => (some x, if x.take (srcWords l.tx) = y.take (srcWords l.tx) then none else some (1, false), false)
    | some x, none => (some x, if b then some (2, false) else none, false)
    | none, some y => (some y, if a then some (2, true) else none, false)
    | none, none => (if wbit l.cfg 13 then none else l.lastSet, some (0, false), false)

/-- The exchange of a link's next cycle (12 R491 to R497): DE is asserted from now, t_c − LEAD, to t_e + TRAIL. -/
def W.dlkExchange (w : W) (n : Nat) : W :=
  let l := w.link n
  if l.st = 0 ∨ l.stopReq then w
  else
    let c := l.next.toNat
    let t := l.tc c
    let w := w.toTime (t - l.lead)
    let l := match l.armed with
      | some (tx, rx, sw) => if sw ≤ t then { l with tx := tx, rx := rx, armed := none } else l
      | none => l
    let (l, w) := if l.short c then let (v, w) := w.fresh 1536; (l.pad c v, w) else (l, w)
    let (set, r, stop) := l.select c
    let w := match r with
      | some (0, _) => (w.linkRec n 1 2 c).bump (dlkReg n + 0x48)
      | some (1, _) => (w.linkRec n 3 1 c).bump (dlkReg n + 0x4C)
      | some (k, b) => w.linkRec n 3 k c b
      | none => w
    if stop then (w.setLink n l.halt).linkRec n 3 5 c
    else
      let fr := match l.tx, set with
        | some tb, some s => frameOf tb s
        | _, _ => []
      let out := match l.tx with | some tb => tb.outlen | none => 0
      let te := t + out * l.bit
      let w := w.setLink n { l with
        next := l.next + 1, sets := l.sets.filter fun s => decide (c < s.cycle)
        lastSet := match set with | some s => some s | none => l.lastSet
        frame := fr, deEnd := if fr.isEmpty then l.deEnd else te + l.trail
        window := if l.rx.isSome then some (te + l.rxdelay, te + l.rxdelay + l.rxwin) else none }
      if wbit l.cfg 14 then w.linkRec n 1 1 c else w

/-- The receive window of a link closes; a link asked to stop stops (12 R500). -/
def W.closeWindow (w : W) (n : Nat) : W :=
  let l := w.link n
  if l.stopReq then w.setLink n l.halt else w.setLink n { l with window := none }

/-- A frame that begins at tide time `t` with the given bits: `coded` is false when a Manchester bit
had no transition at its middle (12 R495, R497). The link ignores DLn_RX while it drives DLn_DE (R489). -/
def W.dlkReceive (w : W) (n t : Nat) (bits : List Bool) (coded : Bool) : W :=
  let l := w.link n
  match l.window, l.rx with
  | some (lo, hi), some tb =>
    if t < lo ∨ hi ≤ t ∨ t < l.deEnd then w
    else
      let c := (l.next - 1).toNat
      let w := w.toTime (t + tb.outlen * l.bit)
      let fr := (bits ++ List.replicate tb.outlen (bits.getLastD true)).take tb.outlen
      let err (w : W) (i : Nat) : W := (w.linkRec n 2 2 c false i).bump (dlkReg n + 0x50)
      let w :=
        if wbit l.cfg 12 && !coded then err w 0xFF
        else
          match badElem tb fr with
          | some i => err w i
          | none =>
            let o := dlkReg n + 0x180
            let ws := takeFields tb fr ((upTo 16).map fun i => w.rg (o + 4 * i))
            let w := (upTo 16).foldl (fun w i => w.setRg (o + 4 * i) (ws.getD i 0)) w
            let w := (w.setRg (dlkReg n + 0x54) (w32 t)).setRg (dlkReg n + 0x58) (w32 (t / 2 ^ 32))
            w.raise (0x180 + 4 * n) (ws.getD 0 0).toNat t
      w.closeWindow n
  | _, _ => w

/-- A receive window closes with no frame (12 R495, R497). -/
def W.dlkTimeout (w : W) (n : Nat) : W :=
  let l := w.link n
  match l.window with
  | some (_, hi) =>
    (((w.toTime hi).linkRec n 2 1 (l.next - 1).toNat).bump (dlkReg n + 0x50)).closeWindow n
  | none => w

/-- Tables read for a link under check 4 and 5 of R501 (12). -/
def dlkTable (cls : Nat) (r : Except Fin3 Fmt) : Except Fin3 Fmt :=
  match r with
  | .error e => .error { e with check := if e.check = 7 then 4 else 5 }
  | .ok f =>
    if f.cls ≠ cls ∨ 64 < f.els.length ∨ 16 < f.srclen then
      .error { st := .badValue, check := 5, index := 0xFFFF }
    else .ok f

/-- A table at an address, or no table at address 0 (12 R496). -/
def W.optFmt (w : W) (a : Word) : W × Option (Except Fin3 Fmt) :=
  if a = 0 then (w, none) else ((w.readFmt .weir a.toNat).1, some (w.readFmt .weir a.toNat).2)

/-- Whether a table could not be read. -/
def readFailed (r : Option (Except Fin3 Fmt)) : Bool :=
  match r with
  | some (.error e) => decide (e.check = 7)
  | _ => false

/-- The transmit and receive tables of a commit, or its failing check (12 R501 checks 4 and 5). -/
def dlkTables (t r : Option (Except Fin3 Fmt)) : Except Fin3 (Option Fmt × Option Fmt) := do
  let tx := match t with | some x => (dlkTable 0 x).map some | none => .ok none
  let rx := match r with | some x => (dlkTable 1 x).map some | none => .ok none
  if !readFailed t && readFailed r then
    let b ← rx
    pure (none, b)
  else do
    let a ← tx
    let b ← rx
    pure (a, b)

/-- Check 6 of a link commit: whether an exchange fits in PERIOD (12 R501). -/
def dlkFits (lead trail bit rxd rxw period : Nat) (tx rx : Option Fmt) : Bool :=
  let out := match tx with | some t => t.outlen | none => 0
  decide (lead + out * bit + max trail (if rx.isSome then rxd + rxw else 0) < period)

/-- A link commit (12 R496, R500, R501): its effect and INDEX, or its failing check. -/
def dlkWork (n : Nat) (w : W) (c : Com) : Except Fin3 (W × Nat) := do
  let g (o : Nat) : Word := c.get (dlkReg n + o)
  let cmd := g 0x2C
  let act := wf cmd 27 24
  let cfg := g 0
  let l := w.link n
  let bit := (g 4).toNat
  let per := (g 8).toNat
  let pha := (g 0xC).toNat
  chk (decide (act = 0) || decide (5 < act) || decide (wf cmd 31 28 ≠ 0) || decide (wf cmd 23 2 ≠ 0) ||
    (decide (act = 1) && decide (wf cfg 11 0 ≠ 0)) ||
    ((decide (act = 1) || (decide (act = 2) && decide (l.st = 0))) && decide (65535 < bit))) .badValue 1
  chk (decide (act = 1) && decide (l.st ≠ 0)) .badValue 2
  chk (decide (act = 2) && l.armed.isSome) .tableBusy 2
  chk (decide (act = 1) && (decide (bit < 50) || decide (per < 1000) || decide (per ≤ pha) ||
    !ownersOk (wbit cfg 15) (wf cfg 23 16) (wf cfg 31 24))) .badValue 3
  match act with
  | 3 =>
    if l.window.isSome then pure (w.setLink n { l with stopReq := true }, 0)
    else pure (w.setLink n l.halt, 0)
  | 4 => pure (w.setLink n { l with armed := none }, b01 l.armed.isSome)
  | 5 =>
    let w := if wbit cmd 0 then w.linkJoin n false else w
    pure (if wbit cmd 1 then w.linkJoin n true else w, 0)
  | _ => do
    let (w, t) := w.optFmt (g 0x1C)
    let (w, r) := w.optFmt (g 0x20)
    let (tx, rx) ← dlkTables t r
    let stg := act = 1 ∨ l.st = 0
    chk (!(if stg then dlkFits (wf (g 0x10) 15 0) (wf (g 0x10) 31 16) bit (g 0x14).toNat (g 0x18).toNat per tx rx
      else dlkFits l.lead l.trail l.bit l.rxdelay l.rxwin l.period tx rx)) .badValue 6
    if act = 1 then
      let q : Link := { l with
        st := 1, cfg := cfg, bit := bit, period := per, phase := pha, lead := wf (g 0x10) 15 0
        trail := wf (g 0x10) 31 16, rxdelay := (g 0x14).toNat, rxwin := (g 0x18).toNat
        tx := tx, rx := rx, armed := none, sets := [], lastSet := none, window := none, stopReq := false
        next := (w.now + per - pha + per - 1) / per }
      pure (w.setLink n { q with live := (q.has false, q.has true) }, 0)
    else if l.st = 0 then pure (w.setLink n { l with tx := tx, rx := rx }, 0)
    else pure (w.setLink n { l with armed := some (tx, rx, (g 0x24).toNat + 2 ^ 32 * (g 0x28).toNat) }, 0)

/-- The action that a link commit under way names. -/
def Dev.dlkAction (d : Dev) (n : Nat) : Nat := wf ((d.cm (.dlk n)).get (dlkReg n + 0x2C)) 27 24

/-- DLK_STATUS (12 R499). -/
def Dev.dlkStatus (d : Dev) (n : Nat) : Word :=
  let l := d.link n
  let k (b : Bool) : Nat := (l.sets.filter fun s => s.b == b).length
  w32 (l.st * 2 ^ 30 + b01 l.live.1 * 2 ^ 29 + b01 l.live.2 * 2 ^ 28 + b01 l.armed.isSome * 2 ^ 27 +
    k false * 2 ^ 20 + k true * 2 ^ 16 + l.next.toNat % 65536)

end Sys2Proof.Machine
end

