-- ==== Sys2Proof/Machine/Fault.lean ====
section
/-! DEFINITION. Fault continuity (file 14): detectors and policy, closures, the fault log, fallback
plans, and the fault commit. A unit is an engine (its number) or a polder (256 + its number). -/

namespace Sys2Proof.Machine

/-- Base of the FLT registers (14 R565). -/
def fltReg : Nat := 0x40070000

/-- A unit. -/
def Dev.unit (d : Dev) (u : Nat) : FUnit := tget {} d.flt.units u

/-- A unit replaced. -/
def W.setUnit (w : W) (u : Nat) (x : FUnit) : W := { w with flt := { w.flt with units := tset w.flt.units u x } }

/-- UK and UNIT of a unit, as bit 8 and bits 7:0. -/
def unitCode (u : Nat) : Nat := if 256 ≤ u then 256 + (u - 256) else u

/-- The engines of a unit. -/
def unitEngines (u : Nat) : List Nat := if 256 ≤ u then (upTo 8).map (8 * (u - 256) + ·) else [u]

/-- The state in force for a unit: an engine is in its polder's state while the polder is not
IN_SERVICE (14 R536). -/
def Dev.unitState (d : Dev) (u : Nat) : Nat :=
  if u < 256 ∧ (d.unit (256 + u / 8)).st ≠ 0 then (d.unit (256 + u / 8)).st else (d.unit u).st

/-- A record of source 0x5E8 (14 R550). -/
def W.fltEvent (w : W) (kind cause u : Nat) : W :=
  w.raiseNow 0x5E8 (kind * 2 ^ 28 + cause * 2 ^ 24 + unitCode u / 256 * 2 ^ 23 + unitCode u % 256)

/-- A fault-log record is written, or counted lost when the log is full (14 R548, R549). -/
def W.logRec (w : W) (type cause u : Nat) (a b c d : Nat) : W :=
  let h := w.flt.head
  if (h + 2 ^ 32 - (w.rg (fltReg + 0xA4)).toNat) % 2 ^ 32 = 256 then
    (w.bump (fltReg + 0xA8)).fltEvent 9 0 0
  else
    let o := fltReg + 0x2000 + 0x20 * (h % 256)
    let ws := [type * 2 ^ 24 + cause * 2 ^ 20 + unitCode u / 256 * 2 ^ 19 + unitCode u % 256, h,
      w.now, w.now / 2 ^ 32, a, b, c, d]
    let w := ws.zipIdx.foldl (fun w x => w.setRg (o + 4 * x.2) (w32 x.1)) w
    { w with flt := { w.flt with head := (h + 1) % 2 ^ 32 } }

/-- The live FLT_POLICY, FLT_CTRL and FLT_FBADDRp (14 R565). -/
def Dev.fltPolicy (d : Dev) (c : Nat) : Nat := wf (d.stg (fltReg + 0x618)) (2 * c + 1) (2 * c)
def Dev.fltCtrl (d : Dev) : Word := d.stg (fltReg + 0x61C)
def Dev.fbAddr (d : Dev) (p : Nat) : Nat := (d.stg (fltReg + 0x640 + 4 * p)).toNat

/-! ### Closure -/

/-- A transaction abandoned by a master port: log record with the beats written, MTX_ABANDON and event (10 R402, R403;
14 R549). The beats still owed by a granted portion go with their byte enables off, and the portions not granted are
withdrawn: neither writes. `u` is the unit concerned. -/
def W.abandon (w : W) (u : Nat) (x : MtxTxn) (target : Nat) : W :=
  let w := w.logRec 3 0 u x.addr (x.master * 2 ^ 24 + target * 65536 + (if x.write.isSome then x.beats else 0))
    (b01 x.write.isSome) 0
  (w.bump 0x4005020C).raiseNow 0x5F1 (2 * 2 ^ 28 + x.master % 64 * 2 ^ 22 + target % 64 * 65536)

/-- The matrix target of an address; 0x3F is the default target (10 R394). -/
def mtxTarget (a : Nat) : Nat :=
  match mtxMap a with
  | .mem pa => if pa < 0x20000000 then (pa - 0x10000000) / 0x40000 % 8 else 8 + (pa - 0x20000000) / 0x200000
  | .reg _ => 32
  | .pcie _ => 33
  | .annex _ => 34
  | .none => 0x3F

/-- Whether a unit's masters issued a transaction (14 R544, R546). -/
def ownTxn (u : Nat) (x : MtxTxn) : Bool :=
  decide (256 ≤ u) && (decide (x.master = u - 256) || decide (x.master = 24 + (u - 256)))

/-- Whether a transaction goes to a unit's matrix target; an engine has none (10 R393;
notes/assumptions/29). -/
def toUnit (u : Nat) (x : MtxTxn) : Bool := decide (256 ≤ u) && decide (mtxTarget x.addr = 8 + (u - 256))

/-- Matrix transactions of a closing unit are accounted; the counts of abandoned transactions and
unknown writes follow (14 R546). -/
def W.closeMtx (w : W) (u : Nat) : W × Nat × Nat :=
  let own := w.mtx.filter (ownTxn u)
  let inn := w.mtx.filter fun x => !ownTxn u x && toUnit u x
  let unk := inn.filter fun x => x.write.isSome
  let w := { w with mtx := w.mtx.filter fun x => !ownTxn u x && !toUnit u x }
  let w := own.foldl (fun w x => w.abandon u x (mtxTarget x.addr)) w
  let w := unk.foldl (fun w x => w.logRec 4 0 u x.addr (x.master * 2 ^ 24 + mtxTarget x.addr * 65536) 0 0) w
  let w := if inn.isEmpty then w else { w with resp := { err := some .dikeClosed } }
  (w, own.length, unk.length)

/-- The sides of pins and links that the unit's engines own are withdrawn; how many (14 R544, R551). -/
def W.closeSides (w : W) (u : Nat) : W × Nat × Nat :=
  let es := unitEngines u
  let pins := (w.tio.map (·.1)).flatMap fun n => [(n, false), (n, true)]
  let pins := pins.filter fun c =>
    let p := w.pin c.1
    decide (p.mode = 1) && p.has c.2 && p.alive c.2 && es.contains (p.owner c.2)
  let lks := (w.dlk.map (·.1)).flatMap fun n => [(n, false), (n, true)]
  let lks := lks.filter fun c =>
    let l := w.link c.1
    decide (l.st ≠ 0) && l.has c.2 && l.alive c.2 && es.contains (l.owner c.2)
  let w := pins.foldl (fun w c => w.pinWithdraw c.1 c.2) w
  (lks.foldl (fun w c => w.linkWithdraw c.1 c.2) w, pins.length, lks.length)

/-- Whether a channel of the network belongs to a unit. -/
def unitChan (u node ch : Nat) : Bool :=
  match nodePol node with
  | some p => if 256 ≤ u then decide (p = u - 256) else decide (8 * p + ch / 4 = u)
  | none => false

/-- Messages of a diked unit are discarded, each reported; how many (14 R546). -/
def W.closeNet (w : W) (u : Nat) : W × Nat :=
  let tx := w.net.tx.filter fun c => unitChan u (c.1 / 32) (c.1 % 32)
  let msgs := tx.flatMap fun c => (splitMsgs 32 c.2).1.map fun _ => (c.1 / 32, c.1 % 32)
  let fly := w.net.fly.filter fun m => unitChan u m.src m.sch || unitChan u m.dst m.dch
  let w := { w with net := { w.net with
    part := tx.foldl (fun (t : Tbl Nat) c =>
      let n := (splitMsgs 32 c.2).2.length
      if n = 0 then t else tset t c.1 n) (w.net.part.filter fun c => !unitChan u (c.1 / 32) (c.1 % 32))
    tx := w.net.tx.filter fun c => !unitChan u (c.1 / 32) (c.1 % 32)
    fly := w.net.fly.filter fun m => !(unitChan u m.src m.sch || unitChan u m.dst m.dch) } }
  let w := msgs.foldl (fun w m => w.netLoss slotDikedrop 6 m.1 m.2) w
  let w := fly.foldl (fun w m =>
    if unitChan u m.src m.sch then w.netLoss slotDikedrop 6 m.src m.sch else w.netLoss slotDikedrop 6 m.dst m.dch) w
  let w := (unitEngines u).foldl (fun w e => w.drainSluice e 8) w
  (w, msgs.length + fly.length)

/-- The threads of a closing unit: work in flight and store-buffer entries are discarded, jobs end,
queued records are counted lost; how many entries and records (14 R544, R546). -/
def W.closeThreads (w : W) (u : Nat) : W × Nat × Nat :=
  let ks := (unitEngines u).flatMap fun e => (upTo 4).map (tkey e)
  ks.foldl (fun a k =>
    let (w, st, rc) := a
    let x := w.th k
    let w := (w.jobStopped k true).jobUnheld k
    let q := (w.th k).evq
    let w := w.modTh k fun x => { x with ops := [], accs := [], sbuf := [], evq := [], wait := none, fence := none }
    (q.foldl (fun w r => w.dropRec k r) w, st + x.sbuf.length, rc + q.length)) (w, 0, 0)

/-- A unit's closure up to the fence, the withdrawal and the drain (14 R544, R546, R560): the state
becomes FENCED and the counts of its DIKE record are kept. A CLOSE commit of an engine that its polder overtakes
ends with the polder's closure (14 R567). -/
def W.closeUnit (w : W) (u cause : Nat) (byCommit : Bool) : W :=
  let byCommit := byCommit || (decide (256 ≤ u) && (unitEngines u).any fun e => (w.unit e).byCommit)
  let w := if 256 ≤ u then
      (unitEngines u).foldl (fun w e =>
        { w.setUnit e { w.unit e with st := 0, byCommit := false } with dike := tset w.dike (256 + e) false }) w
    else w
  let (w, st, rc) := w.closeThreads u
  let (w, pn, ln) := w.closeSides u
  let w := { w with dike := tset w.dike (if 256 ≤ u then u - 256 else 256 + u) true
                    hv := w.hv.map fun (c : Nat × List HvJob) => (c.1, c.2.filter fun j => !(unitEngines u).contains (j.key / 4)) }
  let run := if 256 ≤ u then ((upTo 16).filter fun n => (w.ch (u - 256) n).holds).length else 0
  let w := if 256 ≤ u then w.culReset (u - 256) else w
  let (w, ab, uk) := w.closeMtx u
  let (w, ms) := w.closeNet u
  let w := match w.flt.join with
    | some (es, _) =>
      if es.any fun e => (unitEngines u).contains e.owner then
        { w.logRec 6 0 u 7 0 0 0 with flt := { (w.logRec 6 0 u 7 0 0 0).flt with join := none } }
      else w
    | none => w
  let x := w.unit u
  w.setUnit u { st := 1, cause := cause, closes := (x.closes + 1) % 65536, byCommit := byCommit
                cnt := [min ab 65535 * 65536 + min uk 65535, min st 65535 * 65536 + run,
                  min ms 65535 * 65536 + min rc 65535, min pn 255 * 2 ^ 24 + min ln 255 * 65536] }

/-- The unit that an action of the policy closes: an engine of a RESET polder takes its polder with it
(14 R536, R542, R560). -/
def Dev.closeTarget (d : Dev) (act u : Nat) : Option Nat :=
  let p := if 256 ≤ u then u else 256 + u / 8
  let open' (n : Nat) : Bool := decide (n = 0 ∨ n = 3)
  if act = 2 then (if open' (d.unit p).st then some p else none)
  else if act = 1 ∧ u < 256 then
    if (d.unit p).st = 3 then some p
    else if (d.unit p).st = 0 ∧ open' (d.unit u).st then some u
    else none
  else none

/-- The fault controller acts on a detector signal (14 R537, R542): FAULT record and event, then the
closure that the policy names. -/
def W.faultAct (w : W) (cause u detail : Nat) : W :=
  if u = 192 ∨ 280 ≤ u then w
  else
    let act := w.fltPolicy cause
    let w := (w.logRec 1 cause u detail act 0 0).fltEvent 1 cause u
    match w.closeTarget act u with
    | some v => w.closeUnit v cause false
    | none => w

/-- The signals of a step, in the order in which they were raised. -/
def W.faults (w : W) : W := w.sig.foldl (fun w s => w.faultAct s.1 s.2.1 s.2.2) { w with sig := [] }

/-! ### Fallback -/

/-- The fallback step of a polder that has become DIKED (14 R555, R556). -/
def W.fallback (w : W) (p : Nat) : W :=
  let a := w.fbAddr p
  let no (w : W) (b : Nat) : W := (w.logRec 5 (w.unit (256 + p)).cause (256 + p) a b 0 0).fltEvent 4 0 (256 + p)
  let fb := match w.net.live with | some q => q.fallback | none => false
  if !wbit w.fltCtrl 0 || decide (a = 0) || fb || w.flt.fb.isSome then no w 0xFFFF
  else
    match w.readPlan a true with
    | (w, .error e) => no w e.st.code
    | (w, .ok q) =>
      let old : Word := match w.net.armed with | some (o, _) => o.id | none => 0
      let f := w.now / 1024 + 1
      { w with net := { w.net with armed := some (q, f) }, flt := { w.flt with fb := some (p, a, old, f) } }

/-- The spare polder's engines start t0 at a fallback swap (14 R558). -/
def W.spareStart (w : W) (s : Nat) : W :=
  let w := (unitEngines (256 + s)).foldl (fun w e =>
    if w.inService e && (w.en e).loaded then w.startThread (tkey e 0) (w.en e).entry 0 else w) w
  w.fltEvent 10 0 (256 + s)

/-- A swap in frame `f` that makes the fallback plan under way live (14 R555, R558). -/
def W.fallbackSwap (w : W) (f : Nat) : W :=
  match w.flt.fb, w.net.live with
  | some (p, a, old, _), some q =>
    if q.addr = a ∧ q.fallback then
      let w := (w.logRec 5 (w.unit (256 + p)).cause (256 + p) a 0 old.toNat f).fltEvent 3 0 (256 + p)
      let w := { w with flt := { w.flt with fb := none } }
      if wbit w.fltCtrl 1 && decide (q.spare < 24) then w.spareStart q.spare else w
    else w
  | _, _ => w

/-- A closure ends: the unit is DIKED and its DIKE record is written (14 R544, R549, R555). A CLOSE
commit that waits for it ends in ST_OK. -/
def W.closureDone (w : W) (u : Nat) : W :=
  let x := w.unit u
  if x.st ≠ 1 then w
  else
    let g (i : Nat) : Nat := x.cnt.getD i 0
    let w := (w.setUnit u { x with st := 2, cnt := [], byCommit := false }).logRec 2 x.cause u (g 0) (g 1) (g 2) (g 3)
    let w := w.fltEvent 2 x.cause u
    let w := if 256 ≤ u then w.fallback (u - 256) else w
    if x.byCommit then w.finish .flt {} else w

/-! ### The fault commit -/

/-- The unit that staged FLT_UNIT names. -/
def fltUnit (v : Word) : Nat := if wbit v 8 then 256 + wf v 7 0 else wf v 7 0

/-- A polder's reset: regulator off and back at OP0, engines, banks, node and culvert reset, memory
contents undefined (14 R561), those of a borrowed block too. -/
def W.polderReset (w : W) (p : Nat) : W :=
  let w := w.setPol p { w.pol p with
    cur := 0, volt := 0, vgo := none, goal := none, resume := none
    ceil := none, more := [], ceilRun := none, sleep := false, slept := [], quiet := 0 }
  let w := (unitEngines (256 + p)).foldl (fun w e => w.engineReset e true) w
  let w := (banksOf p).foldl (fun w b => w.setBk p b { w.bk p b with st := 2, zf := false, goal := 2 }) w
  let w := w.setPat p (w.pat p).released
  let w := w.undefRegion { lo := winBase p, hi := winBase p + 0x200000 }
  let inside (a : Nat) : Bool := decide (winBase p ≤ 8 * a) && decide (8 * a < winBase p + 0x200000)
  let w := { w with ecc := w.ecc.filter (fun c => !inside c.1), wb := w.wb.filter (fun a => !inside a) }
  let w := { w with net := { w.net with
    tx := w.net.tx.filter fun c => decide (c.1 / 32 ≠ polNode p)
    rx := w.net.rx.filter fun c => decide (c.1 / 32 ≠ polNode p) } }
  w.culReset p

/-- Entry `i` of a join list (14 R563). -/
def joinAt (bs : List Byte) (i : Nat) : Join :=
  let w0 := w32 (wdAt bs (8 * i))
  { link := decide (wf w0 31 30 = 1), b := wbit w0 29, owner := wf w0 15 8, num := wf w0 7 0 }

/-- Whether an entry of a join list breaks check 7 of R567 (14). -/
def W.joinBad (w : W) (bs : List Byte) (i : Nat) : Bool :=
  let w0 := w32 (wdAt bs (8 * i))
  let e := joinAt bs i
  decide (1 < wf w0 31 30) || decide (wf w0 28 16 ≠ 0) || decide (wdAt bs (8 * i + 4) ≠ 0) ||
  !(decide (e.owner < 192) || decide (e.owner = 0xFE)) || decide ((if e.link then 48 else 192) ≤ e.num) ||
  (if e.link then
    let l := w.link e.num
    !l.dual || (l.alive e.b) || decide (l.owner (!e.b) = e.owner)
   else
    let p := w.pin e.num
    decide (p.mode ≠ 1) || !p.dual || p.alive e.b || decide (p.owner (!e.b) = e.owner)) ||
  (decide (e.owner < 192) && !w.inService e.owner) ||
  (upTo i).any fun j => let f := joinAt bs j; (f.link == e.link) && decide (f.num = e.num)

/-- The join of an armed list takes effect (14 R564). -/
def W.joinApply (w : W) (f : Nat) : W :=
  match w.flt.join with
  | some (es, jf) =>
    if jf ≤ f then
      let w := { w with flt := { w.flt with join := none } }
      let w := es.foldl (fun w e =>
        if e.link then
          let l := w.link e.num
          let c := if e.b then wset l.cfg 31 24 e.owner else wset l.cfg 23 16 e.owner
          (w.setLink e.num { l with cfg := c }).linkJoin e.num e.b
        else
          let p := w.pin e.num
          let q := if e.b then wset p.p1 23 16 e.owner else wset p.p1 7 0 e.owner
          (w.setPin e.num { p with p1 := q }).pinJoin e.num e.b) w
      (w.fltEvent 7 0 0).logRec 6 0 0 7 es.length jf 0
    else w
  | none => w

/-- An FLT commit but for the wait of CLOSE (14 R560 to R567): its effect, INDEX and whether it is
complete, or its failing check. -/
def fltWork (w : W) (c : Com) : Except Fin3 (W × Nat × Bool) := do
  let g (o : Nat) : Word := c.get (fltReg + o)
  let act := wf (g 0) 27 24
  let u := fltUnit (g 4)
  let usesUnit := decide (1 ≤ act ∧ act ≤ 3)
  let jf := (g 0x10).toNat + 2 ^ 32 * (g 0x14).toNat
  let st := w.unitState u
  chk (decide (act = 0) || decide (6 < act) || decide (wf (g 0) 31 28 ≠ 0) || decide (wf (g 0) 23 0 ≠ 0) ||
    (usesUnit && (decide (wf (g 4) 31 9 ≠ 0) || decide ((if wbit (g 4) 8 then 23 else 191) < wf (g 4) 7 0))) ||
    (decide (act = 4) && (decide (wf (g 0xC) 31 8 ≠ 0) || decide (wf (g 0x14) 31 22 ≠ 0))) ||
    (decide (act = 6) && (decide (wf (g 0x18) 31 16 ≠ 0) || decide (wf (g 0x1C) 31 2 ≠ 0)))) .badValue 1
  match act with
  | 1 => do
    chk (decide (st ≠ 0)) .dikeClosed 2
    pure (w.closeUnit u 8 true, 0, false)
  | 2 => do
    chk (decide ((w.unit u).st ≠ 2) || decide (st ≠ 2)) .badValue 3
    let w := if 256 ≤ u then w.polderReset (u - 256) else w.engineReset u true
    let w := w.setUnit u { w.unit u with st := 3 }
    pure ((w.logRec 6 0 u 3 0 0 0).fltEvent 5 0 u, 0, true)
  | 3 => do
    chk (decide ((w.unit u).st ≠ 3) || decide (st ≠ 3)) .badValue 3
    let w := { w.setUnit u { w.unit u with st := 0 } with dike := tset w.dike (if 256 ≤ u then u - 256 else 256 + u) false }
    pure ((w.logRec 6 0 u 0 0 0 0).fltEvent 6 0 u, 0, true)
  | 4 => do
    let n := wf (g 0xC) 7 0
    let a := (g 8).toNat
    chk w.flt.join.isSome .badValue 3
    chk (decide (n = 0) || decide (128 < n) || decide (a % 8 ≠ 0) || decide (1024 * jf < c.acc + 2048)) .badValue 5
    let (w, r) := w.rdAt .weir a (8 * n)
    let bs ← match r with
      | .ok bs => pure bs
      | .error e => .error { st := e, check := 6, index := 0xFFFF }
    chkEach (upTo n) (w.joinBad bs) .badValue 7
    pure ({ w with flt := { w.flt with join := some ((upTo n).map (joinAt bs), jf) } }, 0, true)
  | 5 => pure ({ w with flt := { w.flt with join := none } }, b01 w.flt.join.isSome, true)
  | _ => do
    chkEach (upTo 8) (fun k =>
      let a := wf (g 0x18) (2 * k + 1) (2 * k)
      decide (a = 3) || (decide (k = 6) && decide (a ≠ 2))) .badValue 4
    chkEach (upTo 24) (fun p =>
      let a := (g (0x40 + 4 * p)).toNat
      decide (a ≠ 0) && (decide (a % 64 ≠ 0) || decide (a < 0x10000000) || decide (0x11000000 ≤ a))) .badValue 4 0x10
    let w := (w.setRg (fltReg + 0x618) (g 0x18)).setRg (fltReg + 0x61C) (g 0x1C)
    pure ((upTo 24).foldl (fun w p => w.setRg (fltReg + 0x640 + 4 * p) (g (0x40 + 4 * p))) w, 0, true)

/-- The fault commit under way is done; a CLOSE stays busy until its closure ends (14 R567). -/
def W.fltCommit (w : W) : W :=
  let c := w.cm .flt
  if !c.busy || w.flt.units.any (fun x => x.2.byCommit) then w
  else
    match fltWork w c with
    | .ok (w, i, done) => if done then w.finish .flt { index := i } else w
    | .error e => w.finish .flt e

/-- The action that the fault commit under way names. -/
def Dev.fltAction (d : Dev) : Nat := wf ((d.cm .flt).get fltReg) 27 24

/-- FLT_PSTATEp and FLT_ESTATEe (14 R566). -/
def Dev.unitReg (d : Dev) (u : Nat) : Word :=
  let x := d.unit u
  w32 (d.unitState u * 2 ^ 29 + x.cause * 2 ^ 25 + x.closes)

/-- FLT_STATE (14 R566). -/
def Dev.fltState (d : Dev) : Word :=
  w32 (b01 d.flt.fb.isSome * 2 ^ 31 + b01 d.flt.join.isSome * 2 ^ 30 + b01 d.flt.ksync * 2 ^ 29)

/-- A floor breach of a polder: record and detector signal (13 R506, R526; 14 R537, R549). -/
def W.breach (w : W) (p : Nat) : W :=
  (w.polEvent p 5 (w.floor p * 2 ^ 24)).signal 7 (256 + p) (w.floor p * 8 + (w.pol p).cur)

/-- K0 and K1 disagree at a bundle address: both are reset, and records routed to them are discarded
until they have resynchronised (14 R543, R549, R550). -/
def W.keeperMismatch (w : W) (pc : Word) : W :=
  let w := (w.engineReset 192 false).logRec 7 0 0 pc.toNat 0 0 0
  { w.fltEvent 8 0 0 with flt := { (w.fltEvent 8 0 0).flt with ksync := true } }

/-- The keepers have resynchronised (14 R543). -/
def W.keeperSynced (w : W) : W := { w with flt := { w.flt with ksync := false } }

end Sys2Proof.Machine
end

