-- ==== Sys2Proof/Machine/Sockets.lean ====
section
/-! DEFINITION. What a thread reads and writes: its register file and sockets in the bank that runs
(02 R40, R42, R76, R77), its status and control registers (02 R61 to R66), the exceptions that it has
pending (08 R294 to R297), and the timing sentinel (06 R232 to R236). -/

namespace Sys2Proof.Machine

/-! ### Registers -/

/-- D register `n` of a bank: D24 to D31 are replaced in the shadow bank (02 R76). -/
def Thread.getD (x : Thread) (sh : Bool) (n : Nat) : Word :=
  if sh && decide (24 ≤ n) then tget 0 x.dSh n else tget 0 x.d n

/-- A D register written. -/
def Thread.setD (x : Thread) (sh : Bool) (n : Nat) (v : Word) : Thread :=
  if sh && decide (24 ≤ n) then { x with dSh := tset x.dSh n v } else { x with d := tset x.d n v }

/-- A register `n` of a bank: A12 to A15 are replaced in the shadow bank (02 R76). -/
def Thread.getA (x : Thread) (sh : Bool) (n : Nat) : Word :=
  if sh && decide (12 ≤ n) then tget 0 x.aSh n else tget 0 x.a n

/-- An A register written. -/
def Thread.setA (x : Thread) (sh : Bool) (n : Nat) (v : Word) : Thread :=
  if sh && decide (12 ≤ n) then { x with aSh := tset x.aSh n v } else { x with a := tset x.a n v }

/-- Predicate `n` of a bank: P0 reads 1; P4 to P7 are replaced in the shadow bank (02 R56, R76). -/
def Thread.getP (x : Thread) (sh : Bool) (n : Nat) : Bool :=
  if n = 0 then true
  else if sh && decide (4 ≤ n) then tget false x.pSh n else tget false x.p n

/-- A predicate written; a write to P0 has no effect (02 R56). -/
def Thread.setP (x : Thread) (sh : Bool) (n : Nat) (v : Bool) : Thread :=
  if n = 0 then x
  else if sh && decide (4 ≤ n) then { x with pSh := tset x.pSh n v } else { x with p := tset x.p n v }

/-- The predicate word: P7 to P0 in bits 7:0 (02 R58). -/
def Thread.pw (x : Thread) (sh : Bool) : Word :=
  w32 (((upTo 8).map fun n => b01 (x.getP sh n) * 2 ^ n).foldl (· + ·) 0)

/-- A move to PR: P1 to P7 from bits 7:1 (02 R57). -/
def Thread.setPr (x : Thread) (sh : Bool) (v : Word) : Thread :=
  (upTo 7).foldl (fun x i => x.setP sh (i + 1) (wbit v (i + 1))) x

/-- Quad `q` as a 128-bit value, its lowest register lowest (02 R55). -/
def Thread.quad (x : Thread) (sh : Bool) (q : Nat) : Nat :=
  joinN 32 ((upTo 4).map fun i => (x.getD sh (4 * q + i)).toNat)

/-- Lane `i` of accumulator `n`. -/
def Thread.lane (x : Thread) (n i : Nat) : BitVec 40 := tget 0 x.x (8 * n + i)

/-- A move to X`n`: every lane takes Signed(value) (02 R40). -/
def Thread.setX (x : Thread) (n : Nat) (v : Word) : Thread :=
  { x with x := (upTo 8).foldl (fun t i => tset t (8 * n + i) (BitVec.ofInt 40 v.toInt)) x.x }

/-- The sockets of a bank (02 R76, R77). -/
def Thread.bankOf (x : Thread) (sh : Bool) : Bank := if sh then x.sb else x.nb

/-- The sockets of a bank replaced. -/
def Thread.setBank (x : Thread) (sh : Bool) (b : Bank) : Thread :=
  if sh then { x with sb := b } else { x with nb := b }

/-- An OP or O socket, by its unit-page ID; HV.O is 56 (03 R110, R115). -/
def Thread.dstSock (x : Thread) (sh : Bool) (n : Nat) : Word := tget 0 (x.bankOf sh).dst n

/-- An OP or O socket written. -/
def Thread.setDst (x : Thread) (sh : Bool) (n : Nat) (v : Word) : Thread :=
  x.setBank sh { x.bankOf sh with dst := tset (x.bankOf sh).dst n v }

/-- The sockets of unit group `u` take an operation code and, where the operation has one, an operand (02 R42;
03 R110). -/
def Thread.setOperands (x : Thread) (u code : Nat) (o : Option Word) : Thread :=
  let y := x.setDst x.shadow (4 * u) (w32 code)
  match o with
  | some v => y.setDst x.shadow (4 * u + 1) v
  | none => y

/-- A thread that issues is READY (02, *Thread states*). -/
def Thread.goes (x : Thread) : Thread := { x with run := .ready }

/-- A result socket or kept special source, by its source ID (03 R111). -/
def Thread.srcSock (x : Thread) (sh : Bool) (n : Nat) : Word := tget 0 (x.bankOf sh).src n

/-- A result socket written. -/
def Thread.setSrc (x : Thread) (sh : Bool) (n : Nat) (v : Word) : Thread :=
  x.setBank sh { x.bankOf sh with src := tset (x.bankOf sh).src n v }

/-! ### Status and control registers -/

/-- TS of thread `t` (02 R63). -/
def Thread.ts (x : Thread) (t : Nat) : Word :=
  w32 (x.ring % 4 * 2 ^ 30 + t % 4 * 2 ^ 28 + b01 x.shadow * 2 ^ 27 + b01 x.stk * 2 ^ 26 + b01 x.nest * 2 ^ 25 +
    b01 x.precise * 2 ^ 24 + b01 x.ie * 2 ^ 23 + b01 x.ovt * 2 ^ 22 + b01 x.dzt * 2 ^ 21 + b01 x.bi * 8 +
    b01 x.dc * 4 + b01 x.dz * 2 + b01 x.ov)

/-- A write to TS at a ring: only the fields that the ring may change, the sticky bits by W1C (02 R63). -/
def Thread.setTs (x : Thread) (ring : Nat) (v : Word) : Thread :=
  { x with
    nest := if ring ≤ 1 then wbit v 25 else x.nest
    precise := wbit v 24
    ie := if ring ≤ 2 then wbit v 23 else x.ie
    ovt := wbit v 22
    dzt := wbit v 21
    bi := x.bi && !wbit v 3
    dc := x.dc && !wbit v 2
    dz := x.dz && !wbit v 1
    ov := x.ov && !wbit v 0 }

/-- MODE of an engine (02 R65). -/
def Engine.mode (e : Engine) : Word := w32 (b01 e.exposed * 2 + b01 e.strict)

/-- Whether a control register exists (02 R61). -/
def ctlExists (n : Nat) : Bool := decide (n ≤ 12)

/-- Whether a ring may read a control register (02 R61). -/
def ctlReadable (n ring : Nat) : Bool := decide (ring ≤ 1) || !(decide (4 ≤ n) && decide (n ≤ 8))

/-- Whether a ring may write a control register (02 R61). -/
def ctlWritable (n ring : Nat) : Bool :=
  if n ≤ 3 ∨ n = 10 then true
  else if n = 8 then decide (ring = 0)
  else if n = 9 then decide (ring ≤ 2)
  else decide (ring ≤ 1)

/-- Control register `n` of the thread of key `k`, at bundle address `pc` (02 R61). -/
def W.ctlRead (w : W) (k n : Nat) (pc : Word) : Word :=
  let x := w.th k
  match n with
  | 0 => x.ts (k % 4)
  | 1 => pc
  | 2 => x.lk
  | 3 => x.rc
  | 4 => x.spc
  | 5 => x.sst
  | 6 => x.srpt
  | 7 => x.slim
  | 8 => x.gtbase
  | 9 => w32 (b01 x.ie)
  | 10 => w32 (b01 x.precise)
  | 11 => w32 (b01 x.nest)
  | 12 => (w.en (k / 4)).mode
  | _ => 0

/-- The fields of SST that a write changes (08 R299). -/
def sstMask : Nat := 0xF7F8FFFE

/-- Whether every other thread of an engine than t0 is STOPPED or halted (02 R66, 17 R650). -/
def W.aloneT0 (w : W) (e : Nat) : Bool :=
  (upTo 3).all fun i => let x := w.th (tkey e (i + 1)); decide (x.run = .stopped) || x.halted

/-- The live GTADDR of an engine (08 R291, R319). -/
def W.gtAddr (w : W) (e : Nat) : Word := tget 0 (w.en e).ringLive 0x60

/-- Control register `n` of the thread of key `k` written at a ring that may write it (02 R61, R63, R66;
08 R291). -/
def W.ctlWrite (w : W) (k n ring : Nat) (v : Word) : W :=
  match n with
  | 0 => w.modTh k fun x => x.setTs ring v
  | 2 => w.modTh k fun x => { x with lk := v }
  | 3 => w.modTh k fun x => { x with rc := v }
  | 4 => w.modTh k fun x => { x with spc := v }
  | 5 => w.modTh k fun x => { x with sst := v &&& w32 sstMask }
  | 6 => w.modTh k fun x => { x with srpt := v }
  | 7 => w.modTh k fun x => { x with slim := v }
  | 8 => if v = 0 ∨ v = w.gtAddr (k / 4) then w.modTh k fun x => { x with gtbase := v } else w
  | 9 => w.modTh k fun x => { x with ie := wbit v 0 }
  | 10 => w.modTh k fun x => { x with precise := wbit v 0 }
  | 11 => w.modTh k fun x => { x with nest := wbit v 0 }
  | 12 =>
    if wbit v 0 && !w.aloneT0 (k / 4) then w
    else w.modEn (k / 4) fun e => { e with strict := wbit v 0, exposed := wbit v 1 }
  | _ => w

/-! ### Pending exceptions -/

/-- The ring to which what a thread starts or raises now is charged: the old one in the shadow of a ring change
(08 R310). -/
def Thread.charged (x : Thread) : Option Nat := if x.rcLeft = 0 then none else some x.rcRing

/-- The depth at which a trap is taken: beneath the trap handler that runs, if one does, since a trap waits until the
one before it has returned (04 R170). -/
def Thread.trapLvl (x : Thread) : Nat :=
  match x.under.dropWhile fun u => !u.trap with
  | [] => x.under.length
  | u => u.length - 1

/-- An exception becomes pending: it belongs to the bank and the handler that run, and is charged to the old ring in
the shadow of a ring change (08 R294, R295, R302, R310). -/
def W.pend (w : W) (k : Nat) (x : Exc) : W :=
  w.modTh k fun h => { h with
    excs := h.excs ++ [{ x with seq := h.seq, shadow := h.shadow, origin := h.charged, lvl := h.under.length }] }

/-- A synchronous fault of the bundle that issues: vector, detail and FADDR. -/
def W.fault (w : W) (k vec detail : Nat) (faddr : Word) : W := w.pend k { vec := vec, detail := detail, faddr := faddr }

/-- Illegal bundle, illegal operation and privilege faults of the bundle at `pc` (08 R292, R294, R295). -/
def W.illegalBundle (w : W) (k : Nat) (pc : Word) : W := w.fault k 2 0 pc
def W.illegalOp (w : W) (k group : Nat) (pc : Word) : W := w.fault k 3 group pc
def W.privFault (w : W) (k detail : Nat) (pc : Word) : W := w.fault k 5 detail pc

/-- A data-bus error that a response brings (04 R157): the status, the address, the number of the access, the bank
that triggered it and the ring charged for it. -/
def W.busErr (w : W) (k : Nat) (st : St) (faddr : Word) (seq : Nat) (sh : Bool) (origin : Option Nat) : W :=
  w.modTh k fun h => { h with
    excs := h.excs ++ [{ vec := 8, status := st.code, faddr := faddr, seq := seq, shadow := sh, origin := origin
                         lvl := h.under.length }] }

/-- A data-bus error of an access that the thread makes now. -/
def W.busFault (w : W) (k : Nat) (st : St) (faddr : Word) (seq : Nat) (sh : Bool) : W :=
  w.busErr k st faddr seq sh (w.th k).charged

/-! ### The sentinel -/

/-- Whether the sentinel checks the thread of key `k` (06 R232). -/
def W.checked (w : W) (k : Nat) : Bool :=
  let x := w.th k
  decide (k % 4 = 0) && decide (k < 768) && (w.en (k / 4)).strict && wbit (w.stg (sntReg (k / 4))) 0 && !x.stk && !x.shadow

/-- A deviation of class `c`, concerning a unit (0x1F for none), at bundle `pc`, counted `n`: counter,
status bit, first record, event, fault signal and trap (06 R233 to R236; 14 R537). `waits` marks a wait, whose trap is taken after
it ends; `again` a wait already seen, which counts only. -/
def W.deviate (w : W) (k c unit : Nat) (pc : Word) (n : Nat := 1) (waits again : Bool := false) : W :=
  let b := sntReg (k / 4)
  let ctrl := w.stg b
  let seen := w.rg (b + 4)
  let w := w.bump (b + 0x20 + 4 * c) n
  let w := if seen = 0 then
      ((w.setRg (b + 8) (w32 (c * 2 ^ 29 + unit * 2 ^ 23 + wf pc 14 0))).setRg (b + 0xC) (w32 w.now)).setRg
        (b + 0x10) (w32 (w.now / 2 ^ 32))
    else w
  let w := w.setRg (b + 4) (wset seen c c 1)
  let w := if !wbit seen c && wbit ctrl (16 + c) then
      let pl := c * 2 ^ 29 + k / 4 % 8 * 2 ^ 24 + wf pc 14 0
      (w.raiseNow (0x5D0 + k / 32) pl).signal 4 (k / 4) pl
    else w
  if c < 7 ∧ wbit ctrl (8 + c) ∧ !again then w.pend k { vec := 12, detail := c, faddr := pc, waits := waits } else w

/-- INTERRUPTED: `n` cycles of t0 in its shadow bank at a bundle, counted while STRICT = 1 and EN = 1 (06 R233,
R235). -/
def W.interrupted (w : W) (k n : Nat) (pc : Word) : W :=
  if k % 4 = 0 ∧ k < 768 ∧ (w.en (k / 4)).strict ∧ wbit (w.stg (sntReg (k / 4))) 0 then
    w.deviate k 7 0x1F pc n
  else w

/-- Whether no thread of an engine other than this one is READY to issue; the keepers have no counters (06 R224). -/
def W.soleIssuer (w : W) (k : Nat) : Bool :=
  decide (k < 768) &&
  ((w.en (k / 4)).strict || (upTo 4).all fun t => decide (t = k % 4) || decide ((w.th (tkey (k / 4) t)).run ≠ .ready))

/-- A counter advanced where a test holds. -/
def W.bumpIf (w : W) (b : Bool) (a n : Nat) : W := if b then w.bump a n else w

/-- `n` cycles in which a thread's engine issues nothing, unless another thread is READY to issue in them (06 R224,
R248). -/
def W.idle (w : W) (k n : Nat) : W := w.bumpIf (w.soleIssuer k) (sntReg (k / 4) + 0x44) n

/-- Whether a physical address lies in an engine's own data or instruction memory. -/
def ownSmall (e pa : Nat) : Bool := decide (e < 192) && decide (ownerEng pa = some e)

/-- `n` cycles lost in arbitration by an access of a thread, at a physical address, on a unit: EDM_BANKLOSS counts those
at the engine's own memories, and the sentinel records BANK_STALL (06 R219, R233; 09 R330, R333, R365). -/
def W.bankLoss (w : W) (k unit : Nat) (pc : Word) (pa n : Nat) : W :=
  if n = 0 then w
  else
    let w := if ownSmall (k / 4) pa then w.bump (edmReg (k / 4) + 4) n else w
    if w.checked k then w.deviate k 3 unit pc n else w

/-- Whether the entry that an access waits for is still in use. -/
def Thread.entryIn (x : Thread) (a : Acc) : Bool :=
  match a.after with
  | some i => (x.sbuf.any fun s => decide (s.id = i)) || x.accs.any fun c => c.op.isAtomic && decide (c.seq = i)
  | none => false

/-- Whether the strict-timed freeze holds an engine: an access has lost a cycle to an entry that it partly overlaps, and
that entry is still in use (06 R219, R239). -/
def W.frozen (w : W) (e : Nat) : Bool :=
  (w.en e).strict && (w.th (4 * e)).accs.any fun a => a.froze && (w.th (4 * e)).entryIn a

/-! ### Work in flight -/

/-- A register that an operation writes directly, by kind: 0 D, 1 A, 2 X, 3 P. -/
abbrev RegId := Nat × Nat

/-- Whether a register is replaced in the shadow bank (02 R76). -/
def banked (r : RegId) : Bool :=
  match r.1 with
  | 0 => decide (24 ≤ r.2) | 1 => decide (12 ≤ r.2) | 3 => decide (4 ≤ r.2) | _ => false

/-- The D registers that a narrow operation writes (04 R145, R147). -/
def SimdJob.dests (j : SimdJob) : List Nat :=
  match j.op with
  | .nars16 => (upTo 4).map (4 * j.qd + ·)
  | .nars8 | .naru8 => [4 * j.qd, 4 * j.qd + 1]
  | _ => []

/-- The registers that an operation in flight is still to write directly. -/
def Op.writes (o : Op) : List RegId :=
  o.ds.map (fun c => (0, c.1)) ++ o.as.map (fun c => (1, c.1)) ++ o.preds.map (fun c => (3, c.1)) ++
  (match o.simd with
   | some j => ((j.dests.filter fun n => !o.taken.contains n).map fun n => (0, n)) ++ if j.op.isMac then [(2, j.xa)] else []
   | none => []) ++
  (match o.recv with | some (_, pd) => [(3, pd)] | none => [])

/-- The registers that a double load is still to write. -/
def Acc.writes (a : Acc) : List RegId :=
  if a.op = .ldd then (if a.keep.1 then [(0, a.dr)] else []) ++ (if a.keep.2 then [(0, a.dr + 1)] else []) else []

/-- Whether an access has variable latency: a load outside the engine's own memories, an atomic outside its data
memory; an address that nothing decodes answers at once (04 R132, R153, R157). -/
def farAway (e : Nat) (op : LsuOp) (ea : Word) : Bool :=
  let a := ea.toNat
  match engMap e a with
  | .none => false
  | _ => if op.isAtomic then !(decide (0x10000 ≤ a) && decide (a < 0x20000)) else decide (0x10000000 ≤ a)

/-- A wait or an early read that a read meets: the sentinel class (8 for one that it does not record),
the unit (06 R230, R250). -/
abbrev Hold := Nat × Nat

/-- Whether two banks share a register. -/
def sameReg (r : RegId) (a b : Bool) : Bool := !banked r || a == b

/-- What holds a read of a register by the bank `sh` (02 R50, R52; 04 R153; 10 R374; 12 R456). P0 is constant, so that
nothing holds it (02 R56). -/
def W.regHold (w : W) (k : Nat) (sh : Bool) (r : RegId) : List Hold :=
  let x := w.th k
  if r = (3, 0) then [] else
  (x.ops.filter fun o => o.writes.contains r && sameReg r o.shadow sh).map
    (fun o => (if o.every then 8 else 1, o.unit)) ++
  (x.accs.filter fun a => a.writes.contains r && sameReg r a.shadow sh).map
    (fun a => (if farAway (k / 4) a.op a.ea then 5 else 1, 9 + a.lsu))

/-- What holds a write of a register: a direct write outstanding, which is a wait under R52 (02 R52; 06 R230). -/
def W.writeHold (w : W) (k : Nat) (sh : Bool) (r : RegId) : List Hold := (w.regHold k sh r).map fun h => (1, h.2)

/-- The unit of a result socket (02 R42, 03 R111). -/
def sockUnit (s : Nat) : Nat :=
  match s with
  | 48 => 0 | 49 => 1 | 50 => 2 | 51 => 3 | 52 => 3 | 53 => 4 | 54 => 4 | 55 => 5 | 56 => 6
  | 57 => 7 | 58 => 7 | 59 => 7 | 60 => 8 | 102 => 8 | 61 => 9 | 62 => 10 | 63 => 11
  | 103 | 104 | 105 | 106 => 13
  | 107 | 108 | 109 | 110 => 12
  | _ => 31

/-- What holds a read of a source (02 R49, R50, R52; 03 R119, R122; 04 R153; 10 R374; 12 R456). -/
def W.srcHold (w : W) (k : Nat) (s : Nat) : List Hold :=
  let x := w.th k
  let sh := x.shadow
  if s < 32 then w.regHold k sh (0, s)
  else if s < 48 then w.regHold k sh (1, s - 32)
  else if s = 61 ∨ s = 62 then
    (x.accs.filter fun a => decide (a.lsu = s - 61) && a.shadow == sh).map
      fun a => (if farAway (k / 4) a.op a.ea then 5 else 1, 9 + a.lsu)
  else if s < 64 ∨ s = 102 then
    (x.ops.filter fun o => decide (o.unit = sockUnit s) && o.shadow == sh).map fun o => (1, o.unit)
  else if s = 101 then (upTo 7).flatMap fun i => w.regHold k sh (3, i + 1)
  else if 103 ≤ s ∧ s ≤ 106 then
    (x.ops.filter fun o => decide (o.unit = 13) && o.shadow == sh && o.every).map fun o => (8, o.unit)
  else if 107 ≤ s ∧ s ≤ 110 then
    (x.ops.filter fun o => decide (o.unit = 12) && o.shadow == sh && o.every).map fun o => (8, o.unit)
  else if s = 112 then
    if (w.hv.any fun c => c.2.any fun j => decide (j.key = k)) then [(5, 0x10)] else []
  else if 116 ≤ s ∧ s ≤ 127 then
    let u := (s - 116) / 2
    if w.annex.ops.any fun j => decide (j.unit = u ∧ j.key = k) && j.shadow == sh then [(8, 0x18 + u)] else []
  else []

/-- The register writes of an operation that no later write has taken. -/
def Op.kept (o : Op) (l : List (Nat × Word)) : List (Nat × Word) := l.filter fun c => !o.taken.contains c.1

/-- What each MAC of accumulator `n` in flight will set, resolved now: overflow, and the results of the
operations that read the accumulator, so that a later move may write it (04 R146 to R148; 06 R231). -/
def SimdJob.run (j : SimdJob) (acc : List (BitVec 40)) (o : Op) : List (BitVec 40) × Op :=
    let at' (i : Nat) : BitVec 40 := acc.getD i 0
    if j.op.isMac then
      let sums := (upTo 8).map fun i => macSum j.op j.t (at' i) j.qa j.qb i
      (sums.map fun s => BitVec.ofInt 40 s, { o with ov := sums.any ovf40, simd := none })
    else
      match j.op with
      | .xlane => (acc, { o with srcs := [(55, xlaneEval (at' (wf j.t 2 0)))], simd := none })
      | .nars16 =>
        let hs := (upTo 8).map fun i => narrow j.op j.t (at' i)
        (acc, { o with simd := none, ds := o.kept
                        ((upTo 4).map fun i => (4 * j.qd + i, w32 (joinN 16 ((hs.drop (2 * i)).take 2)))) })
      | _ =>
        let bs := (upTo 8).map fun i => narrow j.op j.t (at' i)
        (acc, { o with simd := none, ds := o.kept
                        ((upTo 2).map fun i => (4 * j.qd + i, w32 (joinN 8 ((bs.drop (4 * i)).take 4)))) })

/-- The lanes of an accumulator. -/
def Thread.lanes (x : Thread) (n : Nat) : List (BitVec 40) := (upTo 8).map (x.lane n)

/-- The lanes of an accumulator replaced. -/
def Thread.setLanes (x : Thread) (n : Nat) (l : List (BitVec 40)) : Thread :=
  { x with x := (upTo 8).foldl (fun t i => tset t (8 * n + i) (l.getD i 0)) x.x }

/-- The operations in flight on accumulator `n`, resolved in trigger order. -/
def resolveX (n : Nat) : List (BitVec 40) → List Op → List Op
  | _, [] => []
  | acc, o :: r =>
    match o.simd with
    | some j =>
      if j.xa = n then
        let (acc', o') := j.run acc o
        o' :: resolveX n acc' r
      else o :: resolveX n acc r
    | none => o :: resolveX n acc r

/-- An operation that no longer writes a register: a narrowing loses that one of its registers, and a RECV's predicate
becomes P0, whose writes have no effect (02 R52, R56). -/
def Op.without (o : Op) (r : RegId) : Op :=
  match r.1 with
  | 0 => { o with ds := o.ds.filter (fun c => c.1 != r.2), taken := if o.simd.isSome then r.2 :: o.taken else o.taken }
  | 1 => { o with as := o.as.filter fun c => c.1 != r.2 }
  | 3 => { o with preds := o.preds.filter (fun c => c.1 != r.2)
                  recv := o.recv.map fun c => (c.1, if c.2 = r.2 then 0 else c.2) }
  | _ => o

/-- A register taken by a later write: no operation in flight writes it any more (02 R52, 06 R231). -/
def Thread.claim (x : Thread) (sh : Bool) (r : RegId) : Thread :=
  let drop (o : Op) : Op := if sameReg r o.shadow sh then o.without r else o
  let ops := if r.1 = 2 then resolveX r.2 (x.lanes r.2) x.ops else x.ops.map drop
  let accs := if r.1 = 0 then x.accs.map fun a =>
      if a.op = .ldd ∧ sameReg r a.shadow sh then
        { a with keep := (a.keep.1 && decide (a.dr ≠ r.2), a.keep.2 && decide (a.dr + 1 ≠ r.2)) }
      else a
    else x.accs
  { x with ops := ops, accs := accs }

/-- A thread that starts an operation: it takes the thread's next operation number, and its registers are taken
from older ones (02 R43, R52, R77; 04 R166). -/
def Thread.launch (x : Thread) (o : Op) : Thread :=
  let y := o.writes.foldl (fun y r => if r.1 = 2 then y else y.claim y.shadow r) x
  { y with
    seq := x.seq + 1
    ops := y.ops ++ [{ o with seq := x.seq, shadow := x.shadow, ovt := x.ovt && !x.shadow, dzt := x.dzt && !x.shadow
                              origin := x.charged }] }

/-- An operation of a thread starts. -/
def W.launchOp (w : W) (k : Nat) (o : Op) : W := w.modTh k fun x => x.launch o

/-- The first element that holds, and the others. -/
def takeFirst {α : Type} (p : α → Bool) : List α → Option (α × List α)
  | [] => none
  | a :: r => if p a then some (a, r) else (takeFirst p r).map fun c => (c.1, a :: c.2)

/-- The table lines of an operation that has completed are unlocked with it (05 R205): an operation holds
them by its own place in the list. Results land in the bank that triggered the operation (02 R77). -/
def Thread.land (x : Thread) (o : Op) : Thread :=
  let sh := o.shadow
  let x := o.srcs.foldl (fun x c => x.setSrc sh c.1 c.2) x
  let x := o.preds.foldl (fun x c => x.setP sh c.1 c.2) x
  let x := o.ds.foldl (fun x c => x.setD sh c.1 c.2) x
  let x := o.as.foldl (fun x c => x.setA sh c.1 c.2) x
  { x with ov := x.ov || o.ov, dz := x.dz || o.dz, bi := x.bi || o.bi }

/-- The latency in cycles, on a B1, of a unit whose operations can trap (04 R132, R168). -/
def trapLat (unit : Nat) : Nat := match unit with | 4 => 20 | 5 => 4 | 6 => 2 | _ => 1

/-- The traps that an operation raises as it completes, for a thread that takes them at a depth of handlers (04 R165 to
R171; 08 R310). -/
def Op.traps (o : Op) (lvl : Nat) : List Exc :=
  let t (v : Nat) : Exc :=
    { vec := v, faddr := o.pc, seq := o.seq, trap := true, origin := o.origin, lvl := lvl, lat := trapLat o.unit }
  (if o.ov && o.ovt then [t 10] else []) ++ (if o.dz && o.dzt then [t 11] else [])

/-- A trap takes its place among the pending ones: traps go in completion order, and operations of one latency complete
in trigger order (04 R132, R170). -/
def putTrap (t : Exc) : List Exc → List Exc
  | [] => [t]
  | e :: r => if e.trap && decide (e.lat = t.lat ∧ t.seq < e.seq) then t :: e :: r else e :: putTrap t r

/-- A thread with the traps of an operation pending. -/
def Thread.trapsOf (x : Thread) (o : Op) : Thread := { x with excs := (o.traps x.trapLvl).foldl (fun l t => putTrap t l) x.excs }

/-- A pending RECV takes the next flit of its channel: the four words, and whether it ends its message
(10 R373, R374). -/
def W.popFlit (w : W) (e ch : Nat) : Option (Flit × W) :=
  let (node, c) := engChan e ch
  match tget [] w.net.rx (32 * node + c) with
  | [] => none
  | f :: r => some (f, { w with net := { w.net with rx := tset w.net.rx (32 * node + c) r } })

/-- The results of a received flit (10 R373). -/
def flitSrcs (f : Flit) : List (Nat × Word) := (upTo 4).map fun i => (107 + i, w32 (f.data / 2 ^ (32 * i)))

/-- Whether an operation in flight can complete: a RECV needs a flit in its channel (10 R374). -/
def W.canEnd (w : W) (k : Nat) (o : Op) : Bool :=
  match o.recv with
  | some (ch, _) => (w.popFlit (k / 4) ch).isSome
  | none => true

/-- The oldest operation in flight of a thread on a unit that can complete does so, and delivers its results,
predicates and direct register writes (06 R216; 02 R48; 04 R165, R167; 05 R189; 10 R374). `lost` is how many cycles its
table read lost in arbitration (05 R188; 06 R219). The strict-timed freeze holds it (06 R219). -/
def W.opResult (w : W) (k u lost : Nat) : W :=
  let x := w.th k
  if w.frozen (k / 4) then w
  else
    match takeFirst (fun o => decide (o.unit = u) && w.canEnd k o) x.ops with
    | none => w
    | some (o, rest) =>
      let w := match o.tbl with | some (pa, _) => w.bankLoss k u o.pc pa lost | none => w
      let x := w.th k
      match o.err with
      | some (st, a) => (w.setTh k { x with ops := rest }).busErr k st a o.seq o.shadow o.origin
      | none =>
        match o.recv with
        | some (ch, pd) =>
          match w.popFlit (k / 4) ch with
          | none => w
          | some (f, w) =>
            w.setTh k (Thread.land { x with ops := rest } { o with srcs := flitSrcs f, preds := [(pd, f.last)] })
        | none =>
          let (acc, o) := match o.simd with
            | some j => let (acc, o') := j.run (x.lanes j.xa) o; (some (j.xa, acc), o')
            | none => (none, o)
          let x := match acc with | some (n, l) => Thread.setLanes { x with ops := rest } n l | none => { x with ops := rest }
          w.setTh k ((x.land o).trapsOf o)

end Sys2Proof.Machine
end

