-- ==== Sys2Proof/Machine/Crypto.lean ====
section
/-! DEFINITION. SHA-256 (FIPS 180-4), ECDSA over P-256 (FIPS 186-4) and CRC-32C, to which the spec
refers by name (03 R115, R116; 07 R261; 11 R428). PRESUMED, notes/assumptions/16. -/

namespace Sys2Proof.Machine

/-! ### SHA-256 -/

/-- Word `i` of a number that packs eight words, the first one in its top bits. -/
def packed8 (x i : Nat) : Word := w32 (x / 2 ^ (224 - 32 * i))

/-- The initial hash value, packed. -/
def shaStart : Nat := 0x6a09e667bb67ae853c6ef372a54ff53a510e527f9b05688c1f83d9ab5be0cd19

/-- The round constants, eight to a number. -/
def shaConsts : List Nat := [
  0x428a2f9871374491b5c0fbcfe9b5dba53956c25b59f111f1923f82a4ab1c5ed5,
  0xd807aa9812835b01243185be550c7dc372be5d7480deb1fe9bdc06a7c19bf174,
  0xe49b69c1efbe47860fc19dc6240ca1cc2de92c6f4a7484aa5cb0a9dc76f988da,
  0x983e5152a831c66db00327c8bf597fc7c6e00bf3d5a7914706ca635114292967,
  0x27b70a852e1b21384d2c6dfc53380d13650a7354766a0abb81c2c92e92722c85,
  0xa2bfe8a1a81a664bc24b8b70c76c51a3d192e819d6990624f40e3585106aa070,
  0x19a4c1161e376c082748774c34b0bcb5391c0cb34ed8aa4a5b9cca4f682e6ff3,
  0x748f82ee78a5636f84c878148cc7020890befffaa4506cebbef9a3f7c67178f2]

/-- The constant of round `t`. -/
def shaConst (t : Nat) : Word := packed8 (shaConsts.getD (t / 8) 0) (t % 8)

/-- The exclusive or of a word's rotations to the right. -/
def rotations (x : Word) (ns : List Nat) : Word := ns.foldl (fun y n => y ^^^ x.rotateRight n) 0

/-- The word that the message schedule adds behind a window of sixteen words. -/
def shaNext (win : List Word) : Word :=
  let small (i a b sh : Nat) : Word := rotations (win.getD i 0) [a, b] ^^^ ((win.getD i 0) >>> sh)
  win.getD 0 0 + small 1 7 18 3 + win.getD 9 0 + small 14 17 19 10

/-- `n` rounds from round `t` on. Each round adds one word in front of each half of the working variables, which are
given newest first, and moves the window of the message schedule on by one word. -/
def shaRounds : Nat → Nat → List Word → List Word × List Word → List Word × List Word
  | 0, _, _, v => v
  | n + 1, t, win, (hi, lo) =>
    let x (i : Nat) : Word := hi.getD i 0
    let y (i : Nat) : Word := lo.getD i 0
    let choice := y 2 ^^^ (y 0 &&& (y 1 ^^^ y 2))
    let majority := (x 0 &&& (x 1 ||| x 2)) ||| (x 1 &&& x 2)
    let step := win.getD 0 0 + shaConst t + y 3 + choice + rotations (y 0) [6, 11, 25]
    shaRounds n (t + 1) (win.drop 1 ++ [shaNext win])
      ((step + majority + rotations (x 0) [2, 13, 22]) :: hi.take 3, (x 3 + step) :: lo.take 3)

/-- The hash value after one more block of 64 bytes. -/
def shaBlock (h : List Word) (blk : List Byte) : List Word :=
  let win := (upTo 16).map fun i => w32 (beNat ((blk.drop (4 * i)).take 4))
  let v := shaRounds 64 0 win (h.take 4, h.drop 4)
  List.zipWith (· + ·) h (v.1 ++ v.2)

/-- The hash value after the first `n` blocks of bytes. -/
def shaBlocks (n : Nat) (bs : List Byte) : List Word :=
  (upTo n).foldl (fun h i => shaBlock h ((bs.drop (64 * i)).take 64)) ((upTo 8).map (packed8 shaStart))

/-- The SHA-256 digest, in output order: the message is followed by a one bit, zeros up to the last 8 bytes of a block,
and its length in bits. -/
def sha256 (m : List Byte) : List Byte :=
  let n := (m.length + 72) / 64
  let padded := m ++ 0x80 :: (List.replicate (64 * n - 9 - m.length) 0 ++ beBytes 8 (8 * m.length))
  (shaBlocks n padded).flatMap fun w => beBytes 4 w.toNat

/-! ### CRC-32C -/

/-- `n` shifts of the reflected CRC-32C register. -/
def crcShift : Nat → Nat → Nat
  | 0, x => x
  | n + 1, x => crcShift n (if x % 2 = 1 then (x / 2) ^^^ 0x82F63B78 else x / 2)

/-- The register after one more byte (11 R428). -/
def crcStep (x : Nat) (b : Byte) : Nat := crcShift 8 (x ^^^ b.toNat)

/-- The CRC-32C of bytes (11 R428). -/
def crc32c (l : List Byte) : Nat := (l.foldl crcStep 0xFFFFFFFF) ^^^ 0xFFFFFFFF

/-! ### ECDSA over P-256 -/

/-- The field prime, the order, the coefficient b and the base point. -/
def ecP : Nat := 0xffffffff00000001000000000000000000000000ffffffffffffffffffffffff
def ecN : Nat := 0xffffffff00000000ffffffffffffffffbce6faada7179e84f3b9cac2fc632551
def ecB : Nat := 0x5ac635d8aa3a93e7b3ebbd55769886bc651d06b0cc53b0f63bce3c3e27d2604b
def ecG : Option (Nat × Nat) :=
  some (0x6b17d1f2e12c4247f8bce6e563a440f277037d812deb33a0f4a13945d898c296,
    0x4fe342e2fe1a7f9b8ee7eb4a7c0f9e162bce33576b315ececbb6406837bf51f5)

/-- `a ^ e` modulo `m`, over the low `n` bits of `e`. -/
def powMod (m a e : Nat) : Nat → Nat
  | 0 => 1 % m
  | n + 1 =>
    let h := powMod m (a * a % m) (e / 2) n
    if e % 2 = 1 then a * h % m else h

/-- The inverse modulo a prime. -/
def invMod (m a : Nat) : Nat := powMod m (a % m) (m - 2) 256

/-- The sum of two points of the curve; `none` is the point at infinity. -/
def ecAdd (p q : Option (Nat × Nat)) : Option (Nat × Nat) :=
  match p, q with
  | none, q => q
  | p, none => p
  | some (x1, y1), some (x2, y2) =>
    if x1 = x2 ∧ (y1 + y2) % ecP = 0 then none
    else
      let l := if x1 = x2 then (3 * x1 * x1 + ecP - 3) % ecP * invMod ecP (2 * y1) % ecP
        else (y2 + ecP - y1) % ecP * invMod ecP (x2 + ecP - x1) % ecP
      let x3 := (l * l + 2 * ecP - x1 - x2) % ecP
      some (x3, (l * (x1 + ecP - x3) + ecP - y1) % ecP)

/-- A multiple of a point, over the low `n` bits of the factor. -/
def ecMul (p : Option (Nat × Nat)) (k : Nat) : Nat → Option (Nat × Nat)
  | 0 => none
  | n + 1 =>
    let h := ecMul (ecAdd p p) (k / 2) n
    if k % 2 = 1 then ecAdd p h else h

/-- Whether (x, y) is a point of the curve (03 R118). -/
def ecOn (x y : Nat) : Bool :=
  decide (x < ecP) && decide (y < ecP) && decide (y * y % ecP = (x * x * x + (ecP - 3) * x + ecB) % ecP)

/-- Whether signature `r ∥ s` verifies over a digest under key `Qx ∥ Qy`; the values are big-endian
(03 R115, R118). -/
def ecVerify (key digest sig : List Byte) : Bool :=
  let qx := beNat (key.take 32)
  let qy := beNat ((key.drop 32).take 32)
  let r := beNat (sig.take 32)
  let s := beNat ((sig.drop 32).take 32)
  if r = 0 ∨ ecN ≤ r ∨ s = 0 ∨ ecN ≤ s ∨ !ecOn qx qy then false
  else
    let w := invMod ecN s
    let u1 := beNat digest * w % ecN
    let u2 := r * w % ecN
    match ecAdd (ecMul ecG u1 256) (ecMul (some (qx, qy)) u2 256) with
    | none => false
    | some (x, _) => decide (x % ecN = r)

/-- Whether a signed object verifies under a key: its last 64 bytes sign the rest (07 R261). -/
def sigOk (key obj : List Byte) : Bool :=
  ecVerify key (sha256 (obj.take (obj.length - 64))) (obj.drop (obj.length - 64))

end Sys2Proof.Machine
end

