-- ==== Sys2Proof/Machine/Eth.lean ====
section
/-! DEFINITION. Ethernet ports (15 R568 to R578): configuration blocks and their checks, rings and
descriptors, the classifier, streams, cyclic frames, gate lists and links. -/

namespace Sys2Proof.Machine

/-! ### DMA of the hubs -/

/-- The default target answers a request (10 R399, R403, R407). -/
def W.defaultErr (w : W) (r : Req) (a : Nat) (wr : Bool) : W :=
  let w := w.bump 0x40050208
  if w.defSeen then w
  else
    let w := (w.setRg 0x40050200 (w32 a)).setRg 0x40050204
      (w32 (2 ^ 31 + r.ring % 4 * 2 ^ 10 + b01 wr * 2 ^ 9 + r.who.master))
    W.raiseNow { w with defSeen := true } 0x5F1 (2 ^ 28 + r.who.master * 2 ^ 22 + 0x3F * 65536)

/-- The request of a hub's DMA or of the vault; no rule gives such a request a ring: ring 0 (notes/assumptions/59). -/
def hubReq (who : Who) : Req := { who := who, ring := 0 }

/-- Bytes read by a hub's DMA: memory; the annex while its link is up; host memory over a PCIe link that is up; both
lie outside the device and read as free bytes (10 R394, R399; 15 R571, R587, R597; notes/assumptions/20). The
register hub takes no burst (00 R8; DEDUCED, notes/assumptions/59). -/
def W.dmaRd (w : W) (who : Who) (a n : Nat) : W × Except St (List Byte) :=
  match mtxMap a with
  | .mem pa => w.rdMem who pa n
  | .pcie _ =>
    if w.pcie.width = 0 then (w, .error .busError)
    else
      ({ w with free := w.free + 1 }, .ok ((upTo n).map fun i => Config.freeByte w.free (a + i)))
  | .annex _ =>
    if w.annex.st = 2 ∧ n % 4 = 0 ∧ n ≤ 32 ∧ a % 4 = 0 then
      ({ w with free := w.free + 1 }, .ok ((upTo n).map fun i => Config.freeByte w.free (a + i)))
    else (w, .error .busError)
  | .reg _ => (w, .error .busError)
  | .none => (w.defaultErr (hubReq who) a false, .error .busError)

/-- Bytes written by a hub's DMA. -/
def W.dmaWr (w : W) (who : Who) (a : Nat) (bs : List Byte) : W × Option St :=
  match mtxMap a with
  | .mem pa => w.wrMem who pa bs
  | .pcie _ => (w, if w.pcie.width = 0 then some .busError else none)
  | .annex _ =>
    (w, if w.annex.st = 2 ∧ bs.length % 4 = 0 ∧ bs.length ≤ 32 ∧ a % 4 = 0 then none else some .busError)
  | .reg _ => (w, some .busError)
  | .none => (w.defaultErr (hubReq who) a true, some .busError)

/-! ### Configuration blocks -/

/-- Port `n`. -/
def Dev.port (d : Dev) (n : Nat) : EthPort := tget {} d.eth n

/-- A port replaced. -/
def W.setPort (w : W) (n : Nat) (x : EthPort) : W := { w with eth := tset w.eth n x }

/-- MODE of a configuration block; a port that was never configured is off (15 R568, R576). -/
def cfgMode (b : List Byte) : Nat := fld (wdAt b 4) 1 0

/-- Counts of classifier rules, cyclic entries, fields and gate entries (15 R576). -/
def cfgNcls (b : List Byte) : Nat := fld (wdAt b 4) 23 16
def cfgNcyc (b : List Byte) : Nat := fld (wdAt b 4) 31 24
def cfgNfld (b : List Byte) : Nat := wdAt b 8
def cfgNgcl (b : List Byte) : Nat := wdAt b 12

/-- Offsets of the records: rings, classifier rules, cyclic entries, fields, gate entries (15 R576). -/
def offRing (i : Nat) : Nat := 64 + 16 * i
def offCls (i : Nat) : Nat := 256 + 16 * i
def offCyc (b : List Byte) (i : Nat) : Nat := 256 + 16 * cfgNcls b + 32 * i
def offFld (b : List Byte) (i : Nat) : Nat := offCyc b (cfgNcyc b) + 8 * i
def offGcl (b : List Byte) (i : Nat) : Nat := offFld b (cfgNfld b) + 8 * i

/-- Length of a configuration block. -/
def cfgLen (b : List Byte) : Nat := offGcl b (cfgNgcl b)

/-- Check 4: a header field breaks its table (15 R576). -/
def ethHeadBad (h : List Byte) : Bool :=
  !(decide (wdAt h 0 = 0x31485445) && decide (fld (wdAt h 4) 15 2 = 0) && decide (cfgNcls h ≤ 32) &&
    decide (cfgNcyc h ≤ 16) && decide (cfgNfld h ≤ 256) && decide (cfgNgcl h ≤ 256) &&
    decide (1024 ≤ wdAt h 24 ∧ wdAt h 24 ≤ 1000000000) && decide (wdAt h 32 < 512) && zeroAt h 36 64)

/-- Whether ring record `i` breaks its table. -/
def ringBad (b : List Byte) (i : Nat) : Bool :=
  let o := offRing i
  !(decide (wdAt b o % 32 = 0) && decide (2 ≤ wdAt b (o + 4) ∧ wdAt b (o + 4) ≤ 4096) &&
    decide (wdAt b (o + 8) < 2 ^ 13) && decide (wdAt b (o + 12) = 0))

/-- Whether classifier record `i` breaks its table. -/
def clsBad (b : List Byte) (i : Nat) : Bool :=
  let o := offCls i
  let act := byAt b (o + 10)
  let tg := byAt b (o + 11)
  !((decide (hfAt b (o + 2) < 4096) || decide (hfAt b (o + 2) = 0xFFFF)) &&
    (decide (act = 0) && decide (tg < 4) || decide (act = 1) && decide (tg < 32) || decide (act = 2)) &&
    decide (hfAt b (o + 12) ≤ 1500) && decide (hfAt b (o + 14) = 0))

/-- Whether cyclic record `i` breaks its table, or its fields lie outside NFLD. -/
def cycBad (b : List Byte) (i : Nat) : Bool :=
  let o := offCyc b i
  !(decide (10000 ≤ wdAt b o) && decide (wdAt b (o + 4) < wdAt b o) && decide (2048 ≤ wdAt b (o + 8)) &&
    decide (wdAt b (o + 8) ≤ wdAt b o) && decide (60 ≤ hfAt b (o + 16) ∧ hfAt b (o + 16) ≤ 2044) &&
    decide (byAt b (o + 18) ≤ 7) && decide (byAt b (o + 19) < 4) && zeroAt b (o + 24) (o + 32) &&
    decide (hfAt b (o + 20) + hfAt b (o + 22) ≤ cfgNfld b))

/-- Whether field record `i` breaks its table; DST + LEN is held against every entry that uses it. -/
def fldBad (b : List Byte) (i : Nat) : Bool :=
  let o := offFld b i
  let len := byAt b (o + 3)
  !(decide (byAt b o < 32) && (decide (byAt b (o + 1) < 32) || decide (byAt b (o + 1) = 0xFF)) &&
    decide (1 ≤ len ∧ len ≤ 64) && decide (hfAt b (o + 6) = 0) &&
    (upTo (cfgNcyc b)).all fun k =>
      let c := offCyc b k
      !(decide (hfAt b (c + 20) ≤ i) && decide (i < hfAt b (c + 20) + hfAt b (c + 22))) ||
        decide (hfAt b (o + 4) + len ≤ hfAt b (c + 16)))

/-- Whether gate record `i` breaks its table (15 R569, R576). -/
def gclBad (b : List Byte) (i : Nat) : Bool :=
  let o := offGcl b i
  let t := wdAt b (o + 4)
  !(decide (wdAt b o < 512) && decide (t % 8 = 0) && decide (8 ≤ t ∧ t ≤ 2 ^ 30))

/-- The sum of the gate intervals. -/
def gclSum (b : List Byte) : Nat := ((upTo (cfgNgcl b)).map fun i => wdAt b (offGcl b i + 4)).foldl (· + ·) 0

/-- Checks 5 and 6 of a configuration block. Records are numbered from 0 through the block in its order;
check 6 is made where there is a gate list (DEDUCED, notes/assumptions/23). -/
def ethChecks (b : List Byte) : Except Fin3 Unit := do
  chkEach (upTo 12) (ringBad b) .badValue 5
  chkEach (upTo (cfgNcls b)) (clsBad b) .badValue 5 12
  chkEach (upTo (cfgNcyc b)) (cycBad b) .badValue 5 (12 + cfgNcls b)
  chkEach (upTo (cfgNfld b)) (fldBad b) .badValue 5 (12 + cfgNcls b + cfgNcyc b)
  chkEach (upTo (cfgNgcl b)) (gclBad b) .badValue 5 (12 + cfgNcls b + cfgNcyc b + cfgNfld b)
  chk (decide (cfgNgcl b ≠ 0) && decide (gclSum b ≠ wdAt b 24)) .badValue 6

/-! ### Queues and rings -/

/-- A queue or ring of a port. -/
def EthPort.qu (x : EthPort) (i : Nat) : EthQ := tget {} x.q i

/-- A queue or ring replaced. -/
def W.setQu (w : W) (n i : Nat) (q : EthQ) : W :=
  w.setPort n { w.port n with q := tset (w.port n).q i q }

/-- Queue or ring `i` fetches its next descriptor; one with OWN = 0, or one that cannot be read, parks
it, unless a doorbell is pending, which makes it read once more (15 R572; 11 R436). -/
def W.ethFetch (w : W) (n i : Nat) : W :=
  let x := w.port n
  let q := x.qu i
  let a := wdAt x.cfg (offRing i) + 32 * q.idx
  let (w, r) := w.dmaRd .eth a 32
  match r with
  | .error _ => w.setQu n i { q with desc := none, park := true, db := false }
  | .ok bs =>
    let ws := (upTo 8).map fun k => w32 (wdAt bs (4 * k))
    if wbit (ws.getD 0 0) 31 then
      w.setQu n i { q with
        park := false, db := false
        desc := some { addr := a, idx := q.idx, words := ws, tag := wdAt x.cfg (offRing i + 8), corr := hfAt x.cfg 30 } }
    else w.setQu n i { q with desc := none, park := true, db := false }

/-- A doorbell for a queue or ring: a parked one repeats its read (15 R572; 11 R436). -/
def W.ethBell (w : W) (n i : Nat) : W :=
  let q := (w.port n).qu i
  if q.park then w.ethFetch n i else w.setQu n i { q with db := true }

/-- A write to ETH_DB (15 R572, R578); it has effect on a port that is on. -/
def W.ethDb (w : W) (n : Nat) (v : Word) : W :=
  if cfgMode (w.port n).cfg = 0 then w
  else ((upTo 12).filter fun i => wbit v i).foldl (fun w i => w.ethBell n i) w

/-- An event of a port (15 R577). -/
def W.ethEvent (w : W) (n k kind : Nat) (rest : Nat := 0) : W :=
  w.raiseNow (0x400 + 32 * n + k) (kind * 2 ^ 28 + rest)

/-- A descriptor ends: LEN, INFO and the timestamp are written, then STAT with OWN = 0, then the event
is sent, and the next descriptor is fetched (15 R572, R577). -/
def W.ethDone (w : W) (n i : Nat) (d : EthDesc) (len info stamp : Nat) (bad : Option Nat) : W :=
  let s := d.words.getD 0 0
  let w := (w.dmaWr .eth (d.addr + 8) (leBytes 4 len ++ leBytes 4 info ++ leBytes 8 stamp)).1
  let w := (w.dmaWr .eth d.addr (leBytes 4 (match bad with | some st => 2 ^ 30 + wf s 29 29 * 2 ^ 29 + st % 65536 | none => wf s 29 29 * 2 ^ 29))).1
  let k := if i < 8 then 4 else i - 8
  let rest := (if i < 8 then i * 65536 else 0) + d.idx
  let w := match bad with
    | some _ => w.ethEvent n k 2 rest
    | none => if wbit s 29 then w.ethEvent n k 1 rest else w
  let q := (w.port n).qu i
  let cnt := wdAt (w.port n).cfg (offRing i + 4)
  let q := { q with desc := none, idx := if d.old then q.idx else (q.idx + 1) % max cnt 1 }
  let w := w.setQu n i q
  if cfgMode (w.port n).cfg = 0 then w else w.ethFetch n i

/-! ### Configuration commits -/

/-- The gate entry that holds phase `ph` of the cycle, looked for from entry `i`, whose interval starts
at phase `acc`, and the phase at which its interval ends. -/
def gclFind (b : List Byte) (ph : Nat) : Nat → Nat → Nat → Nat × Nat
  | 0, i, acc => (i, acc)
  | f + 1, i, acc =>
    let nxt := acc + wdAt b (offGcl b i + 4)
    if ph < nxt then (i, nxt) else gclFind b ph f (i + 1) nxt

/-- The gate entry in force at a time and the end of its interval (15 R569, R576). -/
def gclAtTime (b : List Byte) (now : Nat) : Nat × Nat :=
  let cyc := max (wdAt b 24) 1
  let base := wdAt b 16 + wdAt b 20 * 2 ^ 32
  let ph := ((Int.ofNat now - Int.ofNat base) % Int.ofNat cyc).toNat
  let (i, nxt) := gclFind b ph (cfgNgcl b) 0 0
  (i, now + (nxt - ph))

/-- The link of port `n` goes down: a DOWN record; a tide locked on the port loses its source (12 R464;
15 R577). -/
def W.ethDown (w : W) (n : Nat) : W :=
  let x := w.port n
  let w := (w.setPort n { x with link := false, verify := false }).ethEvent n 5 2 (cfgMode x.cfg)
  if w.tide.st = 2 ∧ w.tide.src = 2 ∧ w.tide.port = n then
    ({ w with tide := { w.tide with st := 3 } }).raiseNow 0x5CF 3
  else w

/-- A configuration takes effect as a whole; transmit descriptors already fetched complete under the old
one (15 R576). Queues and rings start at descriptor 0 (DESIGN CHOICE, notes/assumptions/23). A link that is up goes
down where the configuration has another MODE (R577; 12 R464; DEDUCED, notes/assumptions/23). -/
def W.ethApply (w : W) (n : Nat) (b : List Byte) : W :=
  let w := if (w.port n).link && decide (cfgMode b ≠ cfgMode (w.port n).cfg) then w.ethDown n else w
  let x := w.port n
  let (g, t) := gclAtTime b w.now
  let qs : Tbl EthQ := (upTo 12).map fun i =>
    (i, { desc := if i < 8 then (x.qu i).desc.map fun d => { d with old := true } else none })
  let w := w.setPort n { x with
    cfg := b, armed := none, q := qs, cyc := x.cyc.map fun c => (c.1, { built := c.2.built })
    gcl := g, gclAt := t }
  if cfgMode b = 0 then w
  else (upTo 12).foldl (fun w i => if (((w.port n).qu i).desc).isSome then w else w.ethFetch n i) w

/-- The armed configuration takes effect at its swap time (15 R576). -/
def W.ethSwap (w : W) (n : Nat) : W :=
  match (w.port n).armed with
  | some (b, t) => (w.toTime t).ethApply n b
  | none => w

/-- The link of port `n` comes up, goes down, or ends its 802.3br verification (15 R569, R577): 1 UP, 2
DOWN, 3 VERIFY_OK, 4 VERIFY_FAIL. -/
def W.ethLink (w : W) (n kind : Nat) : W :=
  let x := w.port n
  let m := cfgMode x.cfg
  if m = 0 then w
  else
    match kind with
    | 1 => if x.link then w else (w.setPort n { x with link := true }).ethEvent n 5 1 m
    | 2 => if x.link then w.ethDown n else w
    | 3 => if x.link then (w.setPort n { x with verify := true }).ethEvent n 5 3 m else w
    | 4 => if x.link then (w.setPort n { x with verify := false }).ethEvent n 5 4 m else w
    | _ => w

/-- An ETH commit (15 R576, R578). Bits 5:0 of ETH_CFGADDR, which no check names, are taken as 0: DESIGN CHOICE,
notes/assumptions/55. -/
def ethWork (n : Nat) (w : W) (c : Com) : Except Fin3 (W × Nat) := do
  let g (o : Nat) : Word := c.get (ethReg n + o)
  let act := wf (g 0) 27 24
  let x := w.port n
  chk (decide (act = 0) || decide (3 < act) || decide (wf (g 0) 31 28 ≠ 0) || decide (wf (g 0) 23 0 ≠ 0))
    .badValue 1
  match act with
  | 1 => do
    chk x.armed.isSome .tableBusy 2
    let a := (g 4).toNat / 64 * 64
    let (w, h) := w.dmaRd .eth a 64
    let h ← match h with | .ok h => pure h | .error e => .error { st := e, check := 3, index := 0xFFFF }
    chk (ethHeadBad h) .badValue 4
    let (w, r) := w.dmaRd .eth a (cfgLen h)
    let b ← match r with | .ok b => pure b | .error e => .error { st := e, check := 3, index := 0xFFFF }
    ethChecks b
    if cfgMode x.cfg = 0 then pure (w.ethApply n b, 0)
    else pure (w.setPort n { w.port n with armed := some (b, (g 8).toNat + (g 12).toNat * 2 ^ 32) }, 0)
  | 2 => pure (w.setPort n { x with armed := none }, 0)
  | _ => pure (if x.link then w.ethDown n else w, 0)

/-- The action that the commit under way on a port names. -/
def Dev.ethAction (d : Dev) (n : Nat) : Nat := wf ((d.cm (.eth n)).get (ethReg n)) 27 24

/-! ### Streams -/

/-- A stream record (15 R578): destination MAC, VID, ports and flags, SDU size. -/
def streamAt (b : List Byte) (i : Nat) : Stream :=
  let o := 16 * i
  { mac := (b.drop o).take 6, vid := hfAt b (o + 6), ctl := wdAt b (o + 8), sdu := wdAt b (o + 12) }

/-- Whether a stream record breaks R578: VID, history length 1 to 32, reserved bits. -/
def streamBad (b : List Byte) (i : Nat) : Bool :=
  let s := streamAt b i
  !(decide (s.vid < 4096) && decide (1 ≤ fld s.ctl 15 10 ∧ fld s.ctl 15 10 ≤ 32) && decide (s.ctl < 2 ^ 17))

/-- A stream-table commit (15 R578): checks 1, 3 and 5 of R576. -/
def strWork (w : W) (c : Com) : Except Fin3 (W × Nat) := do
  let n := (c.get 0x40400104).toNat
  chk (decide (64 < n)) .badValue 1
  let (w, r) := w.dmaRd .eth (c.get 0x40400100).toNat (16 * n)
  let b ← match r with | .ok b => pure b | .error e => .error { st := e, check := 3, index := 0xFFFF }
  chkEach (upTo n) (streamBad b) .badValue 5
  pure ({ w with strs := (upTo n).map (streamAt b) }, 0)

/-- The C-tag of a frame: its PCP and VID, if it is tagged (15 R569). -/
def frameTag (f : List Byte) : Option (Nat × Nat) :=
  if byAt f 12 = 0x81 ∧ byAt f 13 = 0 then
    let t := 256 * byAt f 14 + byAt f 15
    some (fld t 15 13, fld t 11 0)
  else none

/-- EtherType of a frame, after a C-tag if it has one. -/
def frameType (f : List Byte) : Nat :=
  let o := if (frameTag f).isSome then 16 else 12
  256 * byAt f o + byAt f (o + 1)

/-- The stream that a frame belongs to, by destination MAC and VID; an untagged frame has VID 0. -/
def Dev.streamOf (d : Dev) (f : List Byte) : Option Nat :=
  (upTo d.strs.length).find? fun i =>
    match d.strs[i]? with
    | some s => s.mac == f.take 6 && decide (s.vid = ((frameTag f).map (·.2)).getD 0)
    | none => false

/-- One stream replaced. -/
def W.setStream (w : W) (i : Nat) (s : Stream) : W := { w with strs := w.strs.set i s }

/-- The sequence number of a frame's R-tag, EtherType 0xF1C1, if it has one (802.1CB; PRESUMED, notes/assumptions/16). -/
def rtagSeq (f : List Byte) : Option Nat :=
  let o := if (frameTag f).isSome then 16 else 12
  if byAt f o = 0xF1 ∧ byAt f (o + 1) = 0xC1 then some (256 * byAt f (o + 4) + byAt f (o + 5)) else none

/-- Vector recovery of one sequence number (802.1CB, 15 R569): the stream after it, whether the frame
passes, whether it is rogue, and how many numbers were lost. -/
def Stream.recover (s : Stream) (seq : Nat) : Stream × Bool × Bool × Nat :=
  let len := fld s.ctl 15 10
  if s.fresh then
    ({ s with fresh := false, recov := seq, hist := true :: List.replicate (len - 1) false }, true, false, 0)
  else
    let d := sgn 16 ((seq + 65536 - s.recov) % 65536)
    if d ≥ len ∨ d ≤ -(len : Int) then (s, false, true, 0)
    else if d ≤ 0 then
      let k := (-d).toNat
      if s.hist.getD k false then (s, false, false, 0) else ({ s with hist := s.hist.set k true }, true, false, 0)
    else
      let k := d.toNat
      let long := List.replicate (k - 1) false ++ s.hist
      let lost := ((true :: long).drop len).filter (!·)
      ({ s with recov := seq, hist := (true :: long).take len }, true, false, lost.length)

/-- The stream filter and gate and the recovery of a received frame of `size` bytes: whether it passes
(15 R569, R577). -/
def W.streamIn (w : W) (n : Nat) (f : List Byte) (size : Nat) : W × Bool :=
  match w.streamOf f with
  | none => (w, true)
  | some i =>
    let s := w.strs.getD i { mac := [], vid := 0, ctl := 0, sdu := 0 }
    if !s.ctl.testBit 16 ∨ s.sdu < size then (w.ethEvent n 6 3 i, false)
    else if s.ctl.testBit 9 then
      match rtagSeq f with
      | none => (w, true)
      | some q =>
        let (s', ok, rogue, lost) := s.recover q
        let w := w.setStream i s'
        let w := if rogue then w.ethEvent n 6 1 i else w
        ((upTo lost).foldl (fun w _ => w.ethEvent n 6 2 i) w, ok)
    else (w, true)

/-! ### Receiving -/

/-- Whether classifier rule `i` matches a frame (15 R573, R576). -/
def clsMatch (b f : List Byte) (i : Nat) : Bool :=
  let o := offCls i
  (decide (hfAt b o = 0) || decide (hfAt b o = frameType f)) &&
  (decide (hfAt b (o + 2) = 0xFFFF) || decide ((frameTag f).map (·.2) = some (hfAt b (o + 2)))) &&
  (zeroAt b (o + 4) (o + 10) || (b.drop (o + 4)).take 6 == f.take 6)

/-- A received frame goes to ring `r` (15 R571, R572): its tag is stripped where the ring strips its
VID; one that finds the ring parked is discarded. A buffer that is too small ends as BAD with one of
the failing statuses of 00 R22; the spec does not say which (notes/assumptions/23). -/
def W.toRing (w : W) (n r rule stamp : Nat) (f : List Byte) : W :=
  match ((w.port n).qu (8 + r)).desc with
  | none => w.bump (ethReg n + 0x84)
  | some d =>
    let strip := decide (d.tag.testBit 12) && decide ((frameTag f).map (·.2) = some (fld d.tag 11 0))
    let g := if strip then f.take 12 ++ f.drop 16 else f
    let info := rule + (if strip then 256 + fld d.tag 11 0 * 65536 else 0)
    let size := wf (d.words.getD 2 0) 11 0
    let (w, e) := w.dmaWr .eth (d.words.getD 1 0).toNat (g.take size)
    match e with
    | some st => w.ethDone n (8 + r) d g.length info stamp (some st.code)
    | none =>
      if g.length ≤ size then w.ethDone n (8 + r) d g.length info stamp none
      else
        let (v, w) := w.fresh 8
        w.ethDone n (8 + r) d (min g.length size) info stamp (some (St.failing.getD (v.toNat % 17) .badValue).code)

/-- The flits of a frame sent to a send channel (15 R573). -/
def frameFlits (n rule stamp off : Nat) (f : List Byte) : List Flit :=
  let body := (f.drop off).take 240
  let k := (body.length + 15) / 16
  { data := n + rule * 256 + f.length % 4096 * 65536 + stamp % 2 ^ 64 * 2 ^ 64, last := decide (k = 0) } ::
    (upTo k).map fun i => { data := leNat ((body.drop (16 * i)).take 16), last := decide (i + 1 = k) }

/-- A received frame goes to send channel `ch` of the network hub as one message; one that the channel
has no room for is discarded and counted (15 R573; DESIGN CHOICE, notes/assumptions/23). -/
def W.toChannel (w : W) (n ch rule stamp off : Nat) (f : List Byte) : W :=
  let fs := frameFlits n rule stamp off f
  if 32 < (tget [] w.net.tx (32 * 14 + ch)).length + fs.length then w.bump (ethReg n + 0x84)
  else fs.foldl (fun w x => w.enterTx 14 ch x) w

/-- A frame arrives at port `n`, without its FCS, whose first bit after the SFD passes the MAC at `t`
(15 R568 to R573; 12 R464). -/
def W.ethReceive (w : W) (n : Nat) (f : List Byte) (fcsOk : Bool) (t : Nat) : W :=
  let x := w.port n
  if cfgMode x.cfg = 0 ∨ !x.link ∨ t < w.now then w
  else
    let w := w.toTime t
    let size := f.length + 4
    if size < 64 ∨ 2048 < size ∨ !fcsOk then w.bump (ethReg n + 0x84)
    else
      let w := w.bump (ethReg n + 0x80)
      let stamp := (t + 2 ^ 64 - hfAt x.cfg 28) % 2 ^ 64
      let w := if frameType f = 0x88F7 ∧ byAt f (if (frameTag f).isSome then 18 else 14) % 16 = 0 ∧
          w.tide.src = 2 ∧ w.tide.st = 2 ∧ w.tide.port = n then
          { w with tide := { w.tide with sync := t } } else w
      let (w, ok) := w.streamIn n f size
      if !ok then w
      else
        match (upTo (cfgNcls x.cfg)).find? (clsMatch x.cfg f) with
        | none => w.toRing n 0 0 stamp f
        | some i =>
          let o := offCls i
          match byAt x.cfg (o + 10) with
          | 0 => w.toRing n (byAt x.cfg (o + 11)) i stamp f
          | 1 => w.toChannel n (byAt x.cfg (o + 11)) i stamp (hfAt x.cfg (o + 12)) f
          | _ => w

/-! ### Sending -/

/-- Whether the gate of queue `q` is open: a port without a gate list has every gate open (15 R569). -/
def EthPort.gateOpen (x : EthPort) (q : Nat) : Bool :=
  decide (cfgNgcl x.cfg = 0) || (wdAt x.cfg (offGcl x.cfg x.gcl)).testBit q

/-- A frame as it goes on the wire: the queue's C-tag inserted (15 R569, R576), then the R-tag of a
generating stream; a stream's frame goes out on the ports of its mask too (15 R569, R578). -/
def W.putWire (w : W) (n q tag : Nat) (f : List Byte) : W :=
  let f := if tag.testBit 12 then
      f.take 12 ++ [0x81, 0x00] ++ beBytes 2 (q * 8192 + fld tag 11 0) ++ f.drop 12 else f
  let w := w.bump (ethReg n + 0x88)
  match w.streamOf f with
  | none => w.setPort n { w.port n with wire := f }
  | some i =>
    let s := w.strs.getD i { mac := [], vid := 0, ctl := 0, sdu := 0 }
    let o := if (frameTag f).isSome then 16 else 12
    let gen := s.ctl.testBit 8
    let f := if gen then f.take o ++ [0xF1, 0xC1, 0, 0] ++ beBytes 2 s.gen ++ f.drop o else f
    let w := if gen then w.setStream i { s with gen := (s.gen + 1) % 65536 } else w
    ((upTo 8).filter fun m => m != n && s.ctl.testBit m && (w.port m).link).foldl
      (fun w m => (w.setPort m { w.port m with wire := f }).bump (ethReg m + 0x88))
      (w.setPort n { w.port n with wire := f })

/-- A frame of traffic class `q` of port `n` is sent; its first bit after the SFD passes the MAC at `t`
(15 R570, R572, R574). `cyclic` says that the oldest cyclic frame of the class goes, else the queue's
descriptor. -/
def W.ethSend (w : W) (n q t : Nat) (cyclic : Bool) : W :=
  let x := w.port n
  if cfgMode x.cfg = 0 ∨ !x.link ∨ t < w.now ∨ !x.gateOpen q then w
  else
    let w := w.toTime t
    if cyclic then
      match tget [] x.txq q with
      | [] => w
      | fr :: r =>
        let w := w.setPort n { w.port n with txq := tset (w.port n).txq q r }
        let w := w.putWire n q fr.tag fr.bytes
        if fr.sentEv then w.ethEvent n (8 + fr.e) 1 (fr.c % 65536) else w
    else
      match (x.qu q).desc with
      | none => w
      | some d =>
        let len := wf (d.words.getD 2 0) 11 0
        let stamp := (t + d.corr) % 2 ^ 64
        let (w, r) := w.dmaRd .eth (d.words.getD 1 0).toNat len
        match r with
        | .error e => w.ethDone n q d len 0 stamp (some e.code)
        | .ok f => (w.putWire n q d.tag f).ethDone n q d len 0 stamp none

/-- An interval of the gate list ends and the next entry applies (15 R569). -/
def W.gateNext (w : W) (n : Nat) : W :=
  let x := w.port n
  if cfgMode x.cfg = 0 ∨ cfgNgcl x.cfg = 0 then w
  else
    let g := (x.gcl + 1) % cfgNgcl x.cfg
    let w := w.toTime x.gclAt
    w.setPort n { x with gcl := g, gclAt := x.gclAt + wdAt x.cfg (offGcl x.cfg g + 4) }

/-! ### Cyclic frames -/

/-- Whether the sender of a receive channel of the network hub lies behind a closed dike (14 R547). -/
def Dev.hubWithdrawn (d : Dev) (ch : Nat) : Bool :=
  match d.net.live with
  | none => false
  | some p =>
    p.res.any (fun r => decide (r.dst = 14 ∧ r.dch = ch) && d.chanDiked r.src r.sch) ||
    p.be.any (fun b => decide (b.dst = 14 ∧ b.dch = ch) && d.chanDiked b.src b.sch)

/-- The bytes of a message. -/
def msgBytes (m : List Flit) : List Byte := (m.map fun f => leBytes 16 f.data).flatten

/-- The hub takes the messages complete in receive channel `ch`: it keeps the newest and discards the
older ones, which count in ETH_CYCSTALE of port `n` (15 R575). -/
def W.hubTake (w : W) (n ch : Nat) : W :=
  let key := 32 * 14 + ch
  let (ms, rest) := splitMsgs 32 (tget [] w.net.rx key)
  match ms.reverse with
  | [] => w
  | m :: old =>
    let ser := (tget (0, []) w.nhub ch).1
    let w := { w with
      net := { w.net with rx := tset w.net.rx key rest }
      nhub := tset w.nhub ch (ser + ms.length, msgBytes m) }
    w.bump (ethReg n + 0x8C) old.length

/-- The bytes that a channel's newest message since the entry's last build gives a field, if it has
them (15 R575). -/
def W.fieldOf (w : W) (st : CycSt) (ch src len : Nat) : Option (List Byte) :=
  if ch = 0xFF then none
  else
    let (ser, m) := tget (0, []) w.nhub ch
    if ser ≠ tget 0 st.seen ch ∧ src + len ≤ m.length then some ((m.drop src).take len) else none

/-- One field of a build: the bytes to write, and whether the whole frame is dropped (15 R575). -/
def W.buildField (w : W) (n e c : Nat) (st : CycSt) (i : Nat) : W × Option (List Byte) × Bool :=
  let b := (w.port n).cfg
  let o := offFld b i
  let cha := byAt b o
  let chb := byAt b (o + 1)
  let src := byAt b (o + 2)
  let len := byAt b (o + 3)
  let one (v : List Byte) (other : Nat) : W × Option (List Byte) × Bool :=
    if other = 0xFF ∨ w.hubWithdrawn other then (w, some v, false)
    else (w.ethEvent n (8 + e) 4 (c % 65536 + i % 256 * 65536), some v, false)
  match w.fieldOf st cha src len, w.fieldOf st chb src len with
  | some x, some y =>
    if x = y then (w, some x, false)
    else ((w.bump (ethReg n + 0x90)).ethEvent n (8 + e) 3 (c % 65536 + i % 256 * 65536), some x, false)
  | some x, none => one x chb
  | none, some y => one y cha
  | none, none =>
    let miss := byAt b (offCyc b e + 19) % 2
    ((w.bump (ethReg n + 0x94)).ethEvent n (8 + e) 2 (c % 65536), tfind st.last i, decide (miss = 1))

/-- The fields of a build, in order. -/
def W.buildFields (w : W) (n e c : Nat) (st : CycSt) :
    List Nat → List Byte → Tbl (List Byte) → Bool → W × List Byte × Tbl (List Byte) × Bool
  | [], f, last, dead => (w, f, last, dead)
  | i :: r, f, last, dead =>
    let b := (w.port n).cfg
    let (w, v, dd) := w.buildField n e c st i
    match v with
    | some bs => W.buildFields w n e c st r (putAt f (hfAt b (offFld b i + 4)) bs) (tset last i bs) (dead || dd)
    | none => W.buildFields w n e c st r f last (dead || dd)

/-- At t_c − BUILD of cycle `c`, the hub builds the frame of cyclic entry `e` (15 R574, R575). A template
that cannot be read gives free bytes (notes/assumptions/23). -/
def W.cycBuild (w : W) (n e c : Nat) : W :=
  let x := w.port n
  let b := x.cfg
  let o := offCyc b e
  let t := c * wdAt b o + wdAt b (o + 4)
  let tb := t - wdAt b (o + 8)
  if cfgMode b = 0 ∨ cfgNcyc b ≤ e ∨ t < wdAt b (o + 8) ∨ tb < w.now then w
  else
    let w := w.toTime tb
    let st := tget {} x.cyc e
    let len := hfAt b (o + 16)
    let (w, r) := w.dmaRd .eth (wdAt b (o + 12)) len
    let (w, tpl) := match r with
      | .ok f => (w, f)
      | .error _ => ({ w with free := w.free + 1 }, (upTo len).map fun k => Config.freeByte w.free k)
    let fs := (upTo (hfAt b (o + 22))).map (hfAt b (o + 20) + ·)
    let chs := ((fs.map fun i => [byAt b (offFld b i), byAt b (offFld b i + 1)]).flatten.filter (· < 32)).eraseDups
    let w := chs.foldl (fun w ch => w.hubTake n ch) w
    let (w, f, last, dead) := w.buildFields n e c st fs tpl st.last false
    let seen := chs.foldl (fun s ch => tset s ch (tget (0, []) w.nhub ch).1) st.seen
    let fr : CycFrame := { e := e, due := t, c := c, tc := byAt b (o + 18), sentEv := (byAt b (o + 19)).testBit 1, bytes := f }
    w.setPort n { w.port n with
      cyc := tset (w.port n).cyc e { built := if dead then none else some fr, last := last, seen := seen } }

/-- At t_c the built frame of entry `e` enters the queue of its traffic class (15 R574). -/
def W.cycEnqueue (w : W) (n e : Nat) : W :=
  let x := w.port n
  let st := tget {} x.cyc e
  match st.built with
  | none => w
  | some fr =>
    let w := w.toTime fr.due
    w.setPort n { x with
      cyc := tset x.cyc e { st with built := none }
      txq := tset x.txq fr.tc (tget [] x.txq fr.tc ++ [{ fr with tag := wdAt x.cfg (offRing fr.tc + 8) }]) }

/-! ### Registers -/

/-- ETH_STATUS and ETH_CURq of port `n` (15 R578). -/
def Dev.ethRegs (d : Dev) (n o : Nat) : Word :=
  let x := d.port n
  let m := cfgMode x.cfg
  if o = 0x1C then
    w32 (b01 x.link * 2 ^ 31 + b01 x.armed.isSome * 2 ^ 30 +
      b01 ((wdAt x.cfg 32).testBit 8 && x.verify && decide (2 ≤ m)) * 2 ^ 29 + m)
  else w32 ((x.qu ((o - 0x40) / 4)).idx)

end Sys2Proof.Machine
end

