-- ==== Sys2Proof/Machine/Image.lean ====
section
/-! DEFINITION. Engine images (07 R260 to R273): their records, the checks of the loader, what it
writes, and its report. An image is given as its bytes. -/

namespace Sys2Proof.Machine

/-! ### Keys -/

/-- A word of the OTP store (17 R632). -/
def Dev.otpWord (d : Dev) (k : Nat) : Word := tget 0 d.sys.otp k

/-- The 64 bytes of KEY0 or KEY1 (17 R632, R654). -/
def Dev.key (d : Dev) (k : Nat) : List Byte :=
  ((upTo 16).map fun i => leBytes 4 (d.otpWord (16 * k + i)).toNat).flatten

/-- Whether a signed object verifies under a usable key (17 R633). -/
def Dev.signed (d : Dev) (obj : List Byte) : Bool :=
  (upTo 2).any fun k =>
    (decide (k = 1) || !wbit (d.otpWord 32) 0) && !(d.key k).all (· == 0) && sigOk (d.key k) obj

/-! ### Records -/

/-- Offsets of the engine, section, job and manifest records of an image (07 R260 to R266). -/
def imEng (b : List Byte) (i : Nat) : Nat := wdAt b 0x18 + 32 * i
def imSec (b : List Byte) (i : Nat) : Nat := wdAt b 0x1C + 16 * i
def imJob (b : List Byte) (i : Nat) : Nat := wdAt b 0x20 + 48 * i
def imMan (b : List Byte) (i : Nat) : Nat := wdAt b 0x24 + 32 * i

/-- Counts of engine, section and job records and of manifests (07 R260). -/
def imNeng (b : List Byte) : Nat := hfAt b 0x10
def imNsec (b : List Byte) : Nat := hfAt b 0x12
def imNjob (b : List Byte) : Nat := hfAt b 0x14
def imNman (b : List Byte) : Nat := hfAt b 0x16

/-- The slot plan block of an image, and its plans (07 R260; 10 R385). -/
def imPlanBlock (b : List Byte) : List Byte := (b.drop (wdAt b 0x28)).take (wdAt b 0x2C)
def imHasPlans (b : List Byte) : Bool := decide (wdAt b 0x28 ≠ 0)
def imPlans (b : List Byte) : List (List Byte) :=
  let k := imPlanBlock b
  if imHasPlans b then (upTo (wdAt k 4)).map fun i =>
    let p := k.drop (wdAt k (8 + 4 * i))
    p.take (wdAt p 0x2C)
  else []

/-- ENGINE, STEP and STRICT of engine record `i` (07 R262). -/
def engNo (b : List Byte) (i : Nat) : Nat := hfAt b (imEng b i)
def engStep (b : List Byte) (i : Nat) : Nat := byAt b (imEng b i + 2)
def engStrict (b : List Byte) (i : Nat) : Bool := (byAt b (imEng b i + 3)).testBit 0

/-- The STEPPING byte of the part (00 R4). -/
def Dev.stepping (d : Dev) : Nat := if d.part.a1 then 0xA1 else 0xB1

/-- The record that the loader selects for engine `e` (07 R268). -/
def Dev.selRec (d : Dev) (b : List Byte) (e : Nat) : Option Nat :=
  let rs := (upTo (imNeng b)).filter fun i => decide (engNo b i = e)
  match rs.find? fun i => decide (engStep b i = d.stepping) with
  | some i => some i
  | none =>
    match rs.find? fun i => decide (engStep b i = 0) with
    | some i => some i
    | none => rs.head?

/-- The engines of an image with their selected records, in the order of the records. -/
def Dev.selected (d : Dev) (b : List Byte) : List (Nat × Nat) :=
  (upTo (imNeng b)).filterMap fun i =>
    let e := engNo b i
    if e < 192 ∧ d.selRec b e = some i then some (e, i) else none

/-- A load's failing check: status, check, manifest byte and engine (07 R271, R273). -/
structure LoadFail where
  st : St
  check : Nat
  unit : Nat := 0xFF
  eng : Nat := 0xFFFF
  deriving DecidableEq, Repr

/-- A check of a load. -/
def lchk (bad : Bool) (st : St) (n : Nat) : Except LoadFail Unit :=
  if bad then .error { st := st, check := n } else .ok ()

/-- A check made for each item in order, which fails with the item's engine. -/
def lchkEach (l : List Nat) (bad : Nat → Bool) (eng : Nat → Nat) (st : St) (n : Nat) : Except LoadFail Unit :=
  match l.find? bad with
  | some i => .error { st := st, check := n, eng := eng i }
  | none => .ok ()

/-- Whether a directory of `n` records of `k` bytes lies within the image. -/
def dirOk (b : List Byte) (off n k : Nat) : Bool := decide (off % 4 = 0) && decide (off + n * k ≤ wdAt b 8)

/-- Whether a slot plan block breaks its format (10 R385). -/
def planBlockBad (k : List Byte) : Bool :=
  !(decide (wdAt k 0 = 0x4B4C4250) && decide (1 ≤ wdAt k 4 ∧ wdAt k 4 ≤ 25) &&
    (upTo (wdAt k 4)).all fun i =>
      let o := wdAt k (8 + 4 * i)
      decide (o % 64 = 0) && decide (o + 64 ≤ k.length) && decide (o + wdAt k (o + 0x2C) ≤ k.length) &&
      decide (byAt k (o + 0x0A) = b01 (decide (i ≠ 0))) &&
      (upTo i).all fun j => decide (j = 0) || decide (byAt k (wdAt k (8 + 4 * j) + 0x0B) ≠ byAt k (o + 0x0B)))

/-- Check 1: a header field breaks its table, or a directory or block lies outside LENGTH (07 R260). -/
def imHeadBad (b : List Byte) : Bool :=
  !(decide (128 + 64 ≤ b.length) && decide (wdAt b 0 = 0x3145514C) && decide (hfAt b 4 = 1) &&
    decide (hfAt b 6 = 0) && decide (wdAt b 8 % 64 = 0) && decide (wdAt b 8 ≤ b.length) &&
    decide (192 ≤ wdAt b 8) &&
    decide (1 ≤ imNeng b ∧ imNeng b ≤ 384) && decide (1 ≤ imNsec b ∧ imNsec b ≤ 4096) &&
    decide (imNjob b ≤ 6144) && decide (1 ≤ imNman b ∧ imNman b ≤ 16) &&
    dirOk b (wdAt b 0x18) (imNeng b) 32 && dirOk b (wdAt b 0x1C) (imNsec b) 16 &&
    (if imNjob b = 0 then decide (wdAt b 0x20 = 0) else dirOk b (wdAt b 0x20) (imNjob b) 48) &&
    dirOk b (wdAt b 0x24) (imNman b) 32 && zeroAt b 0x4C 0x80 &&
    (if wdAt b 0x28 = 0 then decide (wdAt b 0x2C = 0)
     else dirOk b (wdAt b 0x28) (wdAt b 0x2C) 1 && !planBlockBad (imPlanBlock b)))

/-- Whether engine record `i` breaks R262, is a third record of its engine, or repeats an engine's STEP (07 R262,
R268). -/
def imEngBad (b : List Byte) (i : Nat) : Bool :=
  let o := imEng b i
  let mode := byAt b (o + 3)
  let strict := mode.testBit 0
  let step := byAt b (o + 2)
  let entry := wdAt b (o + 12)
  !(decide (engNo b i < 192) &&
    (decide (step = 0xA1) || decide (step = 0xB1) || (decide (step = 0) && !strict)) &&
    decide (mode < 4) && (strict || !mode.testBit 1) &&
    (!strict || (wdAt b (o + 4)).testBit 0) && decide (hfAt b (o + 8) < imNman b) &&
    decide (hfAt b (o + 10) < 1024) && (strict || decide (hfAt b (o + 10) = 0)) &&
    decide (entry % 4 = 0) && decide (0x200 ≤ entry ∧ entry ≤ 0x7FFC) &&
    decide (1 ≤ hfAt b (o + 0x12)) && decide (hfAt b (o + 0x10) + hfAt b (o + 0x12) ≤ imNsec b) &&
    zeroAt b (o + 0x14) (o + 0x20)) ||
  decide (2 ≤ ((upTo i).filter fun j => decide (engNo b j = engNo b i)).length) ||
  (upTo i).any fun j => decide (engNo b j = engNo b i) && decide (engStep b j = engStep b i)

/-- The pool banks that engine record `i` claims (07 R262). -/
def imClaim (b : List Byte) (i : Nat) : Nat := hfAt b (imEng b i + 10)

/-- The claims that an image's selected records make. -/
def Dev.imClaims (d : Dev) (b : List Byte) : Tbl Nat := (d.selected b).map fun x => (x.1, imClaim b x.2)

/-- Whether the claim of selected record `i` meets another's of its polder: that of an earlier selected record, or
the claim of an engine that the image does not name, as it is in force or as an earlier image of the same recipe
(`prior`) leaves it (07 R254). -/
def Dev.claimClash (d : Dev) (b : List Byte) (prior : Tbl Nat) (i : Nat) : Bool :=
  let sel := d.selected b
  sel.any fun x => decide (x.2 = i) && (upTo 8).any fun k =>
    let f := x.1 / 8 * 8 + k
    let other := match tfind sel f with
      | some j => if j < i then imClaim b j else 0
      | none => (tfind prior f).getD (tget {} d.eng f).claim
    decide (f ≠ x.1) && decide (imClaim b i &&& other ≠ 0)

/-- The sections of engine record `i` (07 R263). -/
def recSecs (b : List Byte) (i : Nat) : List Nat :=
  (upTo (hfAt b (imEng b i + 0x12))).map (hfAt b (imEng b i + 0x10) + ·)

/-- DEST, LEN and KIND of section `s` (07 R263). -/
def secDest (b : List Byte) (s : Nat) : Nat := wdAt b (imSec b s)
def secLen (b : List Byte) (s : Nat) : Nat := wdAt b (imSec b s + 8)
def secKind (b : List Byte) (s : Nat) : Nat := hfAt b (imSec b s + 12)

/-- Whether `a` to `a + n - 1` lies in `lo` to `hi - 1`. -/
def within (a n lo hi : Nat) : Bool := decide (lo ≤ a) && decide (a + n ≤ hi)

/-- Whether section `s` breaks R263 or R264 or lies outside its region (07). -/
def imSecBad (b : List Byte) (s : Nat) : Bool :=
  let d := secDest b s
  let n := secLen b s
  let off := wdAt b (imSec b s + 4)
  let dm := within d n 0x10000 0x1FB00
  let pool := within d n 0x1000000 0x1140000
  !(decide (d % 4 = 0) && decide (n % 4 = 0) && decide (n ≠ 0) && decide (hfAt b (imSec b s + 14) = 0) &&
    (match secKind b s with
     | 1 => within d n 0 0x8000 && decide (off % 4 = 0) && decide (off + n ≤ wdAt b 8)
     | 2 => dm && decide (off % 4 = 0) && decide (off + n ≤ wdAt b 8)
     | 3 => pool && decide (off % 4 = 0) && decide (off + n ≤ wdAt b 8)
     | 4 => (dm || pool) && decide (off = 0)
     | _ => false))

/-- Whether two sections overlap in the engine's map. -/
def secsMeet (b : List Byte) (s t : Nat) : Bool :=
  decide (secDest b s < secDest b t + secLen b t) && decide (secDest b t < secDest b s + secLen b s)

/-- Whether section record `s` breaks its rules: for itself, against an earlier section of a selected record that
lists both, and in the pool against a section that another selected record of the polder lists. A section that two
records of one polder list counts as overlapping itself (07 R263, R264; DEDUCED, notes/assumptions/25). -/
def recSecBad (b : List Byte) (sel : List (Nat × Nat)) (s : Nat) : Bool :=
  let inPool (t : Nat) : Bool := decide (0x1000000 ≤ secDest b t)
  imSecBad b s ||
  sel.any fun x => (recSecs b x.2).contains s && sel.any fun y => (recSecs b y.2).any fun t =>
    if x = y then decide (t < s) && secsMeet b s t
    else decide (t ≤ s) && decide (x.1 / 8 = y.1 / 8) && inPool s && inPool t && secsMeet b s t

/-- The engine that a report names for section `s`: that of the first record that lists it (07 R273). -/
def secEng (b : List Byte) (s : Nat) : Nat :=
  match (upTo (imNeng b)).find? fun i => (recSecs b i).contains s with
  | some i => engNo b i
  | none => 0xFFFF

/-- Whether job record `j` breaks R266 or R267 (07). -/
def imJobBad (b : List Byte) (sel : List (Nat × Nat)) (j : Nat) : Bool :=
  let o := imJob b j
  let cls := byAt b (o + 2)
  let thr := byAt b (o + 3)
  match sel.find? fun x => decide (x.1 = hfAt b o) with
  | none => true
  | some (_, i) =>
    let strict := engStrict b i
    !(decide (cls ≤ 2) && decide (thr < 16) && (!strict || decide (thr = 1)) && decide (wdAt b (o + 4) % 4 = 0) &&
      (decide (cls = 2) || decide (wdAt b (o + 8) ≠ 0)) && (strict || decide (wdAt b (o + 12) = 0)) &&
      decide (wdAt b (o + 0x2C) = 0) && (decide (cls ≠ 0) || strict))

/-- The latencies of the running silicon by manifest byte (04 R132; 07 R265, R269); an absent external
unit has none. -/
def Dev.figures (d : Dev) (u : Nat) : Option Nat :=
  let own : List Nat := if d.part.a1 then [1, 1, 4, 24, 4, 2, 7, 3, 3, 6, 1] else [1, 1, 3, 20, 4, 2, 6, 3, 3, 6, 1]
  if u < 11 then own[u]?
  else if 16 ≤ u ∧ u < 22 ∧ d.annex.st = 2 then
    (tfind d.annex.desc (u - 16)).bind fun ws =>
      if wbit (ws.getD 0 0) 31 then some (wf (ws.getD 0 0) 7 0) else none
  else none

/-- The first manifest byte of engine record `i` that does not match (07 R269). -/
def Dev.manBad (d : Dev) (b : List Byte) (i : Nat) : Option Nat :=
  let m := imMan b (hfAt b (imEng b i + 8))
  (upTo 32).find? fun u => decide (byAt b (m + u) ≠ 0) && decide (d.figures u ≠ some (byAt b (m + u)))

/-- Byte `p` of the image's FLOOR (07 R260). -/
def imFloor (b : List Byte) (p : Nat) : Nat := byAt b (0x30 + p)

/-- Checks 1 to 9 of a load (07 R271; 13 R535); `prior` are the claims that earlier images of the same recipe will
make. A slot plan block that breaks its format fails check 1: DESIGN CHOICE, notes/assumptions/57. -/
def Dev.loadChecks (d : Dev) (b : List Byte) (prior : Tbl Nat) : Except LoadFail Unit := do
  lchk (imHeadBad b) .badValue 1
  lchk (!d.signed (b.take (wdAt b 8))) .imageSignature 2
  lchkEach (upTo (imNeng b)) (fun i => imEngBad b i || d.claimClash b prior i) (engNo b) .badValue 3
  let sel := d.selected b
  lchkEach (upTo (imNsec b)) (recSecBad b sel) (secEng b) .badValue 4
  lchkEach (upTo (imNjob b)) (imJobBad b sel) (fun j => hfAt b (imJob b j)) .badValue 5
  lchk ((upTo 24).any fun p =>
    decide (256 < ((upTo (imNjob b)).filter fun j => decide (hfAt b (imJob b j) / 8 = p)).length)) .badValue 5
  lchk ((upTo 24).any fun p => (decide (5 < imFloor b p) && decide (imFloor b p ≠ 0xFF)) ||
    (decide (imFloor b p = 0xFF) && sel.any fun x => decide (x.1 / 8 = p))) .badValue 6
  match sel.find? fun x => engStrict b x.2 && (d.manBad b x.2).isSome with
  | some x => .error { st := .latencyMismatch, check := 7, unit := (d.manBad b x.2).getD 0xFF, eng := x.1 }
  | none => pure ()
  lchk ((imPlans b).any fun p => overcommit (planOf 0 p).res) .slotOvercommit 8
  match weirChecks (wf (d.weirCfg 0) 15 0) (wf (d.weirCfg 1) 15 0) (fun p => d.polCfg p 0)
      (fun p => d.polCfg p 1) (fun p => floorByte (imFloor b p))
      (fun p => d.hasHard p || (upTo (imNjob b)).any fun j =>
        decide (hfAt b (imJob b j) / 8 = p) && decide (byAt b (imJob b j + 2) = 0)) with
  | .error e => .error { st := e.st, check := 9 }
  | .ok _ => pure ()

/-! ### What a load writes -/

/-- Actions in order until one fails: the state and the failure. -/
def tryEach {α ε : Type} (f : W → α → W × Option ε) : List α → W → W × Option ε
  | [], w => (w, none)
  | x :: r, w =>
    match f w x with
    | (w, some e) => (w, some e)
    | (w, none) => tryEach f r w

/-- A section of engine `e` is written (07 R263, R272). -/
def W.loadSec (w : W) (b : List Byte) (e s : Nat) : W × Option St :=
  let pa := physOf e (secDest b s)
  let bs := if secKind b s = 4 then List.replicate (secLen b s) 0
    else (b.drop (wdAt b (imSec b s + 4))).take (secLen b s)
  w.wrMem .vault pa bs

/-- The memories of the engines of an image become undefined: their instruction and data memories, and the places of
their pool sections (07 R272). -/
def W.undefEngines (w : W) (b : List Byte) : W :=
  (w.selected b).foldl (fun (w : W) x =>
    let e := x.1
    let w := w.undefRegion { lo := imemBase e, hi := imemBase e + 0x8000 }
    let w := w.undefRegion { lo := dmemBase e, hi := dmemBase e + 0x10000 }
    (recSecs b x.2).foldl (fun (w : W) s =>
      if 0x1000000 ≤ secDest b s then
        w.undefRegion { lo := physOf e (secDest b s), hi := physOf e (secDest b s) + secLen b s }
      else w) w) w

/-- The sections of the selected records are written in order. `upset` is the number of the section whose read from
the image meets an uncorrectable error, if one does (07 R272; notes/assumptions/19). -/
def W.loadSecs (w : W) (b : List Byte) (upset : Option Nat) : W × Option St :=
  let ss := (w.selected b).flatMap fun x => (recSecs b x.2).map fun s => (x.1, s)
  tryEach (fun w (x : (Nat × Nat) × Nat) =>
    if upset = some x.2 then (w.undefEngines b, some .eccUncorrectable) else w.loadSec b x.1.1 x.1.2) ss.zipIdx w

/-- The dispatch entry that a job record gives (07 R266; 13 R515). -/
def jobEntry (b : List Byte) (j : Nat) : Disp :=
  let o := imJob b j
  { ctrl := w32 (byAt b (o + 2) * 2 ^ 28 + 2 * 2 ^ 26 + hfAt b o % 8 * 2 ^ 20 + byAt b (o + 3) % 16 * 2 ^ 16 + 0x7FF)
    pc := w32 (wdAt b (o + 4)), deadline := w32 (wdAt b (o + 8)), job := w32 (wdAt b (o + 0x28))
    energy := (upTo 6).map fun k => w32 (wdAt b (o + 16 + 4 * k)) }

/-- The dispatch entries of polder `p` after a load of an image that holds a record of the polder: one entry for each
of its job records in image order from entry 0, and the rest read 0 (07 R266; 13 R515; DEDUCED,
notes/assumptions/25). -/
def W.loadJobs (w : W) (b : List Byte) (sel : List (Nat × Nat)) (p : Nat) : W :=
  if !sel.any fun x => decide (x.1 / 8 = p) then w
  else
    let jobs := (upTo (imNjob b)).filter fun j => decide (hfAt b (imJob b j) / 8 = p)
    let others := w.disp.filter fun c => decide (c.1 / 256 ≠ p)
    { w with disp := jobs.zipIdx.foldl (fun t x => tset t (dispKey p x.2) (jobEntry b x.1)) others }

/-- The floors of a loaded image: one above the running point counts once its raise has taken effect
(13 R505). -/
def W.loadFloor (w : W) (b : List Byte) (p : Nat) : W :=
  let x := w.pol p
  let f := floorByte (imFloor b p)
  if x.cur < f then w.setPol p { x with imgPend := some f } else w.setPol p { x with img := f, imgPend := none }

/-- An image that passed its checks is written: sections, dispatch entries, MODE, SNT_CTRL, claims and
entries of the selected records, and the floors (07 R272, R254, R269; 13 R505). -/
def W.loadImage (w : W) (b : List Byte) (upset : Option Nat) : W × Option St :=
  match w.loadSecs b upset with
  | (w, some e) => (w, some e)
  | (w, none) =>
    let sel := w.selected b
    let w := (upTo 24).foldl (fun w p => w.loadJobs b sel p) w
    let w := sel.foldl (fun w x =>
      let o := imEng b x.2
      let w := w.modEn x.1 fun y => { y with
        strict := engStrict b x.2, exposed := (byAt b (o + 3)).testBit 1, claim := imClaim b x.2
        loaded := true, retimed := (w.manBad b x.2).isSome, entry := w32 (wdAt b (o + 12)) }
      w.setRg (sntReg x.1) (w32 (wdAt b (o + 4) &&& 0x00FFFF01))) w
    ((upTo 24).foldl (fun w p => w.loadFloor b p) w, none)

/-- A set of engines as 24 bytes. -/
def engMask (es : List Nat) : List Byte :=
  leBytes 24 ((es.map fun e => 2 ^ e).foldl (· + ·) 0)

/-- A load report (07 R273). -/
def Dev.loadReport (d : Dev) (b : List Byte) (st check unit eng : Nat) : List Byte :=
  let sel := d.selected b
  let ok := decide (st = 0)
  leBytes 2 st ++ leBytes 1 check ++ leBytes 1 unit ++ leBytes 2 eng ++ leBytes 2 0 ++
    leBytes 4 (wdAt b 12) ++ leBytes 1 d.stepping ++ leBytes 3 0 ++
    engMask (if ok then (sel.filter fun x => (d.manBad b x.2).isSome).map (·.1) else []) ++
    engMask (if ok then sel.map (·.1) else [])

end Sys2Proof.Machine
end

