-- ==== Sys2Proof/Machine/Vault.lean ====
section
/-! DEFINITION. The recipe vault (file 16): its actions, its medium, recipes and their loading. The
flash below the objects is the environment's: what it did comes with the command
(notes/assumptions/19). -/

namespace Sys2Proof.Machine

/-! ### State and medium -/

/-- A live configuration value of the vault, by register offset (16 R606, R612, R625). -/
def Dev.vcfg (d : Dev) (o : Nat) : Word := tget (stgReset (vltReg + o)) d.live (vltReg + o)

/-- The vault replaced. -/
def W.setVault (w : W) (v : Vault) : W := { w with vault := v }

/-- Whether only one channel is populated (16 R601). -/
def Vault.single (v : Vault) : Bool := decide (v.ce.getD 0 0 = 0) != decide (v.ce.getD 1 0 = 0)

/-- Whether every one of some sequence slots holds a table. -/
def Vault.hasSlots (v : Vault) (l : List Nat) : Bool := l.all fun s => (tfind v.slots s).isSome

/-- The DONE record of an action (16 R617). -/
def W.vltDone (w : W) (act st : Nat) : W := w.raiseNow 0x580 (2 ^ 28 + act % 16 * 2 ^ 24 + st % 65536)

/-- A record of source 0x581 (16 R617). -/
def W.vltEvent (w : W) (kind : Nat) (ch : Nat := 0) : W := w.raiseNow 0x581 (kind * 2 ^ 28 + ch)

/-- Whether the good free blocks of a channel lie below RESERVE (16 R610, R612). -/
def Dev.vltLow (d : Dev) (ch : Nat) : Bool :=
  decide (0 < d.vault.blocks.getD ch 0) &&
    decide (d.vault.good.getD ch 0 * 1000 < wf (d.vcfg 0x44) 7 0 * d.vault.blocks.getD ch 0)

/-- A channel that runs low makes the vault READONLY and raises WORN (16 R610). -/
def W.vltWorn (w : W) : W :=
  let st := if w.vault.st = 2 then w.vault.prev else w.vault.st
  match (upTo 2).find? w.vltLow with
  | some ch =>
    if st = 1 then
      (w.setVault (if w.vault.st = 2 then { w.vault with prev := 3 } else { w.vault with st := 3 })).vltEvent 4 ch
    else w
  | none => w

/-- What the medium did during an action: counters, free blocks, blocks retired and moved (16 R609 to
R612, R617, R625). -/
def W.medium (w : W) (m : Med) : W :=
  let w := ((w.bump (vltReg + 0x90) m.corr).bump (vltReg + 0x94) m.retries).bump (vltReg + 0x98) m.uncorr
  let w := w.setVault { w.vault with
    good := (upTo 2).map fun c => min (m.good.getD c (w.vault.good.getD c 0)) (w.vault.blocks.getD c 0) }
  let w := m.retired.foldl (fun w c =>
    (w.setVault { w.vault with
      retired := (upTo 2).map fun k => w.vault.retired.getD k 0 + b01 (decide (k = c % 2)) }).raiseNow 0x582
      (2 ^ 28 + c % 2)) w
  let w := m.moved.foldl (fun w c => (w.bump (vltReg + 0x9C)).raiseNow 0x582 (2 * 2 ^ 28 + c % 2)) w
  w.vltWorn

/-- The status that the medium's failure gives an action (16 R603, R608, R609). -/
def medStatus (m : Med) : Option St :=
  match m.fail with
  | 0 => none
  | 1 => some .eccUncorrectable
  | 2 => some .vaultWorn
  | _ => some .busError

/-- The contents that a READ or LOAD sees: the bytes of an object, or the records of a log. -/
def VObj.bytes (o : VObj) : List Byte := if o.type = 3 then o.recs.flatten else o.data

/-! ### Commits -/

/-- Checks 1 to 4 of a vault commit (16 R627). -/
def Dev.vltChecks (d : Dev) (c : Com) : Except Fin3 Unit := do
  let g (o : Nat) : Word := c.get (vltReg + o)
  let cmd := g 0
  let act := wf cmd 27 24
  let v := d.vault
  let st := if v.st = 2 then v.prev else v.st
  let len := (g 0xC).toNat
  chk (decide (act = 0) || decide (10 < act) || (decide (act = 1) && (decide (wf cmd 22 20 = 0) || decide (4 < wf cmd 22 20))) ||
    decide (wf cmd 31 28 ≠ 0) || wbit cmd 23 || decide (wf cmd 19 9 ≠ 0) || decide (wf cmd 7 4 ≠ 0) ||
    (decide (act = 10) && (decide (wf (g 0x48) 15 10 ≠ 0) || decide (wf (g 0x48) 31 20 ≠ 0)))) .badValue 1
  chk (decide (st = 0) && !(decide (act = 7) || decide (act = 8) || decide (act = 10))) .badValue 2
  chk (decide (st = 3) && (decide (act = 1) || decide (act = 4))) .vaultWorn 2
  let fb := (g 0x38).toNat
  let sb := (g 0x30).toNat
  chk (decide (act = 10) &&
    (decide (wf (g 0x3C) 31 16 = 0) || decide (wf (g 0x3C) 15 0 = 0) || decide (wf (g 0x40) 31 16 = 0) ||
     decide (wf (g 0x40) 15 0 < 16) || decide (wf (g 0x44) 31 16 = 0) || decide (wf (g 0x44) 15 8 = 0) ||
     decide (120 < wf (g 0x44) 15 8) || decide (wf (g 0x44) 7 0 < 5) ||
     decide (wf (g 0x48) 9 0 < 200) || decide (800 < wf (g 0x48) 9 0) || decide (8 < wf (g 0x48) 19 16) ||
     decide (sb % 64 ≠ 0) || !within sb (g 0x34).toNat 0x10000000 0x11000000 ||
     decide (fb % 0x100000 ≠ 0) || !within fb 0x100000 0x10000000 0x11000000 ||
     v.arms.any fun a =>
       match ((tget {} d.eng a.1).slot a.2.1).armed with
       | some t => decide (t.addr = a.2.2)
       | none => false)) .badValue 3
  chk ((decide (act = 1) && wbit cmd 8 && !v.hasSlots [1, 3, 5]) ||
    (decide (act = 1) && (decide (len = 0) || decide (2 ^ 26 < len))) ||
    (decide (act = 4) && (decide (len = 0) || decide (4096 < len)))) .badValue 4

/-- The records of a log after one more, the oldest dropped while it exceeds its capacity (16 R606). -/
def logTrim (cap : Nat) : List (List Byte) → List (List Byte)
  | [] => []
  | r :: rs => if (r :: rs).flatten.length ≤ cap then r :: rs else logTrim cap rs

/-- What an action's work comes to: the state, or the state and the failing status. -/
abbrev VRes := W × Option St

/-- WRITE (16 R605, R606, R608). -/
def W.vltWrite (w : W) (c : Com) (m : Med) : VRes :=
  let g (o : Nat) : Word := c.get (vltReg + o)
  let id := (g 4).toNat
  let ty := wf (g 0) 22 20
  let old := tfind w.vault.objs id
  let len := (g 0xC).toNat
  if id = 0 ∨ id = 0xFFFFFFFF ∨ (old.map (·.type)).getD ty ≠ ty then
    (w, some .badValue)
  else if old.isNone ∧ 4096 ≤ w.vault.objs.length then (w, some .vaultWorn)
  else
    let (w, r) := if ty = 3 then (w, .ok []) else w.dmaRd .vault (g 8).toNat len
    match r, medStatus m with
    | .error e, _ => (w, some e)
    | _, some e => (w.medium m, some e)
    | .ok bs, none =>
      let o : VObj := { type := ty, cls := wf (g 0) 8 8, ver := ((old.map (·.ver)).getD 0) + 1, time := w.now
                        data := bs, cap := if ty = 3 then len else 0 }
      ((w.setVault { w.vault with objs := tset w.vault.objs id o }).medium m, none)

/-- READ (16 R606, R608). -/
def W.vltRead (w : W) (c : Com) (m : Med) : VRes :=
  let g (o : Nat) : Word := c.get (vltReg + o)
  match tfind w.vault.objs (g 4).toNat with
  | none => (w, some .badValue)
  | some o =>
    let len := (g 0xC).toNat
    if o.bytes.length < (g 0x10).toNat + len then (w, some .badValue)
    else
      match medStatus m with
      | some e => (w.medium m, some e)
      | none => (w.medium m).dmaWr .vault (g 8).toNat ((o.bytes.drop (g 0x10).toNat).take len)

/-- DELETE (16 R606, R608). -/
def W.vltDelete (w : W) (c : Com) (m : Med) : VRes :=
  let id := (c.get (vltReg + 4)).toNat
  if (tfind w.vault.objs id).isNone then (w, some .badValue)
  else
    match medStatus m with
    | some e => (w.medium m, some e)
    | none => ((w.setVault { w.vault with objs := tdel w.vault.objs id }).medium m, none)

/-- APPEND (16 R606, R608). -/
def W.vltAppend (w : W) (c : Com) (m : Med) : VRes :=
  let g (o : Nat) : Word := c.get (vltReg + o)
  let id := (g 4).toNat
  match tfind w.vault.objs id with
  | none => (w, some .badValue)
  | some o =>
    if o.type ≠ 3 then (w, some .badValue)
    else
      match w.dmaRd .vault (g 8).toNat (g 0xC).toNat with
      | (w, .error e) => (w, some e)
      | (w, .ok bs) =>
        match medStatus m with
        | some e => (w.medium m, some e)
        | none =>
          let o := { o with recs := logTrim o.cap (o.recs ++ [bs]), time := w.now }
          ((w.setVault { w.vault with objs := tset w.vault.objs id o }).medium m, none)

/-- The object information of STAT (16 R607). -/
def Dev.objInfo (d : Dev) (id : Nat) (o : VObj) : List Byte :=
  leBytes 4 id ++
  leBytes 4 (o.type + o.cls * 256 + b01 (decide (o.type ≤ 2) && !d.vault.single) * 512) ++
  leBytes 4 o.bytes.length ++ leBytes 4 o.ver ++ leBytes 8 o.time ++ leBytes 4 (crc32c o.bytes) ++ leBytes 4 0

/-- STAT (16 R606, R607). -/
def W.vltStat (w : W) (c : Com) (m : Med) : VRes :=
  let id := (c.get (vltReg + 4)).toNat
  match tfind w.vault.objs id with
  | none => (w, some .badValue)
  | some o =>
    match medStatus m with
    | some e => (w.medium m, some e)
    | none => (w.medium m).dmaWr .vault (c.get (vltReg + 8)).toNat (w.objInfo id o)

/-- FORMAT (16 R606, R615). -/
def W.vltFormat (w : W) (m : Med) : VRes :=
  let v := w.vault
  if v.ce.all (· == 0) then (w, some .vaultWorn)
  else
    match medStatus m with
    | some e => (w.medium m, some e)
    | none =>
      let w := w.setVault { v with sys := true, objs := [], kept := v.slots, st := if v.st = 2 then 2 else 1, prev := 1 }
      ((if v.st = 0 then w.vltEvent 1 else w).medium m, none)

/-- A scrub pass: every block that holds data is read in full (16 R612). -/
def W.scrub (w : W) (m : Med) : W :=
  let w := w.medium m
  let w := w.setVault { w.vault with scrubAt := w.now + wf (w.vcfg 0x44) 31 16 * 3600000000000 }
  w.raiseNow 0x582 (3 * 2 ^ 28)

/-- CONFIG (16 R606, R612, R625). -/
def W.vltConfig (w : W) (c : Com) : W :=
  let os := (upTo 7).map (0x30 + 4 * ·) ++ (upTo 8).map (0x60 + 4 * ·)
  os.foldl (fun w o => { w with live := tset w.live (vltReg + o) (c.get (vltReg + o)) }) w

/-- TABLE (16 R602, R604): the failing check of R200, or the table installed; a mounted vault keeps it in its system
area. -/
def W.vltTable (w : W) (c : Com) : Except Fin3 W :=
  let slot := wf (c.get vltReg) 3 0
  let a := (c.get (vltReg + 8)).toNat
  if 12 ≤ slot then .error { st := .badValue, check := 1, index := 0xFFFF }
  else
    match w.readFmt .vault a 64 (some 3) with
    | (_, .error e) => .error e
    | (w, .ok f) =>
      let v := w.vault
      .ok (w.setVault { v with
        slots := tset v.slots slot f, kept := if v.st = 0 then v.kept else tset v.kept slot f })

/-! ### Recipes -/

/-- Section record `i` of a recipe: its offset (16 R618, R619). -/
def rcSec (b : List Byte) (i : Nat) : Nat := wdAt b 0x10 + 32 * i

/-- KIND, SLOT, BG, ENGINE, OFF, LEN and DEST of a section (16 R619). -/
def rcKind (b : List Byte) (i : Nat) : Nat := byAt b (rcSec b i)
def rcSlot (b : List Byte) (i : Nat) : Nat := byAt b (rcSec b i + 1)
def rcBg (b : List Byte) (i : Nat) : Nat := byAt b (rcSec b i + 2)
def rcEng (b : List Byte) (i : Nat) : Nat := hfAt b (rcSec b i + 4)
def rcOff (b : List Byte) (i : Nat) : Nat := wdAt b (rcSec b i + 8)
def rcLen (b : List Byte) (i : Nat) : Nat := wdAt b (rcSec b i + 12)
def rcDest (b : List Byte) (i : Nat) : Nat := wdAt b (rcSec b i + 16)
def rcBytes (b : List Byte) (i : Nat) : List Byte := (b.drop (rcOff b i)).take (rcLen b i)

/-- Whether the header of a recipe breaks R618 (16). -/
def rcHeadBad (b : List Byte) (stagelen : Nat) : Bool :=
  !(decide (128 ≤ b.length) && decide (wdAt b 0 = 0x31434552) && decide (hfAt b 4 = 1) &&
    decide (1 ≤ hfAt b 6 ∧ hfAt b 6 ≤ 1024) && decide (wdAt b 8 % 64 = 0) && decide (wdAt b 8 = b.length) &&
    decide (wdAt b 8 ≤ stagelen) && decide (wdAt b 0x10 % 32 = 0) &&
    decide (wdAt b 0x10 + 32 * hfAt b 6 ≤ b.length - 64) && zeroAt b 0x14 0x40)

/-- Whether section record `i` breaks R619 (16). -/
def rcSecBad (b : List Byte) (i : Nat) : Bool :=
  let o := rcSec b i
  let k := rcKind b i
  let tab := decide (1 ≤ k ∧ k ≤ 3)
  !(decide (1 ≤ k ∧ k ≤ 5) && decide (byAt b (o + 3) = 0) && decide (hfAt b (o + 6) = 0) &&
    decide (rcOff b i % 64 = 0) && decide (rcLen b i ≠ 0) && decide (rcOff b i + rcLen b i ≤ b.length - 64) &&
    zeroAt b (o + 0x14) (o + 0x20) &&
    (if tab then
       decide (rcSlot b i < (if k = 3 then 8 else 16)) && decide (rcBg b i < 16) && decide (rcEng b i < 192) &&
       decide (rcDest b i % 64 = 0) && tabPlace (rcDest b i) (rcLen b i)
     else
       decide (rcSlot b i = 0) && decide (rcBg b i = 0) && decide (rcEng b i = 0xFFFF) &&
       (decide (k = 5) || decide (rcDest b i = 0))))

/-- The sections of a recipe of one of the kinds given. -/
def rcSecs (b : List Byte) (ks : List Nat) : List Nat :=
  (upTo (hfAt b 6)).filter fun i => ks.contains (rcKind b i)

/-- The physical address of a section's DEST. -/
def rcPhys (b : List Byte) (i : Nat) : Nat :=
  if rcKind b i = 5 then rcDest b i else physOf (rcEng b i) (rcDest b i)

/-- The slot key of a table section. -/
def rcKey (b : List Byte) (i : Nat) : Nat := slotKey ((kindOf (rcKind b i - 1)).getD .curve) (rcSlot b i)

/-- A LOAD's failure: status and section index (16 R620). -/
structure RcFail where
  st : St
  index : Nat := 0xFFFF
  reps : Tbl (List Byte) := []
  deriving DecidableEq, Repr

/-- A check of VALIDATE for each section. -/
def rchk (l : List Nat) (bad : Nat → Bool) (st : St) : Except RcFail Unit :=
  match l.find? bad with
  | some i => .error { st := st, index := i }
  | none => .ok ()

/-- The failure of checks 1 to 9 of R271 (07) on the IMAGE section `i` of a recipe, with its load report. -/
def Dev.imageFail (d : Dev) (b : List Byte) (i : Nat) : Option RcFail :=
  let prior := ((rcSecs b [4]).filter fun j => decide (j < i)).reverse.flatMap fun j => d.imClaims (rcBytes b j)
  match d.loadChecks (rcBytes b i) prior with
  | .error f => some { st := f.st, index := i, reps := [(i, d.loadReport (rcBytes b i) f.st.code f.check f.unit f.eng)] }
  | .ok _ => none

/-- Step 3, VALIDATE (16 R620, R621). -/
def Dev.validate (d : Dev) (b : List Byte) : Except RcFail Unit := do
  if rcHeadBad b (d.vcfg 0x34).toNat then throw { st := .badValue }
  rchk (upTo (hfAt b 6)) (rcSecBad b) .badValue
  let moved := rcSecs b [1, 2, 3, 5]
  rchk moved (fun i =>
    (decide (rcKind b i ≤ 3) && (upTo ((rcLen b i + 63) / 64)).any fun k => d.locked (rcPhys b i + 64 * k)) ||
    moved.any fun j => decide (j < i) && (decide (rcKind b i ≤ 3) || decide (rcKind b j ≤ 3)) && decide (rcPhys b i < rcPhys b j + rcLen b j) &&
      decide (rcPhys b j < rcPhys b i + rcLen b i)) .badValue
  rchk (rcSecs b [1, 2, 3]) (fun i => ((tget {} d.eng (rcEng b i)).slot (rcKey b i)).armed.isSome) .tableBusy
  let ims := rcSecs b [4]
  match ims.findSome? (d.imageFail b) with
  | some f => throw f
  | none => pure ()
  rchk ims (fun i => imHasPlans (rcBytes b i) &&
    (d.net.armed.isSome || ims.any fun j => decide (j < i) && imHasPlans (rcBytes b j))) .badValue
  rchk ims (fun i => (d.selected (rcBytes b i)).any fun x => (upTo 4).any fun t =>
    let k := tkey x.1 t
    let h := tget (resetThread k) d.thr k
    decide (h.run ≠ .stopped) && !h.halted) .badValue

/-- A commit that the vault sends to another block: staging written, accepted and done (16 R620, R623). -/
def W.sendCommit (w : W) (b : Blk) (regs : List (Nat × Word)) (f : W → Com → Except Fin3 (W × Nat)) :
    W × Option Fin3 :=
  let w := (regs.foldl (fun (w : W) r => w.setRg r.1 r.2) w).accept b 1
  match f w (w.cm b) with
  | .ok (w', i) => (w'.finish b { index := i }, none)
  | .error e => (w.finish b e, some e)

/-- The start of the free half of VLT_FBAREA (16 R623). -/
def Dev.fbFree (d : Dev) : Nat := (d.vcfg 0x38).toNat + 0x80000 * (1 - d.vault.fbhalf)

/-- Where the plans of an image are copied: each on a 64-byte boundary, in order (16 R623). -/
def planPlaces : Nat → List (List Byte) → List (Nat × List Byte)
  | _, [] => []
  | a, p :: r => (a, p) :: planPlaces (roundUp (a + p.length) 64) r

/-- The plans of an image are copied into the free half, plan 0 is committed with LOAD for the first
frame at or after REL and the others with CHECK; then FLT_FBADDRp name the copies and FBHALF flips (16
R620, R623; 10 R385). -/
def W.loadPlans (w : W) (b : List Byte) (i rel : Nat) : W × Option RcFail :=
  let pls := planPlaces w.fbFree (imPlans (rcBytes b i))
  let bad (st : St) : Option RcFail := some { st := st, index := i }
  let (w, e) := tryEach (fun w (p : Nat × List Byte) =>
    match w.wrMem .vault p.1 p.2 with
    | (w, some st) => (w, bad st)
    | (w, none) => (w, none)) pls w
  match e with
  | some e => (w, some e)
  | none =>
    let frame := (rel + 1023) / 1024
    let (w, e) := tryEach (fun w (x : (Nat × List Byte) × Nat) =>
      match w.sendCommit .slot
          [(0x40040000, if x.2 = 0 then 0x01000000 else 0x02000000), (0x40040004, w32 x.1.1),
           (0x40040008, w32 frame), (0x4004000C, w32 (frame / 2 ^ 32 % 2 ^ 22))] slotWork with
      | (w, some f) => (w, bad f.st)
      | (w, none) => (w, none)) pls.zipIdx w
    match e with
    | some e => (w, some e)
    | none =>
      let addr (p : Nat) : Word :=
        match (pls.drop 1).find? fun x => decide (byAt x.2 0x0B = p) with
        | some x => w32 x.1
        | none => 0
      let regs := (upTo 24).map (fun p => (fltReg + 0x40 + 4 * p, addr p)) ++ [(fltReg, (0x06000000 : Word))]
      match w.sendCommit .flt regs (fun w c => (fltWork w c).map fun r => (r.1, r.2.1)) with
      | (w, some f) => (w, bad f.st)
      | (w, none) =>
        (w.setVault { w.vault with
          fbhalf := 1 - w.vault.fbhalf
          locks := w.vault.locks ++ (pls.drop 1).map fun x => (x.1, x.2.length) }, none)

/-- The load reports of images that had loaded when the load failed: the load's status, no check of their own, and
LOADED = 0 (07 R273; 16 R622; notes/assumptions/58). -/
def Dev.unloaded (d : Dev) (b : List Byte) (ims : List Nat) (st : St) : Tbl (List Byte) :=
  ims.map fun i => (i, d.loadReport (rcBytes b i) st.code 0 0xFF 0xFFFF)

/-- Step 4, STAGE (16 R620): tables and DATA to their DEST, then each image with its plans. `upset` names an IMAGE
section, and the number of the section of it whose read meets an uncorrectable error. -/
def W.stage (w : W) (b : List Byte) (rel : Nat) (upset : Option (Nat × Nat)) : W × Option RcFail :=
  let (w, e) := tryEach (fun w i =>
    match w.dmaWr .vault (rcPhys b i) (rcBytes b i) with
    | (w, some st) => (w, some { st := st, index := i })
    | (w, none) => (w, none)) (rcSecs b [1, 2, 3, 5]) w
  match e with
  | some e => (w, some e)
  | none =>
    let ims := rcSecs b [4]
    tryEach (fun w i =>
      let im := rcBytes b i
      let before (st : St) := w.unloaded b (ims.filter fun j => decide (j < i)) st
      let (w, e) := if imHasPlans im then w.loadPlans b i rel else (w, none)
      match e with
      | some e => (w, some { e with reps := before e.st ++ [(i, w.loadReport im e.st.code 10 0xFF 0xFFFF)] })
      | none =>
        match w.loadImage im (upset.bind fun u => if u.1 = i then some u.2 else none) with
        | (w, some st) => (w, some { st := st, index := i, reps := before st ++ w.unloaded b [i] st })
        | (w, none) => (w, none)) ims w

/-- Step 5, ARM (16 R620): an INSTALL with HOLD = 1 for each table section. -/
def W.arm (w : W) (b : List Byte) : W × Option RcFail :=
  tryEach (fun w i =>
    let e := rcEng b i
    let cmd := 2 ^ 24 + (rcKind b i - 1) * 2 ^ 20 + rcBg b i * 65536 + 256 + rcSlot b i
    match w.sendCommit (.tbl e) [(tblReg e, w32 cmd), (tblReg e + 4, w32 (rcDest b i))] (tblWork e) with
    | (w, some f) => (w, some { st := f.st, index := i })
    | (w, none) => (w, none)) (rcSecs b [1, 2, 3]) w

/-- The mask of the slots of a list of keys. -/
def keyMask (ks : List Nat) : Nat := (ks.eraseDups.map fun k => 2 ^ k).foldl (· + ·) 0

/-- Step 6, RELEASE (16 R620): a RELEASE of each named (engine, BG) pair at REL. -/
def W.releaseAll (w : W) (b : List Byte) (rel : Nat) : W × Option RcFail :=
  if rel ≤ w.now + 100000 then (w, some { st := .badValue })
  else
    let tabs := rcSecs b [1, 2, 3]
    let pairs := (tabs.map fun i => (rcEng b i, rcBg b i)).eraseDups
    tryEach (fun w (p : Nat × Nat) =>
      let held := (w.en p.1).heldOf p.2 w.now
      let mine := held.filter fun k => tabs.any fun i => decide (rcEng b i = p.1) && decide (rcKey b i = k)
      let m := keyMask mine
      match w.sendCommit (.tbl p.1)
          [(tblReg p.1, w32 (4 * 2 ^ 24 + p.2 * 65536)), (tblReg p.1 + 8, w32 m),
           (tblReg p.1 + 12, w32 (m / 2 ^ 32)), (tblReg p.1 + 16, w32 rel),
           (tblReg p.1 + 20, w32 (rel / 2 ^ 32))] (tblWork p.1) with
      | (w, some f) => (w, some { st := f.st })
      | (w, none) => (w, none)) pairs w

/-- The unwind of a failed load (16 R622). `old` is the state before step 4; no image of the load ends with ST_OK, so
the FLOOR bytes are those from before it (13 R505). -/
def W.unwind (w : W) (old : Dev) (b : List Byte) : W :=
  let tabs := rcSecs b [1, 2, 3]
  let w := tabs.foldl (fun (w : W) i =>
    let e := rcEng b i
    let k := rcKey b i
    let s := (w.en e).slot k
    let before := (tget {} old.eng e).slot k
    let cmd (a : Nat) : Word := w32 (a * 2 ^ 24 + (rcKind b i - 1) * 2 ^ 20 + rcSlot b i)
    if s.armed.isSome && before.armed.isNone then (w.sendCommit (.tbl e) [(tblReg e, cmd 2)] (tblWork e)).1
    else if s.live.isSome && before.live.isNone then (w.sendCommit (.tbl e) [(tblReg e, cmd 3)] (tblWork e)).1
    else w) w
  let w := if w.net.armed.isSome && old.net.armed.isNone then
      (w.sendCommit .slot [(0x40040000, 0x03000000)] slotWork).1 else w
  let w := if (upTo 24).any (fun p => decide (w.fbAddr p ≠ old.fbAddr p)) then
      let regs := (upTo 24).map (fun p => (fltReg + 0x40 + 4 * p, w32 (old.fbAddr p))) ++ [(fltReg, (0x06000000 : Word))]
      (w.sendCommit .flt regs (fun w c => (fltWork w c).map fun r => (r.1, r.2.1))).1
    else w
  let w := w.setVault { w.vault with fbhalf := old.vault.fbhalf, locks := old.vault.locks }
  let w := (upTo 24).foldl (fun w p =>
    let x := old.pol p
    if (w.pol p).img = x.img ∧ (w.pol p).imgPend = x.imgPend then w
    else w.setPol p { w.pol p with img := x.img, imgPend := x.imgPend }) w
  (rcSecs b [4]).foldl (fun w i =>
    (w.selected (rcBytes b i)).foldl (fun w x => w.modEn x.1 fun y => { y with loaded := false }) w) w

/-- The report of a LOAD and the load reports of its images (16 R624; 07 R273). -/
def W.rcReport (w : W) (a : Nat) (b : List Byte) (st step index : Nat) (reps : List (Nat × List Byte)) : W :=
  let head := leBytes 4 (st + step * 65536) ++ leBytes 4 index ++ leBytes 4 (wdAt b 12) ++ List.replicate 52 0
  let w := (w.dmaWr .vault a head).1
  ((rcSecs b [4]).zipIdx).foldl (fun w x =>
    match tfind reps x.1 with
    | some r => (w.dmaWr .vault (a + 64 * (x.2 + 1)) r).1
    | none => w) w

/-- LOAD (16 R618 to R624): status, step and index of the outcome with the state. Bits 5:0 of VLT_REPORT, which no
check names, are taken as 0: DESIGN CHOICE, notes/assumptions/55. -/
def W.vltLoad (w : W) (c : Com) (m : Med) : W × Fin3 :=
  let g (o : Nat) : Word := c.get (vltReg + o)
  let rel := (g 0x14).toNat + 2 ^ 32 * (g 0x18).toNat
  let rp := (g 0x1C).toNat / 64 * 64
  let stop (w : W) (b : List Byte) (st : St) (step index : Nat) (reps : List (Nat × List Byte)) : W × Fin3 :=
    (w.rcReport rp b st.code step index reps, { st := st, check := step, index := index })
  match tfind w.vault.objs (g 4).toNat with
  | none => stop w [] .badValue 1 0xFFFF []
  | some o =>
    if o.type ≠ 1 then stop w [] .badValue 1 0xFFFF []
    else
      let w := w.medium m
      match medStatus m with
      | some e => stop w [] e 1 0xFFFF []
      | none =>
        let b := o.data
        let sb := (w.vcfg 0x30).toNat
        if (w.vcfg 0x34).toNat < max b.length (wdAt b 8) then stop w b .badValue 1 0xFFFF []
        else
          match w.dmaWr .vault sb b with
          | (w, some e) => stop w b e 1 0xFFFF []
          | (w, none) =>
            match w.dmaRd .vault sb b.length with
            | (w, .error e) => stop w b e 2 0xFFFF []
            | (w, .ok b) =>
              if !w.signed b then stop w b .imageSignature 2 0xFFFF []
              else
                match w.validate b with
                | .error e => stop w b e.st 3 e.index e.reps
                | .ok _ =>
                  let old : Dev := w.toDev
                  let fail (w : W) (e : RcFail) (step : Nat) : W × Fin3 :=
                    let reps := if step = 4 then e.reps else w.unloaded b (rcSecs b [4]) e.st
                    stop (w.unwind old b) b e.st step e.index reps
                  match w.stage b rel m.upset with
                  | (w, some e) => fail w e 4
                  | (w, none) =>
                    match w.arm b with
                    | (w, some e) => fail w e 5
                    | (w, none) =>
                      match w.releaseAll b rel with
                      | (w, some e) => fail w e 6
                      | (w, none) =>
                        let arms := ((rcSecs b [1, 2, 3]).filter fun i =>
                          ((w.en (rcEng b i)).slot (rcKey b i)).armed.isSome).map fun i =>
                            (rcEng b i, rcKey b i, w32 (rcDest b i))
                        let w := w.setVault { w.vault with arms := arms }
                        let reps := (rcSecs b [4]).map fun i => (i, w.loadReport (rcBytes b i) 0 0 0xFF 0xFFFF)
                        (w.rcReport rp b 0 0 0xFFFF reps, { st := .ok })

/-- Whether the blocks that a LOAD commits to are free: SLOT, FLT and every table block (16 R620). -/
def Dev.loadFree (d : Dev) : Bool :=
  !(d.cm .slot).busy && !(d.cm .flt).busy && (upTo 192).all fun e => !(d.cm (.tbl e)).busy

/-- The vault completes the action that its commit names, if it is `act`: the checks of R627, then the
action, then DONE. While the vault is PAUSED, an action that needs the medium waits (16 R606, R616,
R617, R627). -/
def W.vltAct (w : W) (act : Nat) (m : Med) : W :=
  let c := w.cm .vlt
  if !c.busy ∨ wf (c.get vltReg) 27 24 ≠ act then w
  else
    match w.vltChecks c with
    | .error e => (w.finish .vlt e).vltDone act e.st.code
    | .ok _ =>
      if (w.vault.st = 2 ∧ act ≠ 10) ∨ (act = 6 ∧ !w.loadFree) then w
      else
        let fin (r : VRes) : W :=
          match r.2 with
          | none => (r.1.finish .vlt {}).vltDone act 0
          | some e => (r.1.finish .vlt { st := e, index := 0xFFFF }).vltDone act e.code
        match act with
        | 1 => fin (w.vltWrite c m)
        | 2 => fin (w.vltRead c m)
        | 3 => fin (w.vltDelete c m)
        | 4 => fin (w.vltAppend c m)
        | 5 => fin (w.vltStat c m)
        | 6 =>
          let (w, f) := w.vltLoad c m
          (w.finish .vlt f).vltDone act f.st.code
        | 7 =>
          match w.vltTable c with
          | .ok w => (w.finish .vlt {}).vltDone act 0
          | .error e => (w.finish .vlt e).vltDone act e.st.code
        | 8 => fin (w.vltFormat m)
        | 9 => fin (w.scrub m, none)
        | _ => fin (w.vltConfig c, none)

/-- A vault commit whose checks fail ends without its action (16 R627). -/
def W.vltReject (w : W) : W :=
  let c := w.cm .vlt
  if !c.busy then w
  else
    match w.vltChecks c with
    | .error e => (w.finish .vlt e).vltDone (wf (c.get vltReg) 27 24) e.st.code
    | .ok _ => w

/-! ### Mount, background and supply -/

/-- The mount (16 R601, R604, R614, R615): the chip enables that answer, the blocks of each channel and its
good free ones come from the medium; the tables of the system area replace the default sequences. -/
def W.vltMount (w : W) (ce blocks good : List Nat) : W :=
  let v := w.vault
  let here := !(ce.all fun c => c % 16 == 0)
  let v := { v with ce := (upTo 2).map fun k => ce.getD k 0 % 16, blocks := (upTo 2).map fun k => blocks.getD k 0
                    good := (upTo 2).map fun k => min (good.getD k 0) (blocks.getD k 0) }
  if here && v.sys then ((w.setVault { v with
    st := 1, slots := v.kept, scrubAt := w.now + wf (w.vcfg 0x44) 31 16 * 3600000000000 }).vltEvent 1).vltWorn
  else (w.setVault { v with st := 0 }).vltEvent 5

/-- The scrub period expires (16 R612). -/
def W.scrubPeriod (w : W) (m : Med) : W :=
  if w.vault.st = 1 ∨ w.vault.st = 3 then (w.toTime w.vault.scrubAt).scrub m else w

/-- Between actions the vault moves blocks (16 R610 to R613). -/
def W.vltMove (w : W) (m : Med) : W :=
  if (w.vault.st = 1 ∨ w.vault.st = 3) ∧ !(w.cm .vlt).busy then w.medium m else w

/-- A supply warning pauses the vault (16 R616). -/
def W.vltPause (w : W) : W :=
  let v := w.vault
  if v.st = 1 ∨ v.st = 3 then (w.setVault { v with st := 2, prev := v.st }).vltEvent 2 else w

/-- The end of a supply warning resumes the vault (16 R616). -/
def W.vltResume (w : W) : W :=
  let v := w.vault
  if v.st = 2 then (w.setVault { v with st := v.prev }).vltEvent 3 else w

/-! ### Registers -/

/-- VLT_STATUS, VLT_MEDIA, VLT_OBJECTS, VLT_FREEBLK and VLT_RETIRED (16 R625, R626). -/
def Dev.vltRegs (d : Dev) (o : Nat) : Word :=
  let v := d.vault
  match o with
  | 0x2C => w32 (v.st * 2 ^ 30 + v.fbhalf * 2 ^ 25)
  | 0x80 => w32 (b01 v.single * 65536 +
      (b01 (v.hasSlots [1, 3, 5]) + 2 * b01 (v.hasSlots [9, 10]) + 4 * b01 (v.hasSlots [11])) * 4096 +
      v.ce.getD 1 0 * 16 + v.ce.getD 0 0)
  | 0x84 => w32 v.objs.length
  | 0x88 => w32 (v.good.getD 1 0 % 65536 * 65536 + v.good.getD 0 0 % 65536)
  | _ => w32 (v.retired.getD 1 0 % 65536 * 65536 + v.retired.getD 0 0 % 65536)

end Sys2Proof.Machine
end

