-- ==== Sys2Proof/Machine/Boot.lean ====
section
/-! DEFINITION. Resets, the boot sequence, the start of engines, the supply warning, built-in tests, the
OTP store, the debug registers and the test access port (13 R511, R526 to R528; file 17). -/

namespace Sys2Proof.Machine

/-! ### Resets -/

/-- What a device reset keeps of a bank: its repair map (09 R358; 17 R629). -/
def MBank.kept (x : MBank) : MBank := { rows := x.rows, spent := x.spent, bad := x.bad, cols := x.cols }

/-- Whether a device reset keeps a register word: the dip record, the fault log and FLT_LOGLOST (17 R629). -/
def regKept (a : Nat) : Bool :=
  (decide (0x40010024 ≤ a) && decide (a < 0x40010038)) ||
  (decide (fltReg + 0x2000 ≤ a) && decide (a < fltReg + 0x4000)) || decide (a = fltReg + 0xA8)

/-- The whole physical address space of the memories. -/
def allMem : Region := { lo := 0, hi := 2 ^ 33 }

/-- The device with every register and block at its Reset value but for what R629 keeps (17 R628, R629).
The OTP store, the vault's medium and the test access port are no part of a reset. -/
def Dev.cleared (d : Dev) : Dev :=
  { part := d.part, free := d.free, tap := d.tap
    bank := d.bank.map fun c => (c.1, c.2.kept)
    regs := d.regs.filter fun c => regKept c.1
    weir := { dipReset := d.weir.dipReset }
    flt := { head := d.flt.head }
    vault := { sys := d.vault.sys, objs := d.vault.objs, kept := d.vault.kept, retired := d.vault.retired }
    sys := { sticky := d.sys.sticky, count := d.sys.count, info := d.sys.info, otp := d.sys.otp
             pins := d.sys.pins, last := d.sys.last } }

/-- A device reset is asserted; `kinds` has bit k for reset kind k of every trigger of the cycle (17 R628 to
R630, R655). -/
def W.deviceReset (w : W) (kinds : Nat) : W :=
  let d := w.cleared
  { w.zeroRegion allMem with
    toDev := { d with
      sys := { d.sys with held := true, last := kinds % 64, count := (d.sys.count + 1) % 256
                          sticky := d.sys.sticky ||| kinds % 64 } }
    sig := [] }

/-- A power-on reset: nothing is kept but the part, the OTP store and the vault's medium (17 R628, R629). -/
def W.powerOn (w : W) (also : Nat) : W :=
  let v := w.vault
  { w.zeroRegion allMem with
    toDev := { part := w.part, free := w.free
               vault := { sys := v.sys, objs := v.objs, kept := v.kept, retired := v.retired }
               sys := { held := true, otp := w.sys.otp, last := 1 ||| also % 64, sticky := 1 ||| also % 64 } }
    sig := [] }

/-- The masks of the reset kinds (17 R655). -/
def kindPin : Nat := 2
def kindSupply : Nat := 4
def kindThermal : Nat := 8
def kindSoftware : Nat := 16
def kindDebug : Nat := 32

/-- A thermal reset, after 31 Weir periods at LIMIT + 10 °C (13 R511; 17 R654). -/
def W.thermalTrip (w : W) (also : Nat) : W :=
  if 31 ≤ w.weir.trip then
    let info := match w.weir.meas with
      | some m => w32 (m.sensor * 65536 + modn 16 m.tmax)
      | none => w32 (w.weir.sensor * 65536 + modn 16 w.weir.tmax)
    let w := w.deviceReset (kindThermal ||| also)
    { w with sys := { w.sys with info := info } }
  else w

/-! ### Supply -/

/-- Tide time carried to a sample time of the supply monitor (13 R527). -/
def W.toSample (w : W) : W := w.toTime (roundUp w.now 10)

/-- A supply warning begins (13 R526; 16 R616). -/
def W.supplyWarning (w : W) : W :=
  if w.weir.dip.isSome then w
  else
    let w := w.toSample
    let w := { w with weir := { w.weir with dip := some w.now } }
    let w := w.raiseNow 0x5A9 (2 ^ 28)
    let w := (upTo 24).foldl (fun w p =>
      let x := w.pol p
      let w := w.setPol p { x with goal := none, ceil := none, vgo := none, more := []
                                   resume := if 1 < x.cur then some x.cur else x.resume }
      let w := if 1 < x.cur then w.setOp p 1 else w
      if 1 < w.floor p then w.breach p else w) w
    w.vltPause

/-- A supply warning ends 10 µs after its last low sample: the dip is recorded; polders return to their
operating points at the next frame boundary (13 R527; 16 R616). -/
def W.supplyWarningEnd (w : W) (minMv lastLow : Nat) : W :=
  match w.weir.dip with
  | none => w
  | some s =>
    let last := max s (roundUp lastLow 10)
    let w := w.toTime (last + 10010)
    let w := ((w.setRg (weirReg + 0x24) (w32 (minMv % 65536))).setRg (weirReg + 0x28) (w32 (last - s))).setRg
      (weirReg + 0x2C) (w32 s)
    let w := (w.setRg (weirReg + 0x30) (w32 (s / 2 ^ 32))).bump (weirReg + 0x34)
    let w := { w with weir := { w.weir with dip := none } }
    (w.raiseNow 0x5A9 (2 * 2 ^ 28 + minMv % 65536)).vltResume

/-- A supply reset: the input stayed below 810 mV for 2 µs (13 R528; 17 R629). -/
def W.supplyReset (w : W) (minMv also : Nat) : W :=
  match w.weir.dip with
  | none => w
  | some s =>
    let w := w.toTime (roundUp (s + 2000) 10)
    let w := ((w.setRg (weirReg + 0x24) (w32 (minMv % 65536))).setRg (weirReg + 0x28) (w32 (w.now - s))).setRg
      (weirReg + 0x2C) (w32 s)
    let w := w.setRg (weirReg + 0x30) (w32 (s / 2 ^ 32))
    let w := w.deviceReset (kindSupply ||| also)
    { w with weir := { w.weir with dipReset := true } }

/-! ### Release and boot -/

/-- First offset and number of 1 KB blocks of the memories of a domain (17 R634): the pool, eight data and
eight instruction memories, or the reservoir. -/
def domMems (dom : Nat) : List (Nat × Nat) :=
  if dom = 24 then [(0, 16384)]
  else (0, 1280) :: ((upTo 8).map fun i => (0x140000 + 0x10000 * i, 64)) ++
    (upTo 8).map fun i => (0x1C0000 + 0x8000 * i, 32)

/-- A defect that a test at start-up finds: domain, offset of the array word, failing bit positions, spare
rows found bad (09 R354 to R356). -/
structure BootDefect where
  dom : Nat
  off : Nat
  bits : List Nat
  spares : Nat
  deriving DecidableEq, Repr

/-- A number put into a list in rising order, once. -/
def insNat (n : Nat) : List Nat → List Nat
  | [] => [n]
  | m :: r => if n < m then n :: m :: r else if n = m then m :: r else m :: insNat n r

/-- A defect of a test at start-up as one that the first read of the march meets. -/
def BootDefect.asDefect (f : BootDefect) : Defect := (f.off % 1024 / arrayWord f.dom f.off, 1, 0, f.bits, f.spares)

/-- A destructive March C− run with REPAIR = 1 over one memory of a domain, as a whole (09 R348, R354 to R356;
17 R634). -/
def W.wholeRun (w : W) (dom lo n : Nat) (fs : List BootDefect) : W :=
  let w := w.setPat dom { st := 1, base := lo, next := lo + 1024 * n, blocks := n, done := n, destr := true, repair := true }
  let fs := fs.filter fun f => decide (f.dom = dom) && decide (lo ≤ f.off) && decide (f.off < lo + 1024 * n)
  let w := (fs.foldr (fun f l => insNat (f.off / 1024) l) []).foldl (fun w b =>
    w.patTest dom (1024 * b) ((fs.filter fun f => decide (f.off / 1024 = b)).map BootDefect.asDefect)) w
  let r : Region := { lo := domAddr dom lo, hi := domAddr dom lo + 1024 * n }
  let w := w.zeroRegion r
  { w with ecc := w.ecc.filter fun c => !r.has (8 * c.1), wb := w.wb.filter fun a => !r.has (8 * a) }.patEnd dom

/-- The destructive runs over every memory of a domain. -/
def W.domRun (w : W) (dom : Nat) (fs : List BootDefect) : W :=
  (domMems dom).foldl (fun w m => w.wholeRun dom m.1 m.2 fs) w

/-- The boot leaves step 4 (17 R631, R634, R638 to R640): step 5 from a mounted vault, else it waits. -/
def W.bootSource (w : W) : W :=
  let s := w.sys
  if s.pins = 0 then
    if w.vault.st = 0 then { w with sys := { s with phase := 4, hold := true } }
    else { w with sys := { s with phase := 5 } }
  else { w with sys := { s with phase := 4 } }

/-- Whether the test access port holds the device in reset (17 R646). -/
def Dev.tapHolds (d : Dev) : Bool := d.tap.hold

/-- Reset is released, and the boot runs steps 1 to 4 (17 R630, R631, R634; 16 R614): tide at 0, keepers at
vector 0, every memory repaired and zero, t0 of every engine STOPPED, the vault mounted if it can be. -/
def W.resetRelease (w : W) (pins : Nat) (fs : List BootDefect) (ce blocks good : List Nat) : W :=
  if w.sys.phase ≠ 1 ∨ w.tapHolds then w
  else
    let d := w.cleared
    let stop (e : Nat) : Nat × Thread := (tkey e 0, { resetThread (tkey e 0) with run := .stopped })
    let w : W := { w.zeroRegion allMem with
      toDev := { d with thr := (upTo 192).map stop, sys := { d.sys with pins := pins % 8, last := w.sys.last } }
      sig := [] }
    let w := (upTo 25).foldl (fun w dom => w.domRun dom fs) w
    (w.vltMount ce blocks good).bootSource

/-- OBJIDs of the boot objects (17 R637). -/
def fwObj : Nat := 0x10
def startObj : Nat := 0x100

/-- Whether keeper firmware breaks R636 (17). -/
def fwBad (b : List Byte) : Bool :=
  let w (o : Nat) : Nat := wdAt b o
  let len := w 8
  let part (o hi : Nat) : Bool :=
    decide (w o % 4 ≠ 0) || decide (w (o + 4) % 4 ≠ 0) || decide (hi < w (o + 4)) || decide (len - 64 < w o + w (o + 4))
  decide (b.length < 0x80) || decide (w 0 ≠ 0x314D524B) || decide (hfAt b 4 ≠ 1) || decide (hfAt b 6 ≠ 0) ||
  decide (len % 64 ≠ 0) || decide (0x100000 < len) || decide (len ≠ b.length) || decide (w 0x10 % 4 ≠ 0) ||
  decide (w 0x10 < 0x4000) || decide (0x7FFC < w 0x10) || part 0x14 0x4000 || part 0x1C 0xFB00 ||
  part 0x24 0x100000 || !zeroAt b 0x2C 0x40

/-- A boot object that failed: FAILS and STATUS (17 R638). -/
def W.bootFail (w : W) (st : St) : W :=
  { w with sys := { w.sys with fails := min (w.sys.fails + 1) 31, status := st.code } }

/-- A firmware object read and verified, or why not (17 R638). -/
def Dev.fwObject (d : Dev) (id : Nat) (m : Med) : Except St (List Byte) :=
  match tfind d.vault.objs id with
  | none => .error .badValue
  | some o =>
    match medStatus m with
    | some e => .error e
    | none =>
      if o.type ≠ 4 ∨ fwBad o.data then .error .badValue
      else if d.signed o.data then .ok o.data
      else .error .imageSignature

/-- Keeper firmware is placed and entered (17 R635, R636). -/
def W.fwEnter (w : W) (b : List Byte) (src : Nat) : W :=
  let part (o : Nat) : List Byte := (b.drop (wdAt b o)).take (wdAt b (o + 4))
  let w := ((w.wrN 0x100004000 (part 0x14)).wrN 0x100010000 (part 0x1C)).wrN 0x10E00000 (part 0x24)
  let x := w.th 768
  let w := w.setTh 768 { x with run := .ready, stk := false, ring := 0, pc := w32 (wdAt b 0x10), br := none, front := [], bub := 0
                                rpt := 0, latch := none, lineS := none, lineT := none }
  { w with sys := { w.sys with phase := 6, fwid := w32 (wdAt b 0xC), src := src } }

/-- The CONFIG of the vault that the ROM commits (17 R637). -/
def W.bootConfig (w : W) : W :=
  let w := (((w.setRg vltReg (w32 (10 * 2 ^ 24))).setRg (vltReg + 0x30) 0x10000000).setRg (vltReg + 0x34) 0x800000).setRg
    (vltReg + 0x38) 0x10F00000
  (w.accept .vlt 1).vltAct 10 {}

/-- Step 5 of the boot (17 R634 to R638): the primary firmware object, or its alternate. -/
def W.bootFirmware (w : W) (m1 m2 : Med) : W :=
  if w.sys.phase ≠ 5 then w
  else
    let w := w.bootConfig
    let src (n : Nat) : Nat := if w.sys.src = 2 then 2 else n
    match w.fwObject fwObj m1 with
    | .ok b => (w.medium m1).fwEnter b (src 0)
    | .error e =>
      let w := ((if (tfind w.vault.objs fwObj).isSome then w.medium m1 else w).bootFail e)
      match w.fwObject (fwObj + 1) m2 with
      | .ok b => (w.medium m2).fwEnter b (src 1)
      | .error e =>
        let w := ((if (tfind w.vault.objs (fwObj + 1)).isSome then w.medium m2 else w).bootFail e)
        { w with sys := { w.sys with hold := true, phase := 4 } }

/-- Whether the ROM waits for a host (17 R638, R640). -/
def Dev.hostWait (d : Dev) : Bool := decide (d.sys.phase = 4) && (decide (d.sys.pins = 2) || d.sys.hold)

/-- An object written by the ROM (17 R640). -/
def W.bootWrite (w : W) (id ty : Nat) (b : List Byte) : W :=
  let old := tfind w.vault.objs id
  w.setVault { w.vault with
    objs := tset w.vault.objs id { type := ty, ver := ((old.map (·.ver)).getD 0) + 1, time := w.now, data := b } }

/-- The host rang doorbell 255 (17 R640): both objects are verified, the vault is formatted if it is not
mounted, and the objects are written; the boot goes on at step 5. -/
def W.pcieBoot (w : W) (m : Med) : W :=
  let bell := tget 0 w.evSeq 0x73F
  if !w.hostWait ∨ bell = w.sys.bell then w
  else
    let w := { w with sys := { w.sys with bell := bell } }
    let stop (w : W) (st : St) : W := { w with sys := { w.sys with status := st.code } }
    match w.rdAt .keeper 0x10900000 8 with
    | (w, .error e) => stop w e
    | (w, .ok ls) =>
      let n := wdAt ls 0
      let k := wdAt ls 4
      if 0x100000 < n ∨ 0x800000 < k then stop w .badValue
      else
        match w.rdAt .keeper 0x10000000 n with
        | (w, .error e) => stop w e
        | (w, .ok fw) =>
          match w.rdAt .keeper 0x10100000 k with
          | (w, .error e) => stop w e
          | (w, .ok rc) =>
            if !(w.signed fw) ∨ !(w.signed rc) then stop w .imageSignature
            else
              let (w, r) := if w.vault.st = 0 then w.vltFormat m else (w, medStatus m)
              match r with
              | some e => stop w e
              | none =>
                let w := (w.bootWrite fwObj 4 fw).bootWrite startObj 1 rc
                let w := w.medium m
                { w with sys := { w.sys with phase := 5, src := 2 } }

/-! ### Engine start -/

/-- SYS_START registers (17 R654). -/
def sysReg : Nat := 0x40000000

/-- The engines that a SYS_START commit names (17 R641). -/
def startMask (c : Com) : List Nat :=
  (upTo 192).filter fun e => wbit (c.get (sysReg + 0x100 + 4 * (e / 32))) (e % 32)

/-- The tide time of a SYS_START commit. -/
def startTime (c : Com) : Nat := (c.get (sysReg + 0x118)).toNat + 2 ^ 32 * (c.get (sysReg + 0x11C)).toNat

/-- Whether t0 of an engine may be started by SYS_START: STOPPED, and not halted (17 R641, R650). -/
def Dev.startable (d : Dev) (e : Nat) : Bool :=
  let x := tget (resetThread (tkey e 0)) d.thr (tkey e 0)
  decide (x.run = .stopped) && !x.halted && d.inService e

/-- The checks of a SYS_START commit (17 R641). -/
def Dev.startChecks (d : Dev) (c : Com) : Except Fin3 Unit := do
  chk ((startMask c).isEmpty || decide (startTime c < c.acc + 1024)) .badValue 1
  chkEach (startMask c) (fun e => !(tget {} d.eng e).loaded || !d.startable e) .badValue 2

/-- A SYS_START commit is checked, and waits for its time (17 R641, R642). -/
def W.sysStart (w : W) : W :=
  let c := w.cm .start
  if !c.busy ∨ w.sys.starting then w
  else
    match w.startChecks c with
    | .error e => w.finish .start e
    | .ok _ => { w with sys := { w.sys with starting := true } }

/-- SYS_START_TIME comes: the engines start (17 R642). -/
def W.engineStart (w : W) : W :=
  let c := w.cm .start
  if !c.busy ∨ !w.sys.starting then w
  else
    let w := w.toTime (startTime c)
    let es := startMask c
    let late := es.find? fun e => !w.startable e
    let w := es.foldl (fun w e => if w.startable e then w.startThread (tkey e 0) (w.en e).entry 0 else w) w
    let w := { w with sys := { w.sys with starting := false, phase := if 6 ≤ w.sys.phase then 15 else w.sys.phase } }
    match late with
    | none => w.finish .start {}
    | some e => w.finish .start { st := .badValue, index := e }

/-! ### Built-in tests -/

/-- A thread whose registers a test program has used: free values (17 R644). -/
def Thread.used (x : Thread) (n : Nat) : Thread :=
  let wd (o len : Nat) : Tbl Word := (upTo len).map fun i => (i, Config.freeValue 32 (n + o + i))
  { x with
    d := wd 0 32, dSh := (wd 32 32).filter fun c => decide (24 ≤ c.1)
    a := wd 64 16, aSh := (wd 80 16).filter fun c => decide (12 ≤ c.1)
    x := (upTo 32).map fun i => (i, Config.freeValue 40 (n + 96 + i))
    p := (upTo 8).map fun i => (i, Config.freeValue 1 (n + 128 + i) == 1)
    pSh := ((upTo 8).filter fun i => decide (4 ≤ i)).map fun i => (i, Config.freeValue 1 (n + 136 + i) == 1) }

/-- An engine after its test (17 R644, R645): its registers and memories are undefined, its threads
STOPPED. -/
def W.engineUsed (w : W) (e : Nat) : W :=
  let w := w.engineReset e true
  let w := (upTo 4).foldl (fun w t =>
    { w.modTh (tkey e t) (fun x => x.used w.free) with free := w.free + 144 }) w
  let dm : Region := { lo := dmemBase e, hi := dmemBase e + 0x10000 }
  let im : Region := { lo := imemBase e, hi := imemBase e + 0x8000 }
  let w := (w.undefRegion dm).undefRegion im
  { w with ecc := w.ecc.filter fun c => !dm.has (8 * c.1) && !im.has (8 * c.1)
           wb := w.wb.filter fun a => !dm.has (8 * a) && !im.has (8 * a) }

/-- Whether a T-pin or a drive link names an engine as owner (17 R644). -/
def Dev.ownsPins (d : Dev) (e : Nat) : Bool :=
  (d.tio.any fun c => decide (c.2.mode = 1) && (decide (c.2.owner false = e) || (c.2.dual && decide (c.2.owner true = e)))) ||
  d.dlk.any fun c => decide (c.2.st ≠ 0) && (decide (c.2.owner false = e) || (c.2.dual && decide (c.2.owner true = e)))

/-- The verdict of a test with a mask of failed units (17 R645). -/
def W.bistOut (w : W) (mask : Nat) : W := w.setRg (sysReg + 0x14C) (w32 (b01 (decide (mask = 0)) * 2 ^ 31 + mask))

/-- The unit-page groups that a test compares: ALU0 to EVQ, and HV (03 R110, R114; 17 R645). -/
def bistGroups : Nat := 15

/-- A BIST commit of one kind (17 R644, R645): refused on its precondition, or the test with its verdict. -/
def bistWork (fs : List BootDefect) (w : W) (c : Com) : Except Fin3 (W × Nat) := do
  let v := c.get (sysReg + 0x140)
  let kind := wf v 27 24
  let u := wf v 7 0
  chk (decide (wf v 31 28 ≠ 0) || decide (wf v 23 8 ≠ 0) || decide (kind = 0) || decide (3 < kind) ||
    decide ((match kind with | 1 => 192 | 2 => 24 | _ => 8) ≤ u)) .badValue 1
  match kind with
  | 1 => do
    let idle := ((upTo 4).all fun t => decide ((w.th (tkey u t)).run = .stopped)) && !w.ownsPins u
    chk (decide (w.unitState u ≠ 3) && !idle) .badValue 2
    let (m, w) := w.fresh bistGroups
    pure ((w.engineUsed u).bistOut m.toNat, 0)
  | 2 => do
    chk (decide (w.unitState (256 + u) ≠ 3)) .badValue 2
    let w := w.domRun u fs
    let w := (unitEngines (256 + u)).foldl W.engineUsed w
    let (m, w) := w.fresh bistGroups
    pure (w.bistOut m.toNat, 0)
  | _ => do
    chk (decide (cfgMode (w.port u).cfg ≠ 0)) .badValue 2
    let (n, w) := w.fresh 24
    pure (w.bistOut n.toNat, 0)

/-- The kind that the BIST commit under way names. -/
def Dev.bistKind (d : Dev) : Nat := wf ((d.cm .bist).get (sysReg + 0x140)) 27 24

/-! ### OTP and debug -/

/-- An OTP commit (17 R632, R655). -/
def otpWork (w : W) (c : Com) : Except Fin3 (W × Nat) := do
  let k := (c.get (dbgReg + 0x10)).toNat
  chk (decide (w.sys.pins = 0 ∨ w.sys.pins = 2) || wbit (w.otpWord 32) 31 || decide (32 < k)) .badValue 1
  pure ({ w with sys := { w.sys with otp := tset w.sys.otp k (w.otpWord k ||| c.get (dbgReg + 0x14)) } }, 0)

/-- The thread that a DBG_THR word names (17 R649). -/
def thrKey (v : Word) : Option Nat :=
  let e := wf v 7 0
  if e < 192 then some (tkey e (wf v 9 8)) else if e = 0xFE then some (tkey 192 (wf v 9 8)) else none

/-- A register of the state window written into a thread's active bank (17 R651). -/
def W.tswApply (w : W) (k : Nat) (c : Nat × Word) : W :=
  let o := c.1
  let v := c.2
  let sh := (w.th k).shadow
  if o < 0x80 then w.modTh k fun x => x.setD sh (o / 4) v
  else if o < 0xC0 then w.modTh k fun x => x.setA sh ((o - 0x80) / 4) v
  else if o = 0xC0 then w.modTh k fun x => x.setPr sh v
  else if o = 0x104 then w.modTh k fun x => { x with pc := v, br := none, rpt := 0, latch := none, front := [], bub := 0 }
  else if 0x100 ≤ o ∧ ctlExists ((o - 0x100) / 4) then w.ctlWrite k ((o - 0x100) / 4) 0 v
  else w

/-- The halted thread continues: held writes take effect together (17 R649 to R651; 14 R540). -/
def W.unhalt (w : W) (k : Nat) (step : Bool) : W :=
  let w := (w.th k).dbgHeld.foldl (fun w c => w.tswApply k c) w
  (w.modTh k fun x => { x with halted := false, dbgHeld := [], stepReq := step, startIn := w.weir.period }).wdRestart k

/-- After a bundle, a repetition or an exception entry, a stepped thread is halted again (17 R649). -/
def W.stepped (w : W) (k : Nat) : W :=
  w.modTh k fun x => if x.stepReq then { x with halted := true, stepReq := false } else x

/-- A DBG_THR commit (17 R649, R650). -/
def thrWork (w : W) (c : Com) : Except Fin3 (W × Nat) := do
  let v := c.get (dbgReg + 0x40)
  let act := wf v 27 24
  chk (decide (wf v 31 28 ≠ 0) || decide (wf v 23 10 ≠ 0) || decide (act = 0) || decide (3 < act)) .badValue 1
  match thrKey v with
  | none => .error { st := .badValue, check := 1, index := 0xFFFF }
  | some k => do
    chk (decide (act ≠ 1) && !(w.th k).halted) .badValue 1
    match act with
    | 1 => pure (w.modTh k fun x => { x with halted := true, stepReq := false }, 0)
    | 2 => pure (w.unhalt k false, 0)
    | _ => pure (w.unhalt k true, 0)

/-- The action that the DBG_THR commit under way names. -/
def Dev.thrAction (d : Dev) : Nat := wf ((d.cm .thr).get (dbgReg + 0x40)) 27 24

/-- Whether an offset of the state window names a register (17 R651). -/
def tswOff (o : Nat) : Bool :=
  decide (o % 4 = 0) && (decide (o ≤ 0xC0) || (decide (0x100 ≤ o) && ctlExists ((o - 0x100) / 4)))

/-- A write to the state window is held while the named thread is halted (17 R651). -/
def W.tswWrite (w : W) (o : Nat) (v : Word) : W :=
  match thrKey (w.stg (dbgReg + 0x40)) with
  | some k => if (w.th k).halted && tswOff o then w.modTh k fun x => { x with dbgHeld := x.dbgHeld ++ [(o, v)] } else w
  | none => w

/-- A read of the state window: what will take effect at the resume (17 R651). -/
def W.tswRead (w : W) (o : Nat) : Word :=
  match thrKey (w.stg (dbgReg + 0x40)) with
  | none => 0
  | some k =>
    if !(w.th k).halted || !tswOff o then 0
    else
      let w := (w.th k).dbgHeld.foldl (fun w c => w.tswApply k c) w
      let x := w.th k
      if o < 0x80 then x.getD x.shadow (o / 4)
      else if o < 0xC0 then x.getA x.shadow ((o - 0x80) / 4)
      else if o = 0xC0 then x.pw x.shadow
      else w.ctlRead k ((o - 0x100) / 4) x.pc

/-- DBGMODE, and whether the debug access port is open (17 R632, R648). -/
def Dev.dbgMode (d : Dev) : Nat := wf (d.otpWord 32) 2 1
def Dev.dapIsOpen (d : Dev) : Bool := decide (d.dbgMode = 0) || (decide (d.dbgMode = 1) && d.sys.dapOpen)

/-- A write to DBG_UNLOCK (17 R648). -/
def W.dbgUnlock (w : W) (r : Req) (v : Word) : W :=
  if r.who = .keeper ∧ r.ring = 0 ∧ v = 1 ∧ w.dbgMode = 1 then { w with sys := { w.sys with dapOpen := true } } else w

/-- A write to DBG_TRCCTRLp: while EN = 1 it changes only EN; the engine traced is the one that DBG_THR names
when EN is set (17 R655). -/
def W.trcWrite (w : W) (p : Nat) (v : Word) : W :=
  let r := w.rg (trcReg p)
  if wbit r 31 then w.setRg (trcReg p) (wset r 31 31 (b01 (wbit v 31)))
  else
    let w := w.setRg (trcReg p) (v &&& 0xC000003C)
    if wbit v 31 then
      { w with trace := tset w.trace p { tget {} w.trace p with eng := wf (w.stg (dbgReg + 0x40)) 7 0 } }
    else w

/-! ### Test access port -/

/-- The TAP instructions (17 R646). -/
inductive TapOp where
  | extest | idcode | sample | clamp | highz | dapacc | bypass
  deriving DecidableEq, Repr

/-- Code of a TAP instruction (17 R646). -/
def TapOp.code : TapOp → Nat
  | .extest => 0 | .idcode => 1 | .sample => 2 | .clamp => 4 | .highz => 5 | .dapacc => 0x10 | .bypass => 0x3F

/-- Whether an instruction holds the device in DEBUG reset while it is selected (17 R646). -/
def TapOp.holds : TapOp → Bool
  | .extest | .clamp | .highz => true
  | _ => false

/-- The instruction that a code selects: with DBGMODE 2 or 3 some act as BYPASS (17 R646). -/
def Dev.tapActs (d : Dev) (o : TapOp) : TapOp :=
  if 2 ≤ d.dbgMode ∧ (o.holds ∨ o = .dapacc) then .bypass else o

/-- IDCODE of the stepping (17 R646). -/
def Dev.idcode (d : Dev) : Word := if d.part.a1 then 0x119209C7 else 0x219209C7

/-- A TAP instruction is selected; `bits` is what Update-DR then loads into the boundary register for the
instructions that select it (17 R646; notes/assumptions/22). -/
def W.tapSelect (w : W) (o : TapOp) (bits : List Bool) : W :=
  let o := w.tapActs o
  let was := w.tap.hold
  let w := if o.holds && !was then w.deviceReset kindDebug else w
  let t := { w.tap with ir := o.code, hold := o.holds, err := decide (o = TapOp.dapacc) && !w.dapIsOpen }
  match o with
  | .idcode => { w with tap := { t with data := w.idcode } }
  | .sample =>
    let (v, w) := w.fresh 32
    { w with tap := { t with data := v, bsr := bits } }
  | .extest =>
    let (v, w) := w.fresh 32
    { w with tap := { t with data := v, bsr := bits } }
  | .dapacc => { w with tap := { t with data := if w.dapIsOpen then w.tap.data else 0 } }
  | _ => { w with tap := { t with data := 0 } }

/-- Test-Logic-Reset selects IDCODE (17 R646). -/
def W.tapReset (w : W) : W := { w with tap := { w.tap with ir := 1, hold := false, data := w.idcode, err := false } }

end Sys2Proof.Machine
end

