-- ==== Sys2Proof/Machine/Annex.lean ====
section
/-! DEFINITION. The annex link and its external units (03 R120 to R122; 15 R591 to R599). -/

namespace Sys2Proof.Machine

/-- Base of the ANX registers (15 R599). -/
def anxReg : Nat := 0x404D0000

/-- The annex replaced. -/
def W.setAnx (w : W) (a : Annex) : W := { w with annex := a }

/-- A word of a unit's descriptor (15 R592). -/
def Annex.dw (a : Annex) (k i : Nat) : Word := (tget [] a.desc k).getD i 0

/-- The presence mask: zero unless the link is UP (15 R593, R596). -/
def Annex.mask (a : Annex) : Nat :=
  if a.st = 2 then ((upTo 6).map fun k => b01 (wbit (a.dw k 0) 31) * 2 ^ k).foldl (· + ·) 0 else 0

/-- Words per operation, and result words, of a unit (15 R592). -/
def Annex.words (a : Annex) (k : Nat) : Nat := wf (a.dw k 0) 25 24 + 1
def Annex.nres (a : Annex) (k : Nat) : Nat := wf (a.dw k 0) 20 20 + 1

/-- Declared and held credits of a unit (15 R592, R594). -/
def Annex.credits (a : Annex) (k : Nat) : Nat := wf (a.dw k 0) 15 8
def Annex.held (a : Annex) (k : Nat) : Nat := tget 0 a.cred k

/-- Whether a descriptor breaks R592 (15). -/
def descBad (ws : List Word) : Bool :=
  let w := ws.getD 0 0
  decide (5 < wf w 18 16) || decide (wf w 15 8 = 0) || decide (64 < wf w 15 8) || decide (wf w 7 0 = 0) ||
  decide (ws.getD 2 0 ≠ 0) || decide (ws.getD 3 0 ≠ 0) || decide (ws.length ≠ 4)

/-- A DESC packet in training (15 R592, R593). -/
def W.anxDesc (w : W) (k : Nat) (ws : List Word) : W :=
  let a := w.annex
  if a.st ≠ 1 ∨ 6 ≤ k then w
  else if descBad ws then w.setAnx { a with bad := k :: a.bad.filter fun x => x != k }
  else w.setAnx { a with desc := tset a.desc k ws, got := k :: a.got.filter fun x => x != k
                         bad := a.bad.filter fun x => x != k }

/-- A LINK record (15 R598). -/
def W.anxLink (w : W) : W := w.raiseNow 0x630 (b01 (decide (w.annex.st = 2)) + w.annex.mask * 256)

/-- A READY packet ends training, unless a descriptor is bad; units not described are absent (15 R593). -/
def W.anxReady (w : W) : W :=
  let a := w.annex
  if a.st ≠ 1 ∨ !a.bad.isEmpty then w
  else
    let d := a.desc.filter fun c => a.got.contains c.1
    let a := { a with st := 2, desc := d }
    (w.setAnx { a with cred := (upTo 6).map fun k => (k, if a.got.contains k then a.credits k else 0) }).anxLink

/-- Every outstanding operation and request ends with an error (15 R596, R598). -/
def W.anxAbandon (w : W) : W :=
  let a := w.annex
  let w := a.ops.foldl (fun w j => w.modTh j.key fun x => x.setSrc j.shadow (200 + j.unit) 1) w
  let w := w.setAnx { a with ops := [], reqs := [] }
  let w := if a.reqs.isEmpty then w else { w with resp := { err := some .busError } }
  (upTo 6).foldl (fun w k =>
    let n := (a.ops.filter fun j => decide (j.unit = k)).length
    if n = 0 then w else (w.bump (anxReg + 0xA4) n).raiseNow 0x632 (k * 2 ^ 21 + n)) w

/-- The link goes to a state below UP: 0 DOWN or 1 TRAIN (15 R593, R596, R599). -/
def W.anxTo (w : W) (st : Nat) : W :=
  let up := decide (w.annex.st = 2)
  let w := w.anxAbandon
  let w := w.setAnx { w.annex with st := st, got := [], bad := [] }
  if up then w.anxLink else w

/-- A link error: 1 CRC, 2 TYPE, 3 RES, 4 CREDIT, 5 TIMEOUT (15 R596, R598). -/
def W.anxError (w : W) (code : Nat) : W :=
  if w.annex.st = 0 then w
  else ((w.bump (anxReg + 0xA0)).raiseNow 0x631 (code % 16)).anxTo 1

/-- A write to ANX_CTRL (15 R599). -/
def W.anxCtrl (w : W) (v : Word) : W :=
  let was := wbit (w.rg anxReg) 0
  let w := w.setRg anxReg (v &&& 1)
  if !wbit v 0 then (if was then w.anxTo 0 else w)
  else if !was ∨ wbit v 1 then w.anxTo 1
  else w

/-- A RES packet: the unit's oldest operation completes, and its words go to the thread and bank in the
header; `late` says that it took longer than LAT (03 R122; 06 R233; 15 R594, R595). -/
def W.anxRes (w : W) (unit key : Nat) (shadow : Bool) (ws : List Word) (late : Bool) : W :=
  let a := w.annex
  if a.st ≠ 2 then w
  else
    match takeFirst (fun j => decide (j.unit = unit)) a.ops with
    | none => w.anxError 3
    | some (_, rest) =>
      let w := w.setAnx { a with ops := rest }
      let r1 : Word := if a.nres unit = 2 then ws.getD 1 0 else 0
      let w := w.modTh key fun x =>
        ((x.setSrc shadow (116 + 2 * unit) (ws.getD 0 0)).setSrc shadow (117 + 2 * unit) r1).setSrc shadow (200 + unit) 0
      if late && w.checked key then w.deviate key 5 (0x18 + unit) (w.th key).pc else w

/-- A CRED packet returns credits (15 R594, R596). -/
def W.anxCred (w : W) (unit n : Nat) : W :=
  let a := w.annex
  if a.st ≠ 2 then w
  else if a.credits unit < a.held unit + n then w.anxError 4
  else w.setAnx { a with cred := tset a.cred unit (a.held unit + n) }

/-- The response to a request with a tag: RDRESP or WRACK (15 R597, R598). -/
def W.anxResp (w : W) (tag : Nat) (wr : Bool) (bytes : List Byte) (err : Bool) : W :=
  let a := w.annex
  match takeFirst (fun c => decide (c.1 = tag) && (c.2.write.isSome == wr)) a.reqs with
  | none => w
  | some ((_, x), rest) =>
    let w := w.setAnx { a with reqs := rest }
    if err then { w.raiseNow 0x633 (tag % 256) with resp := { err := some .busError } }
    else if wr then { w with resp := {} }
    else { w with resp := { bytes := bytes.take x.len, data := w32 (leNat (bytes.take (min 4 x.len))) } }

/-- A request of the annex is not answered within 10 µs (15 R596). -/
def W.anxTimeout (w : W) : W := if w.annex.reqs.isEmpty then w else w.anxError 5

/-- Whether a packet is one that R596 makes an error: a CRC error (1) or an unknown TYPE (2). -/
def W.anxPacketError (w : W) (code : Nat) : W := if code = 1 ∨ code = 2 then w.anxError code else w

/-! ### External units -/

/-- Whether unit `u` is present (03 R121). -/
def Dev.uxHere (d : Dev) (u : Nat) : Bool := d.annex.mask.testBit u

/-- ANX.ST (03 R111). -/
def Dev.anxSt (d : Dev) : Word := w32 (b01 (decide (d.annex.st = 2)) * 256 + d.annex.mask)

/-- The words counted for a unit in the bank that runs (03 R120). -/
def Thread.uxWords (x : Thread) (u : Nat) : List Word := tget [] (x.bankOf x.shadow).ux u

/-- Whether the next word to a unit is its trigger, and it has no credit (03 R120; 15 R594). -/
def W.uxBusy (w : W) (k u : Nat) : Bool :=
  let x := w.th k
  decide (w.annex.words u ≤ (x.uxWords u).length + 1) && decide (w.annex.held u = 0)

/-- A word moved to a unit; the one that completes an operation sends it (03 R120; 15 R594). Where a retrain has lowered
W to the words counted or below, the next word completes the operation, which carries all of them: DESIGN CHOICE,
notes/assumptions/62. -/
def W.uxWrite (w : W) (k u : Nat) (v : Word) : W :=
  let x := w.th k
  let ws := x.uxWords u ++ [v]
  let bank := x.bankOf x.shadow
  if w.annex.words u ≤ ws.length then
    let w := w.setTh k { x.setBank x.shadow { bank with ux := tset bank.ux u [] } with seq := x.seq + 1 }
    let a := w.annex
    w.setAnx { a with
      cred := tset a.cred u (a.held u - 1)
      ops := a.ops ++ [{ unit := u, key := k, shadow := x.shadow, seq := x.seq, words := ws }] }
  else w.setTh k (x.setBank x.shadow { bank with ux := tset bank.ux u ws })

end Sys2Proof.Machine
end

