-- ==== Sys2Proof/Machine/Camera.lean ====
section
/-! DEFINITION. Camera inputs (15 R579 to R584) and the forwarding of records by the PCIe endpoint (15
R588). -/

namespace Sys2Proof.Machine

/-! ### Camera inputs -/

/-- Camera input `n`. -/
def Dev.cam (d : Dev) (n : Nat) : Csi := tget {} d.csi n

/-- Context `v` of camera input `n`. -/
def Dev.cctx (d : Dev) (n v : Nat) : CsiCtx := tget {} (d.cam n).ctx v

/-- A context replaced. -/
def W.setCctx (w : W) (n v : Nat) (x : CsiCtx) : W :=
  { w with csi := tset w.csi n { w.cam n with ctx := tset (w.cam n).ctx v x } }

/-- The live words of a context (15 R583). -/
def CsiCtx.base (x : CsiCtx) : Nat := (x.words.getD 0 0).toNat
def CsiCtx.pitch (x : CsiCtx) : Nat := wf (x.words.getD 1 0) 15 0
def CsiCtx.ring (x : CsiCtx) : Nat := wf (x.words.getD 1 0) 31 16
def CsiCtx.ctrl (x : CsiCtx) : Word := x.words.getD 2 0
def CsiCtx.pace (x : CsiCtx) : Word := x.words.getD 3 0

/-- The blocks of the frame that are ready: block k when line Y0 + (k + 1) × L − 1 has been written
(15 R581). -/
def CsiCtx.ready (x : CsiCtx) : Nat :=
  let y0 := wf x.pace 31 16
  let l := wf x.pace 7 0
  if x.lines ≤ y0 ∨ l = 0 then 0 else min (wf x.pace 15 8) ((x.lines - y0) / l)

/-- Whether a context paces channel `ch` of culvert `c`. -/
def CsiCtx.paces (x : CsiCtx) (c ch : Nat) : Bool :=
  wbit x.ctrl 31 && wbit x.ctrl 29 && decide (wf x.ctrl 12 8 = c) && decide (wf x.ctrl 3 0 = ch)

/-- The hub asserts the request of the paced channel while ready blocks outnumber consumed ones
(15 R581). -/
def W.camPace (w : W) (n v : Nat) : W :=
  let x := w.cctx n v
  let c := wf x.ctrl 12 8
  let ch := wf x.ctrl 3 0
  if wbit x.ctrl 31 && wbit x.ctrl 29 && decide (c < 24) then
    w.culRequest c ch (decide (x.used < x.ready))
  else w

/-- A descriptor of channel `ch` of culvert `c` completes: the hub counts one block consumed (15 R581). -/
def W.camConsume (w : W) (c ch : Nat) : W :=
  (upTo 16).foldl (fun w i =>
    let n := i / 4
    let v := i % 4
    let x := w.cctx n v
    if x.paces c ch then (w.setCctx n v { x with used := x.used + 1 }).camPace n v else w) w

/-- A record of an input (15 R582). -/
def W.camEvent (w : W) (n k payload : Nat) : W := w.raiseNow (0x500 + 16 * n + k) payload

/-- The data types of R579 (15). -/
def camType (t : Nat) : Bool := decide (t = 0x2A) || decide (t = 0x2B) || decide (t = 0x2C) || decide (t = 0x1E)

/-- Whether a ring lies in the reservoir or in one pool (15 R583). -/
def camPlace (a n : Nat) : Bool :=
  (decide (0x10000000 ≤ a) && decide (a + n ≤ 0x11000000)) ||
  (decide (0x20000000 ≤ a ∧ a < 0x23000000) &&
    decide ((a - 0x20000000) % 0x200000 + n ≤ 0x140000))

/-- A CSI commit (15 R583); the checks of a context are made where it is enabled (DEDUCED,
notes/assumptions/24). LANES takes effect at once, each context at its next Frame Start. -/
def csiWork (n : Nat) (w : W) (c : Com) : Except Fin3 (W × Nat) := do
  let b := csiReg n
  let lanes := c.get b
  let word (v i : Nat) : Word := c.get (b + 0x100 + 0x20 * v + 4 * i)
  let ctl (v : Nat) : Word := word v 2
  let en (v : Nat) : Bool := wbit (ctl v) 31
  chk (decide (wf lanes 31 2 ≠ 0)) .badValue 1
  chkEach (upTo 4) (fun v => decide (wf (ctl v) 28 22 ≠ 0) || decide (wf (ctl v) 15 13 ≠ 0) ||
    decide (wf (ctl v) 7 4 ≠ 0)) .badValue 1
  chk (decide (lanes = 0) && (upTo 4).any en) .badValue 2
  chkEach (upTo 4) (fun v => en v && !camType (wf (ctl v) 21 16)) .badValue 3
  chkEach (upTo 4) (fun v => en v && (decide (wf (word v 1) 15 0 % 32 ≠ 0) || decide (wf (word v 1) 15 0 = 0))) .badValue 4
  chkEach (upTo 4) (fun v => en v && decide (wf (word v 1) 31 16 = 0)) .badValue 5
  chkEach (upTo 4) (fun v => en v &&
    !camPlace (word v 0).toNat (wf (word v 1) 31 16 * wf (word v 1) 15 0)) .badValue 6
  chkEach (upTo 4) (fun v => wbit (ctl v) 29 &&
    decide (65536 < wf (word v 3) 31 16 + wf (word v 3) 15 8 * wf (word v 3) 7 0)) .badValue 7
  let w : W := { w with csi := tset w.csi n { w.cam n with lanes := wf lanes 1 0 } }
  pure ((upTo 4).foldl (fun w v => w.setCctx n v { w.cctx n v with next := some ((upTo 4).map (word v)) }) w, 0)

/-- The header ECC corrected one bit of a packet of virtual channel `v` (15 R579, R582). -/
def W.camCorrected (w : W) (n v : Nat) (corrected : Bool) : W := if corrected then w.camEvent n 8 v else w

/-- A Frame Start of virtual channel `v`, sent at `t` (15 R581 to R583). -/
def W.frameStart (w : W) (n v num t : Nat) (corrected : Bool) : W :=
  if (w.cam n).lanes = 0 ∨ t < w.now then w
  else
    let w := (w.toTime t).camCorrected n v corrected
    let x := w.cctx n v
    let left := x.ready - x.used
    let w := if wbit x.ctrl 31 && wbit x.ctrl 29 && decide (0 < left) then
        w.camEvent n 11 (v + left * 65536) else w
    let w := (w.setCctx n v { x with lines := 0, used := 0 }).camPace n v
    let w := w.setCctx n v { w.cctx n v with
      words := x.next.getD x.words, next := none, frame := num % 65536, inFrame := true }
    (w.camPace n v).raise (0x500 + 16 * n + v) (num % 65536) t

/-- A Frame End of virtual channel `v`, sent at `t` (15 R582). -/
def W.frameEnd (w : W) (n v num t : Nat) (corrected : Bool) : W :=
  if (w.cam n).lanes = 0 ∨ t < w.now then w
  else
    let w := (w.toTime t).camCorrected n v corrected
    let x := w.cctx n v
    (w.setCctx n v { x with inFrame := false }).raise (0x500 + 16 * n + 4 + v)
      (num % 65536 + x.lines % 65536 * 65536) t

/-- RAW10 pixels: four pixels in five bytes (CSI-2; PRESUMED, notes/assumptions/16). -/
def unpack10 : List Byte → List Nat
  | a :: b :: c :: d :: e :: r =>
    let l := e.toNat
    (4 * a.toNat + l % 4) :: (4 * b.toNat + l / 4 % 4) :: (4 * c.toNat + l / 16 % 4) ::
      (4 * d.toNat + l / 64 % 4) :: unpack10 r
  | _ => []

/-- RAW12 pixels: two pixels in three bytes (CSI-2; PRESUMED, notes/assumptions/16). -/
def unpack12 : List Byte → List Nat
  | a :: b :: c :: r => (16 * a.toNat + c.toNat % 16) :: (16 * b.toNat + c.toNat / 16) :: unpack12 r
  | _ => []

/-- The bytes of a line as a context stores them (15 R580). -/
def lineBytes (unpack : Bool) (dt : Nat) (bs : List Byte) : List Byte :=
  let halves (l : List Nat) : List Byte := (l.map (leBytes 2)).flatten
  if !unpack then bs
  else
    match dt with
    | 0x2A => halves (bs.map (·.toNat))
    | 0x2B => halves (unpack10 bs)
    | 0x2C => halves (unpack12 bs)
    | _ => bs

/-- A long packet of virtual channel `v` and data type `dt`, or a Line Start (0x02) or Line End (0x03) short packet,
which has no further effect (15 R579 to R582; the codes are CSI-2's: PRESUMED, notes/assumptions/16). -/
def W.camLine (w : W) (n v dt : Nat) (bs : List Byte) (crcOk corrected : Bool) : W :=
  if (w.cam n).lanes = 0 then w
  else
    let w := w.camCorrected n v corrected
    let x := w.cctx n v
    if dt = 2 ∨ dt = 3 then w
    else if wbit x.ctrl 31 && x.inFrame && decide (wf x.ctrl 21 16 = dt) then
      let y := x.lines
      let out := (lineBytes (wbit x.ctrl 30) dt bs).take x.pitch
      let w := (w.dmaWr .csi (x.base + y % max x.ring 1 * x.pitch) out).1
      let w := if crcOk then w else w.camEvent n 9 (v + y % 65536 * 65536)
      (w.setCctx n v { x with lines := y + 1 }).camPace n v
    else w.bump (csiReg n + 0x114 + 0x20 * v)

/-- A packet is dropped and counted; HEADER_DROP where its header cannot be corrected (15 R579, R582). -/
def W.camDrop (w : W) (n v : Nat) (header : Bool) : W :=
  if (w.cam n).lanes = 0 then w
  else
    let w := w.bump (csiReg n + 0x114 + 0x20 * v)
    if header then w.camEvent n 10 0 else w

/-- A D-PHY lane fails (15 R582). -/
def W.camPhy (w : W) (n mask : Nat) : W :=
  if (w.cam n).lanes = 0 then w else w.camEvent n 12 (mask % 16)

/-- CSI_CTXv_LINE (15 R583). -/
def Dev.camLineReg (d : Dev) (n v : Nat) : Word :=
  w32 ((d.cctx n v).frame * 65536 + (d.cctx n v).lines % 65536)

/-- Contexts in a frame (15 R583). -/
def Dev.camFrames (d : Dev) (n : Nat) : Nat :=
  ((upTo 4).map fun v => b01 (d.cctx n v).inFrame * 2 ^ v).foldl (· + ·) 0

/-! ### Forwarding of records -/

/-- Base of the PCIE registers (15 R590). -/
def pcieReg : Nat := 0x404C0000

/-- A vector is sent, or stays pending while it is masked (15 R588). -/
def W.msix (w : W) (v : Nat) : W :=
  if wbit (w.stg (pcieReg + 0x8000 + 16 * v + 12)) 0 then
    let a := pcieReg + 0x9000 + 4 * (v / 32)
    w.setRg a (wset (w.rg a) (v % 32) (v % 32) 1)
  else w

/-- A vector is unmasked: its pending bit clears as it is sent (15 R588; PRESUMED, notes/assumptions/16). -/
def W.msixUnmask (w : W) (v : Nat) : W :=
  let a := pcieReg + 0x9000 + 4 * (v / 32)
  if wbit (w.stg (pcieReg + 0x8000 + 16 * v + 12)) 0 then w else w.setRg a (wset (w.rg a) (v % 32) (v % 32) 0)

/-- The oldest record copy of vector `v`, and the others. -/
def takeVec (v : Nat) : List (Nat × EvRec) → Option (EvRec × List (Nat × EvRec))
  | [] => none
  | c :: r => if c.1 = v then some (c.2, r) else (takeVec v r).map fun x => (x.1, c :: x.2)

/-- The endpoint writes the oldest record of vector `v` into the host ring and sends the vector, or
discards it when the ring is full (15 R588). Host memory lies outside the device: the bytes written
are shown in the response. -/
def W.pcieForward (w : W) (v : Nat) : W :=
  if w.pcie.width = 0 then w
  else
    match takeVec v w.pcie.inbox with
    | none => w
    | some (ev, rest) =>
      let used := (w.pcie.head - w.rg (pcieReg + 0x50)).toNat
      let cnt := wf (w.rg (pcieReg + 0x48)) 15 0
      if cnt ≤ used then
        W.bump { w with pcie := { w.pcie with inbox := rest, lost := min (w.pcie.lost + 1) 65536 } } (pcieReg + 0x54)
      else
        let ev := { ev with int := false, lost := decide (0 < w.pcie.lost), many := decide (w.pcie.lost = 65536) }
        W.msix { w with
          pcie := { w.pcie with inbox := rest, lost := 0, head := w.pcie.head + 1 }
          resp := { bytes := (ev.words.map fun x => leBytes 4 x.toNat).flatten } } v

/-- The PCIe link changes: a LINK record (15 R589). Width 0 means that it is down. -/
def W.pcieLink (w : W) (width speed : Nat) : W :=
  W.raiseNow { w with pcie := { w.pcie with width := width % 16, speed := if width % 16 = 0 then 0 else speed % 16 } }
    0x540 (width % 16 + (if width % 16 = 0 then 0 else speed % 16) * 16)

end Sys2Proof.Machine
end

