-- ==== Sys2Proof/Machine/Regs.lean ====
section
/-! DEFINITION. The register hub: which offsets of each block hold a register, of which kind, what it reads
as, who may write it, and what a write does (00 R8 to R11, R15 to R19; 01 R25, R26; the register tables of
files 05 to 17). -/

namespace Sys2Proof.Machine

/-- The kind of a register word: none (01 R26), a staging register (00 R18), plain read and write with a mask
of its fields, read-only, RCLR, W1C, or one whose write acts (00 R9). -/
inductive RK where
  | bad | stg | rw (mask : Word) | ro | rclr | w1c | act
  deriving DecidableEq, Repr

/-- Whether `lo ≤ o < hi`. -/
def inR (o lo hi : Nat) : Bool := decide (lo ≤ o) && decide (o < hi)

/-! ### Kinds by block -/

/-- SYS and DBG (17 R654). -/
def kindSys (o : Nat) : RK :=
  if o = 0x004 ∨ o = 0x00C ∨ o = 0x120 ∨ o = 0x144 then .act
  else if inR o 0x100 0x120 || o = 0x140 then .stg
  else if o = 0 ∨ o = 8 ∨ o = 0x10 ∨ o = 0x14 ∨ inR o 0x40 0xC4 ∨ o = 0x124 ∨ o = 0x128 ∨ o = 0x148 ∨ o = 0x14C then .ro
  else .bad

/-- DBG (17 R654). -/
def kindDbg (o : Nat) : RK :=
  if o = 4 ∨ o = 8 ∨ o = 0x18 ∨ o = 0x44 ∨ inR o 0x1000 0x1200 then .act
  else if o = 0x10 ∨ o = 0x14 ∨ o = 0x40 then .stg
  else if o = 0xF0 then .rw 0x1F
  else if inR o 0x100 0x280 then (if o % 16 = 0 then .act else if o % 16 = 4 then .ro else .bad)
  else if o = 0 ∨ o = 0x1C ∨ o = 0x48 ∨ o = 0x4C ∨ inR o 0x4000 0x8000 then .ro
  else .bad

/-- WEIR (13 R530). -/
def kindWeir (o : Nat) : RK :=
  if o < 0xC then .stg
  else if o = 0xC then .act
  else if o = 0x20 ∨ o = 0x34 then .rclr
  else if inR o 0x10 0x34 || inR o 0x80 0x100 || inR o 0x100 0x10C then .ro
  else .bad

/-- EVR (12 R459). -/
def kindEvr (o : Nat) : RK :=
  if o < 0xC then .stg
  else if o = 0xC ∨ inR o 0x800 0xC00 ∨ inR o 0x1000 0x1C10 then .act
  else if o = 0x18 then .rw 0x7FF
  else if o = 0x30 ∨ o = 0x34 then .rclr
  else if inR o 0x10 0x30 then .ro
  else .bad

/-- TIDE (12 R467). -/
def kindTide (o : Nat) : RK :=
  if inR o 8 0x18 || inR o 0x100 0x2E0 then .stg
  else if o = 0x18 then .act
  else if o < 0x3C then .ro
  else .bad

/-- SLOT (10 R404). -/
def kindSlot (o : Nat) : RK :=
  if o < 0x10 then .stg else if o = 0x10 then .act else if o < 0x30 then .ro else if o < 0x44 then .rclr else .bad

/-- MTX (10 R406). -/
def kindMtx (o : Nat) : RK :=
  if o < 0x20 ∨ inR o 0x40 0xCC then .stg
  else if o = 0xD0 ∨ o = 0x208 then .act
  else if o = 0x20C then .rclr
  else if o = 0xD4 ∨ o = 0xD8 ∨ inR o 0x100 0x120 ∨ inR o 0x140 0x1CC ∨ o = 0x200 ∨ o = 0x204 then .ro
  else .bad

/-- One domain of MEM (09 R359). -/
def kindMem (o : Nat) : RK :=
  if o < 0xC ∨ inR o 0x40 0xC0 then .stg
  else if o = 0xC ∨ o = 0xC0 then .act
  else if o = 0x140 ∨ o = 0x144 then .rclr
  else if inR o 0x10 0x20 ∨ o = 0xC4 ∨ o = 0xC8 ∨ inR o 0x100 0x150 then .ro
  else .bad

/-- FLT (14 R565). -/
def kindFlt (o : Nat) : RK :=
  if o < 0x20 ∨ inR o 0x40 0xA0 then .stg
  else if o = 0x20 then .act
  else if o = 0xA4 then .rw 0xFFFFFFFF
  else if o = 0xA8 then .rclr
  else if o = 0x24 ∨ o = 0x28 ∨ o = 0xA0 ∨ o = 0xAC ∨ inR o 0x100 0x160 ∨ inR o 0x200 0x500 ∨ o = 0x618 ∨ o = 0x61C ∨
    inR o 0x640 0x6A0 ∨ inR o 0x2000 0x4000 then .ro
  else .bad

/-- One culvert (11 R437). -/
def kindCul (o : Nat) : RK :=
  if o < 0x1000 then
    let c := o % 0x100
    if c < 0x48 then .stg else if c = 0x48 then .act else if c < 0x68 then .ro else if c < 0x74 then .rclr else .bad
  else if o = 0x1000 ∨ o = 0x1004 then .act
  else if o = 0x1008 then .ro
  else if o = 0x100C then .rclr
  else .bad

/-- One T-pin (12 R486). -/
def kindTio (o : Nat) : RK :=
  if o < 0xC then .stg else if o = 0xC ∨ inR o 0x20 0x3C then .act else .ro

/-- One drive link (12 R498). -/
def kindDlk (o : Nat) : RK :=
  if o < 0x30 then .stg
  else if o = 0x30 ∨ o = 0x40 ∨ o = 0x44 ∨ inR o 0x100 0x180 then .act
  else if inR o 0x48 0x54 then .rclr
  else if inR o 0x34 0x40 ∨ o = 0x54 ∨ o = 0x58 ∨ inR o 0x180 0x1C0 then .ro
  else .bad

/-- One Ethernet port; port 0 holds the stream table (15 R578). -/
def kindEth (n o : Nat) : RK :=
  if o < 0x10 then .stg
  else if o = 0x10 ∨ o = 0x20 then .act
  else if inR o 0x80 0x98 then .rclr
  else if inR o 0x14 0x20 ∨ inR o 0x40 0x70 then .ro
  else if n = 0 ∧ (o = 0x100 ∨ o = 0x104) then .stg
  else if n = 0 ∧ o = 0x108 then .act
  else if n = 0 ∧ (o = 0x10C ∨ o = 0x110) then .ro
  else .bad

/-- One camera input (15 R583). -/
def kindCsi (o : Nat) : RK :=
  if o = 0 then .stg
  else if o = 4 ∨ o = 0x10 then .act
  else if o = 8 ∨ o = 0xC then .ro
  else if inR o 0x100 0x180 then
    let c := o % 0x20
    if c < 0x10 then .stg else if c = 0x10 then .ro else if c = 0x14 then .rclr else .bad
  else .bad

/-- PCIE, with the MSI-X structures (15 R588, R590). -/
def kindPcie (o : Nat) : RK :=
  if o = 0 then .rw 3
  else if inR o 0x10 0x30 then (if o % 8 = 0 then .rw 0xE0000000 else .rw 0xFFFFFFFF)
  else if o = 0x40 then .rw 0xFFFFFFF0
  else if o = 0x44 ∨ o = 0x50 then .rw 0xFFFFFFFF
  else if o = 0x48 then .rw 0xFFFF
  else if o = 0x54 then .rclr
  else if inR o 0x100 0x200 then .rw 0x800007FF
  else if inR o 0x8000 0x8400 then (if o % 16 = 12 then .act else .rw 0xFFFFFFFF)
  else if o = 4 ∨ o = 0x4C ∨ o = 0x9000 ∨ o = 0x9004 then .ro
  else .bad

/-- ANX (15 R599). -/
def kindAnx (o : Nat) : RK :=
  if o = 0 then .act
  else if o = 4 ∨ inR o 0x10 0x70 ∨ inR o 0x80 0x98 then .ro
  else if o = 0xA0 ∨ o = 0xA4 then .rclr
  else .bad

/-- VLT (16 R625). -/
def kindVlt (o : Nat) : RK :=
  if o < 0x20 ∨ inR o 0x30 0x4C ∨ inR o 0x60 0x80 then .stg
  else if o = 0x20 then .act
  else if inR o 0x90 0xA0 then .rclr
  else if inR o 0x24 0x30 ∨ inR o 0x80 0x90 then .ro
  else .bad

/-- One PLD block: Weir, dispatch entries, table, sentinel, ring and memory registers, watchdogs (05 R208; 06
R248; 08 R319; 09 R365; 13 R532; 14 R541). -/
def kindPld (o : Nat) : RK :=
  if o < 0x10 then .stg
  else if o < 0x40 then .ro
  else if o < 0x48 then .rclr
  else if inR o 0x4000 0x8000 then .act
  else if inR o 0x8000 0x8800 then
    let c := o % 0x100
    if c < 0x18 then .stg else if c = 0x18 then .act else if c = 0x24 then .rw 0x3F
    else if c < 0x44 then .ro else if c < 0x4C then .rclr else .bad
  else if inR o 0x9000 0x9800 then
    let c := o % 0x100
    if c = 0 then .rw 0x00FFFF01 else if c = 4 then .w1c else if c < 0x14 then .ro
    else if inR c 0x20 0x5C then .rclr else .bad
  else if inR o 0xA000 0xB000 then
    let c := o % 0x200
    if c < 0x74 then .stg else if c = 0x74 then .act else if inR c 0x78 0xF4 then .ro
    else if inR c 0x100 0x110 then .rclr else .bad
  else if inR o 0xB000 0xB200 then (if o % 0x40 < 0x14 then .rclr else .bad)
  else if inR o 0xC000 0xC200 then (if o % 0x40 < 0x10 then .act else .bad)
  else .bad

/-- The kind of the register word at an address (01 R25, R26). -/
def regKind (a : Nat) : RK :=
  let b := (a - 0x40000000) / 0x10000
  let o := a % 0x10000
  if a < 0x40000000 ∨ 0x42000000 ≤ a ∨ a % 4 ≠ 0 then .bad
  else if b = 0 then kindSys o
  else if b = 1 then kindWeir o
  else if b = 2 then kindEvr o
  else if b = 3 then kindTide o
  else if b = 4 then kindSlot o
  else if b = 5 then kindMtx o
  else if b = 6 then (if o < 0x3200 then kindMem (o % 0x200) else .bad)
  else if b = 7 then kindFlt o
  else if 0x10 ≤ b ∧ b < 0x2C then kindCul o
  else if b = 0x30 then (if o < 0x3000 then kindTio (o % 0x40) else .bad)
  else if b = 0x31 then (if o < 0xC000 then kindDlk (o % 0x400) else .bad)
  else if 0x40 ≤ b ∧ b < 0x48 then kindEth (b - 0x40) o
  else if 0x48 ≤ b ∧ b < 0x4C then kindCsi o
  else if b = 0x4C then kindPcie o
  else if b = 0x4D then kindAnx o
  else if b = 0x4E then kindVlt o
  else if b = 0x4F then kindDbg o
  else if 0x100 ≤ b ∧ b < 0x118 then kindPld o
  else .bad

/-! ### Commit registers -/

/-- The commit block whose COMMIT register lies at an address, and its RESULT and DETAIL. -/
structure CommitRegs where
  blk : Blk
  res : Nat
  det : Nat
  deriving DecidableEq, Repr

/-- The commit block of an address's register block, for the registers of one channel, engine, pin, link or
domain (00 R15). `det` is 0 where the block has no DETAIL. -/
def commitOf (a : Nat) : List CommitRegs :=
  let b := (a - 0x40000000) / 0x10000
  let o := a % 0x10000
  let std (k : Blk) : CommitRegs := { blk := k, res := blkCommit k + 4, det := blkCommit k + 8 }
  let noDet (k : Blk) : CommitRegs := { blk := k, res := blkCommit k + 4, det := 0 }
  if b = 0 then [std .start, noDet .bist]
  else if b = 1 then [std .weir]
  else if b = 2 then [std .evr]
  else if b = 3 then [std .tide]
  else if b = 4 then [std .slot]
  else if b = 5 then [std .mtx]
  else if b = 6 then [noDet (.pat (o / 0x200)), std (.memCfg (o / 0x200))]
  else if b = 7 then [std .flt]
  else if 0x10 ≤ b ∧ b < 0x2C ∧ o < 0x1000 then [std (.cul (b - 0x10) (o / 0x100))]
  else if b = 0x30 then [std (.tio (o / 0x40))]
  else if b = 0x31 then [std (.dlk (o / 0x400))]
  else if b = 0x40 then [std (.eth 0), std .str]
  else if 0x41 ≤ b ∧ b < 0x48 then [std (.eth (b - 0x40))]
  else if 0x48 ≤ b ∧ b < 0x4C then [std (.csi (b - 0x48))]
  else if b = 0x4E then [std .vlt]
  else if b = 0x4F then [noDet .otp, noDet .thr]
  else if 0x100 ≤ b ∧ inR o 0x8000 0x8800 then [std (.tbl (8 * (b - 0x100) + (o - 0x8000) / 0x100))]
  else if 0x100 ≤ b ∧ inR o 0xA000 0xB000 then [std (.rng (8 * (b - 0x100) + (o - 0xA000) / 0x200))]
  else []

/-! ### Values -/

/-- SYS_RSTCAUSE, SYS_BOOTSTAT and SYS_ID (00 R4; 17 R655). -/
def Dev.rstCause (d : Dev) : Word := w32 (d.sys.count * 2 ^ 24 + d.sys.sticky * 2 ^ 16 + d.sys.last)
def Dev.bootStat (d : Dev) : Word :=
  w32 (d.sys.phase * 2 ^ 28 + d.sys.src * 2 ^ 26 + b01 d.sys.hold * 2 ^ 25 + d.sys.pins * 2 ^ 21 + d.sys.fails * 2 ^ 16 +
    d.sys.status)
def Dev.sysId (d : Dev) : Word := w32 (0x1920 * 65536 + d.stepping * 256 + b01 d.part.gradeE * 16)

/-- SLOT_STATE (10 R405). -/
def Dev.slotState (d : Dev) : Word :=
  let l := d.net.live
  w32 (b01 d.net.armed.isSome * 2 ^ 31 + b01 d.net.bankB * 2 ^ 30 + b01 l.isSome * 2 ^ 29 +
    b01 ((l.map (·.fallback)).getD false) * 2 ^ 28 + ((l.map (·.lost)).getD 0xFF) * 256 + (l.map (·.spare)).getD 0xFF)

/-- The slot that TBL_VIEW names, if it names one (05 R212). -/
def Dev.viewed (d : Dev) (e : Nat) : Option Slot :=
  let v := d.rg (tblReg e + 0x24)
  match kindOf (wf v 5 4) with
  | some k => if k = .fmt ∧ 8 ≤ wf v 3 0 then none else some ((tget {} d.eng e).slot (slotKey k (wf v 3 0)))
  | none => none

/-- TBL_SLOT (05 R212). -/
def Dev.tblSlot (d : Dev) (e : Nat) : Word :=
  match d.viewed e with
  | none => 0
  | some s =>
    w32 (b01 s.live.isSome * 2 ^ 31 + b01 s.armed.isSome * 2 ^ 30 + b01 (s.armed.isSome && !s.pending d.now) * 2 ^ 29 +
      b01 (s.armed.isSome && s.pending d.now) * 2 ^ 28 + s.bg * 2 ^ 20 + wf ((s.live.map (·.tid)).getD 0) 15 0)

/-- TIDE_STATE (12 R468) and TIDE_CMPEN (12 R467). -/
def Dev.tideState (d : Dev) : Word := w32 (d.tide.st * 2 ^ 30 + d.tide.src * 2 ^ 28 + d.tide.port * 2 ^ 24)
def Dev.cmpEn (d : Dev) : Word := w32 ((d.tide.cmps.map fun c => 2 ^ c.1).foldl (· + ·) 0)

/-- A word of the trace buffer that DBG_TRCVIEW names (17 R652, R654). -/
def Dev.traceWord (d : Dev) (o : Nat) : Word :=
  let t := tget {} d.trace (wf (d.rg (dbgReg + 0xF0)) 4 0)
  (tget [] t.recs (o / 16)).getD (o % 16 / 4) 0

/-- The read-only and acting registers of SYS (17 R654). -/
def Dev.roSys (d : Dev) (o : Nat) : Word :=
  if o = 0 then d.sysId else if o = 4 then d.rstCause else if o = 8 then d.sys.info
  else if o = 0x10 then d.bootStat else if o = 0x14 then d.sys.fwid
  else if inR o 0x40 0xC4 then d.otpWord ((o - 0x40) / 4)
  else if o = 0x14C then d.rg (sysReg + o) else 0

/-- Those of DBG (17 R654). -/
def W.roDbg (w : W) (o : Nat) : Word :=
  if o = 0 then w32 (w.dbgMode + 4 * b01 w.dapIsOpen)
  else if o = 0x4C then
    match thrKey (w.stg (dbgReg + 0x40)) with
    | some k => w32 (b01 (w.th k).halted * 2 ^ 31)
    | none => 0
  else if inR o 0x100 0x280 then
    (if o % 16 = 0 then w.rg (dbgReg + o) else w32 ((tget {} w.trace ((o - 0x100) / 16)).ptr))
  else if inR o 0x1000 0x1200 then w.tswRead (o - 0x1000)
  else if inR o 0x4000 0x8000 then w.traceWord (o - 0x4000)
  else 0

/-- Those of WEIR (13 R530). -/
def Dev.roWeir (d : Dev) (o : Nat) : Word :=
  if o = 0x18 then d.weirState else if o = 0x1C then w32 d.weir.beff else d.stg (weirReg + o)

/-- Those of EVR (12 R459, R460). -/
def Dev.roEvr (d : Dev) (o : Nat) : Word :=
  let v := wf (d.rg 0x40020018) 10 0
  if o = 0x1C then w32 (tget 0 d.evSeq v)
  else if inR o 0x20 0x30 then d.route v ((o - 0x20) / 4)
  else if 0x1000 ≤ o then
    let q := (o - 0x1000) / 4
    w32 (wf (d.rg (0x40020000 + o)) 31 16 * 65536 + (tget (resetThread q) d.thr q).evq.length)
  else 0

/-- Those of TIDE (12 R467). -/
def Dev.roTide (d : Dev) (o : Nat) : Word :=
  match o with
  | 0x00 => w32 d.now
  | 0x04 => w32 (d.now / 2 ^ 32)
  | 0x24 => d.tideState
  | 0x28 => d.tide.adj
  | 0x38 => d.cmpEn
  | _ => d.rg (tideReg + o)

/-- Those of SLOT (10 R404). -/
def Dev.roSlot (d : Dev) (o : Nat) : Word :=
  match o with
  | 0x1C => d.slotState
  | 0x20 => (d.net.live.map (·.id)).getD 0
  | 0x24 => (d.net.armed.map (·.1.id)).getD 0
  | _ => d.rg (0x40040000 + o)

/-- Those of one MEM domain (09 R359). -/
def Dev.roMem (d : Dev) (dom o : Nat) : Word :=
  if inR o 0x100 0x140 then
    w32 (joinN 8 ((upTo 4).map fun j => d.bankStat dom (o - 0x100 + j)))
  else if o = 0x148 then d.rg (memReg dom + o)
  else d.patRegs dom o

/-- Those of FLT (14 R565, R566). -/
def Dev.roFlt (d : Dev) (o : Nat) : Word :=
  if o = 0xA0 then w32 d.flt.head
  else if o = 0xAC then d.fltState
  else if inR o 0x100 0x160 then d.unitReg (256 + (o - 0x100) / 4)
  else if inR o 0x200 0x500 then d.unitReg ((o - 0x200) / 4)
  else d.stg (fltReg + o)

/-- Those of one culvert (11 R437, R439). -/
def Dev.roCul (d : Dev) (c o : Nat) : Word :=
  if o = 0x1008 then d.culStatus c
  else if o % 0x100 = 0x54 then d.culState c (o / 0x100)
  else if o % 0x100 = 0x58 then d.culCur c (o / 0x100)
  else d.rg (0x40100000 + 0x10000 * c + o)

/-- Those of one T-pin (12 R486, R487). -/
def Dev.roTio (d : Dev) (n o : Nat) : Word :=
  if o = 0x18 then d.tioStatus n else if o = 0x1C then d.tioValue n else 0

/-- Those of one drive link (12 R498, R499). -/
def Dev.roDlk (d : Dev) (n o : Nat) : Word :=
  if o = 0x3C then d.dlkStatus n else if o = 0x54 ∨ o = 0x58 ∨ inR o 0x180 0x1C0 then d.rg (dlkReg n + o) else 0

/-- Those of PCIE and ANX (15 R590, R599). -/
def Dev.roPcie (d : Dev) (o : Nat) : Word :=
  if o = 4 then w32 (b01 (decide (d.pcie.width ≠ 0)) * 2 ^ 31 + d.pcie.speed * 16 + d.pcie.width)
  else if o = 0x4C then d.pcie.head
  else d.stg (pcieReg + o)
def Dev.roAnx (d : Dev) (o : Nat) : Word :=
  if o = 4 then w32 (d.annex.st * 2 ^ 30 + d.annex.mask * 256)
  else if inR o 0x10 0x70 then d.annex.dw ((o - 0x10) / 16) (o % 16 / 4)
  else if inR o 0x80 0x98 then w32 (d.annex.held ((o - 0x80) / 4))
  else d.rg (anxReg + o)

/-- Those of one PLD block (05 R208; 06 R248; 08 R319; 13 R514, R532; 14 R541). -/
def Dev.roPld (d : Dev) (p o : Nat) : Word :=
  if o < 0x20 then d.stg (pldReg p + o)
  else if o = 0x34 then w32 ((d.pol p).meter / 2 ^ 32)
  else if o < 0x40 then d.polRegs p o
  else if inR o 0x4000 0x8000 then
    let j := (o - 0x4000) / 0x40
    if o % 0x40 = 0x30 then w32 ((d.dsp (dispKey p j)).rel / 2 ^ 32) else d.dispRead p j (o % 0x40)
  else if inR o 0x8000 0x8800 then
    let e := 8 * p + (o - 0x8000) / 0x100
    match o % 0x100 with
    | 0x28 => d.tblSlot e
    | 0x2C => ((d.viewed e).bind (·.live)).elim 0 (·.addr)
    | 0x30 => ((d.viewed e).bind (·.armed)).elim 0 (·.addr)
    | 0x40 => w32 (tget {} d.eng e).idxUse
    | _ => d.rg (pldReg p + o)
  else if inR o 0xA000 0xB000 then
    let e := 8 * p + (o - 0xA000) / 0x200
    tget 0 (tget {} d.eng e).ringLive (o % 0x200 - 0x80)
  else d.stg (pldReg p + o)

/-- What a read-only or acting register reads as; RESULT and DETAIL of its commit block first (00 R19; 05
R211). -/
def W.roVal (w : W) (a : Nat) : Word :=
  let b := (a - 0x40000000) / 0x10000
  let o := a % 0x10000
  match (commitOf a).find? fun c => decide (c.res = a) || decide (c.det = a), (commitOf a).find? fun c => decide (blkCommit c.blk = a) with
  | some c, _ => if c.res = a then (w.cm c.blk).result else (w.cm c.blk).detail
  | none, some _ => 0
  | none, none =>
    if b = 0 then w.roSys o
    else if b = 1 then w.roWeir o
    else if b = 2 then w.roEvr o
    else if b = 3 then w.roTide o
    else if b = 4 then w.roSlot o
    else if b = 5 then w.stg a
    else if b = 6 then w.roMem (o / 0x200) (o % 0x200)
    else if b = 7 then w.roFlt o
    else if b < 0x2C then w.roCul (b - 0x10) o
    else if b = 0x30 then w.roTio (o / 0x40) (o % 0x40)
    else if b = 0x31 then w.roDlk (o / 0x400) (o % 0x400)
    else if b < 0x48 then (if o = 0x20 then 0 else w.ethRegs (b - 0x40) o)
    else if b < 0x4C then (if o < 0x100 then 0 else w.camLineReg (b - 0x48) ((o - 0x100) / 0x20))
    else if b = 0x4C then w.roPcie o
    else if b = 0x4D then w.roAnx o
    else if b = 0x4E then w.vltRegs o
    else if b = 0x4F then w.roDbg o
    else w.roPld (b - 0x100) o

/-! ### Reads -/

/-- The registers that a read of `a` latches, and whether `a` is itself latched (05 R209; 06 R249; 10 R404; 12
R467, R498; 13 R514, R530, R532; 15 R578; 16 R625; 17 R654). -/
def latches (a : Nat) : List Nat :=
  let o := a % 0x10000
  let b := (a - 0x40000000) / 0x10000
  if b = 0 ∧ o = 0x118 then [a + 4]
  else if b = 1 ∧ o = 0x2C then [a + 4]
  else if b = 3 ∧ o = 0 then [a + 4]
  else if b = 3 ∧ o = 0x2C then [a + 4, a + 8]
  else if b = 4 ∧ (o = 8 ∨ o = 0x28) then [a + 4]
  else if b = 0x31 ∧ o % 0x400 = 0x54 then [a + 4]
  else if 0x40 ≤ b ∧ b < 0x48 ∧ o = 8 then [a + 4]
  else if b = 0x4E ∧ o = 0x14 then [a + 4]
  else if 0x100 ≤ b then
    if o = 0x30 then [a + 4]
    else if inR o 0x4000 0x8000 ∧ o % 0x40 = 0x2C then [a + 4]
    else if inR o 0x8000 0x8800 ∧ (o % 0x100 = 0x10 ∨ o % 0x100 = 0x38) then [a + 4]
    else if inR o 0x9000 0x9800 ∧ o % 0x100 = 0x0C then [a + 4]
    else []
  else []

/-- Whether a read of `a` returns a latched half. -/
def latched (a : Nat) : Bool :=
  (latches (a - 4)).contains a || (latches (a - 8)).contains a ||
  (decide ((a - 0x40000000) / 0x10000 = 0x30) && decide (a % 0x40 = 0x3C))

/-- The present value of a register word, without effects. -/
def W.regVal (w : W) (a : Nat) : Word :=
  match regKind a with
  | .bad => 0
  | .stg => w.stg a
  | .rw _ => w.stg a
  | .rclr => w.stg a
  | .w1c => w.stg a
  | .ro => w.roVal a
  | .act => w.roVal a

/-- The effects of a read: RCLR registers clear, latched halves are taken, DROPS clears, and the default
target records again (00 R9; 05 R209; 10 R399; 12 R460). -/
def W.readEffect (w : W) (a : Nat) : W :=
  let o := a % 0x10000
  let b := (a - 0x40000000) / 0x10000
  let w := (latches a).foldl (fun w h => { w with lat := tset w.lat h (w.regVal h) }) w
  if regKind a = .rclr then w.setRg a 0
  else if b = 5 ∧ o = 0x208 then { w.setRg a 0 with defSeen := false }
  else if b = 2 ∧ 0x1000 ≤ o then w.setRg a 0
  else w

/-- A word read of a register (00 R8, R9, R18; 01 R26). A high half that a read of the low half has latched reads as it
was latched, a staged one once, and otherwise as it stands (05 R209; notes/assumptions/54). CSI_STATUS shows free bits where the spec gives the lanes
no state (notes/assumptions/24). -/
def W.regRead (w : W) (a : Nat) : W × Except St Word :=
  let b := (a - 0x40000000) / 0x10000
  let o := a % 0x10000
  if regKind a = .bad then (w, .error .busError)
  else if b = 0x30 ∧ o % 0x40 = 0x38 then let (w, v) := w.capPop (o / 0x40); (w, .ok v)
  else if 0x48 ≤ b ∧ b < 0x4C ∧ o = 0x10 then
    let (v, w) := w.fresh 32
    (w, .ok ((v &&& 0x800000F0) ||| w32 (w.camFrames (b - 0x48))))
  else if latched a then
    ((if regKind a = .stg then { w with lat := tdel w.lat a } else w), .ok ((tfind w.lat a).getD (w.regVal a)))
  else (w.readEffect a, .ok (if b = 5 ∧ o = 0x208 then w.rg a else w.regVal a))

/-! ### Writes -/

/-- The owner number that a request carries (12 R473). -/
def Req.owner (r : Req) : Nat :=
  match r.who with
  | .eng e => e
  | .keeper => 0xFE
  | _ => 0xFF

/-- K0, K1 and the debug access port (08 R321). -/
def Req.chief (r : Req) : Bool := decide (r.who = .keeper) || decide (r.who = .dap)

/-- The writers of R321 (08): the chiefs, and engine threads at ring 0. -/
def Req.top (r : Req) : Bool :=
  r.chief || (match r.who with | .eng _ => decide (r.ring = 0) | _ => false)

/-- Whether a request may write a side of a T-pin or of a drive link (12 R474, R492). -/
def W.sideMay (w : W) (r : Req) (link : Bool) (n : Nat) (b : Bool) : Bool :=
  let own := if link then (w.link n).owner b else (w.pin n).owner b
  (if link then decide ((w.link n).st ≠ 0) && (!b || (w.link n).dual)
   else decide ((w.pin n).mode = 1) && (!b || (w.pin n).dual)) &&
  decide (own ≠ 0xFF) && decide (r.ring ≤ 2) && decide (r.owner = own)

/-- Whether a write to a register word is accepted (05 R208; 06 R248; 08 R321; 11 R411; 12 R458, R459, R474,
R486, R492, R498; 15 R578, R590; 16 R625; 17 R654). -/
def W.mayWrite (w : W) (r : Req) (a : Nat) : Bool :=
  let b := (a - 0x40000000) / 0x10000
  let o := a % 0x10000
  if b = 2 then (if o < 0x800 then r.top else if o < 0x1000 then decide (r.ring ≤ 2) else true)
  else if 0x10 ≤ b ∧ b < 0x2C then
    if o < 0x1000 ∧ 0xE00 ≤ o then decide (r.ring ≤ 1) else decide (r.ring ≤ 2)
  else if b = 0x30 then
    let c := o % 0x40
    if c ≤ 0xC then r.top
    else if inR c 0x20 0x38 then w.sideMay r false (o / 0x40) (decide (0x2C ≤ c))
    else true
  else if b = 0x31 then
    let c := o % 0x400
    if c ≤ 0x30 then r.top
    else if c = 0x40 ∨ c = 0x44 then w.sideMay r true (o / 0x400) (decide (c = 0x44))
    else if inR c 0x100 0x180 then w.sideMay r true (o / 0x400) (decide (0x140 ≤ c))
    else true
  else if 0x40 ≤ b ∧ b < 0x48 then (if o = 0x20 then decide (r.ring ≤ 2) else r.top)
  else if b = 0x4C then
    r.top || (decide (r.who = .pcie) && (decide (o = 0x50) || inR o 0x8000 0x8400))
  else if b = 0x4E then r.chief || decide (r.ring ≤ 1)
  else if b = 0x4F then r.top && (decide (r.who ≠ .dap) || w.dapIsOpen)
  else if 0x100 ≤ b then
    if inR o 0x8000 0x8800 then r.chief || decide (r.who = .vault) || decide (r.ring ≤ 1)
    else if inR o 0x9000 0x9800 then r.chief || decide (r.ring ≤ 1)
    else if inR o 0xB000 0xC000 then true
    else r.top
  else r.top

/-- A write to a register whose write acts, other than COMMIT (12 R458, R474, R492; 11 R436 to R438; 13 R515; 14
R541; 15 R572, R588, R599; 17 R628, R648, R651, R655). -/
def W.actWrite (w : W) (r : Req) (a : Nat) (v : Word) : W × Option St :=
  let b := (a - 0x40000000) / 0x10000
  let o := a % 0x10000
  let ok (w : W) : W × Option St := (w, none)
  if b = 0 then
    if o = 4 then ok { w with sys := { w.sys with sticky := w.sys.sticky &&& (63 - wf v 21 16) } }
    else if o = 0xC ∧ v = 0xA5A ∧ r.ring = 0 then ok (w.deviceReset kindSoftware)
    else ok w
  else if b = 2 then (if o < 0x1000 then ok (w.raiseNow (0x640 + (o - 0x800) / 4) v.toNat) else ok w)
  else if 0x10 ≤ b ∧ b < 0x2C then
    if o = 0x1000 then ok (w.culDoorbell (b - 0x10) v r.ring) else ok (w.culDisables (b - 0x10) v r.ring)
  else if b = 0x30 then
    let n := o / 0x40
    let c := o % 0x40
    if c = 0x28 then ok (w.tioPush n false v)
    else if c = 0x34 then ok (w.tioPush n true v)
    else if c = 0x38 then ok w
    else ok (w.setRg a v)
  else if b = 0x31 then
    let n := o / 0x400
    let c := o % 0x400
    if c = 0x40 then ok (w.dlkPush n false v) else if c = 0x44 then ok (w.dlkPush n true v) else ok (w.setRg a v)
  else if 0x40 ≤ b ∧ b < 0x48 then ok (w.ethDb (b - 0x40) v)
  else if b = 0x4C then ok ((w.setRg a (v &&& 1)).msixUnmask ((o - 0x8000) / 16))
  else if b = 0x4D then ok (w.anxCtrl v)
  else if b = 0x4F then
    if o = 4 then ok (w.dbgUnlock r v)
    else if o = 8 then ok (if v = 0xA5A then w.deviceReset kindDebug else w)
    else if o < 0x1000 then ok (w.trcWrite ((o - 0x100) / 16) v)
    else ok (w.tswWrite (o - 0x1000) v)
  else if 0x100 ≤ b then
    let p := b - 0x100
    if inR o 0x4000 0x8000 then
      let (w, yes) := w.dispWrite p ((o - 0x4000) / 0x40) (o % 0x40) v
      (w, if yes then none else some .busError)
    else
      let c := o - 0xC000
      ok (w.wdtWrite (32 * p + 4 * (c / 0x40) + c % 0x40 / 4) v)
  else ok w

/-- A word write of a register (00 R8, R9, R16 to R18; 01 R26). -/
def W.regWrite (w : W) (r : Req) (a : Nat) (v : Word) : W × Option St :=
  if regKind a = .bad ∨ !w.mayWrite r a then (w, some .busError)
  else
    match regKind a, (commitOf a).find? (fun c => decide (blkCommit c.blk = a)) with
    | .stg, _ => (w.setRg a v, none)
    | .rw m, _ => (w.setRg a (v &&& m), none)
    | .w1c, _ => (w.setRg a (w.rg a &&& ~~~v), none)
    | .act, some c => (w.accept c.blk v, none)
    | .act, none => w.actWrite r a v
    | _, _ => (w, none)

end Sys2Proof.Machine
end

