-- ==== Sys2Proof/Machine/Bus.lean ====
section
/-! DEFINITION. Accesses over the address maps: memory, registers, the annex and PCIe outbound; the matrix's
default target; explicit matrix transactions; and the debug access port (00 R8; 01 R26; 04 R157; 10 R394 to
R403; 15 R586, R587, R597; 17 R647, R648). -/

namespace Sys2Proof.Machine

/-- Whether a requester uses the matrix decode, whose other addresses lead to the default target (10 R394). -/
def Who.onMatrix : Who → Bool
  | .eng _ | .keeper => false
  | _ => true

/-- A read of `n` bytes by a requester. -/
def W.busRd (w : W) (r : Req) (a n : Nat) : W × Except St (List Byte) :=
  match r.who.map a with
  | .mem pa => w.rdMem r.who pa n
  | .reg x =>
    if w.diked r.who 0 then (w, .error .dikeClosed)
    else if n ≠ 4 then (w, .error .busError)
    else
      match w.regRead x with
      | (w, .ok v) => (w, .ok (leBytes 4 v.toNat))
      | (w, .error e) => (w, .error e)
  | .annex x =>
    if w.diked r.who 0 then (w, .error .dikeClosed)
    else if w.annex.st = 2 ∧ n % 4 = 0 ∧ n ≤ 32 ∧ x % 4 = 0 then
      let (v, w) := w.fresh 256
      (w, .ok (leBytes n v.toNat))
    else (w, .error .busError)
  | .pcie _ => if w.diked r.who 0 then (w, .error .dikeClosed) else w.dmaRd r.who a n
  | .none => (if r.who.onMatrix then w.defaultErr r a false else w, .error .busError)

/-- A write of bytes by a requester. -/
def W.busWr (w : W) (r : Req) (a : Nat) (bs : List Byte) : W × Option St :=
  match r.who.map a with
  | .mem pa => w.wrMem r.who pa bs
  | .reg x =>
    if w.diked r.who 0 then (w, some .dikeClosed)
    else if bs.length ≠ 4 then (w, some .busError)
    else w.regWrite r x (w32 (leNat bs))
  | .annex x =>
    if w.diked r.who 0 then (w, some .dikeClosed)
    else if w.annex.st = 2 ∧ bs.length % 4 = 0 ∧ bs.length ≤ 32 ∧ x % 4 = 0 then (w, none)
    else (w, some .busError)
  | .pcie _ => if w.diked r.who 0 then (w, some .dikeClosed) else w.dmaWr r.who a bs
  | .none => (if r.who.onMatrix then w.defaultErr r a true else w, some .busError)

/-- What an atomic leaves in memory (04 R151). -/
def LsuOp.atomic (op : LsuOp) (old o new : Word) : Word :=
  match op with
  | .afadd => old + o
  | .aswap => o
  | _ => if old = o then new else old

/-- An atomic on an aligned word: only memories perform it (10 R398). -/
def W.busAtomic (w : W) (r : Req) (a : Nat) (op : LsuOp) (o new : Word) : W × Except St Word :=
  match r.who.map a with
  | .mem _ =>
    match w.busRd r a 4 with
    | (w, .error e) => (w, .error e)
    | (w, .ok bs) =>
      let old := w32 (leNat bs)
      match w.busWr r a (leBytes 4 (op.atomic old o new).toNat) with
      | (w, some e) => (w, .error e)
      | (w, none) => (w, .ok old)
  | .none => (if r.who.onMatrix then w.defaultErr r a true else w, .error .busError)
  | _ => (w, .error .busError)

/-! ### Register commands -/

/-- The response to a read. -/
def W.answer (x : W × Except St (List Byte)) : W :=
  match x.2 with
  | .ok bs => { x.1 with resp := { bytes := bs, data := w32 (leNat (bs.take 4)) } }
  | .error e => { x.1 with resp := { err := some e } }

/-- The response to a write. -/
def W.answerWr (x : W × Option St) : W := { x.1 with resp := { err := x.2 } }

/-- A word written to a register by a requester (00 R8, R9; 01 R26). -/
def W.cmdWrite (w : W) (r : Req) (a : Nat) (v : Word) : W :=
  if w.diked r.who 0 then W.answerWr (w, some .dikeClosed) else W.answerWr (w.regWrite r a v)

/-- A word read from a register by a requester, where the test of its kind holds. -/
def W.cmdRead (w : W) (r : Req) (a : Nat) (fits : Bool) : W :=
  if !fits then w
  else if w.diked r.who 0 then { w with resp := { err := some .dikeClosed } }
  else
    match w.regRead a with
    | (w, .ok v) => { w with resp := { data := v, bytes := leBytes 4 v.toNat } }
    | (w, .error e) => { w with resp := { err := some e } }

/-- Whether a read of `a` clears what it reads (00 R9). -/
def clearsAt (a : Nat) : Bool :=
  decide (regKind a = .rclr) || decide (a = 0x40050208) || (decide (0x40021000 ≤ a) && decide (a < 0x40021C10))

/-! ### Matrix transactions -/

/-- The requesters of the matrix that a command may name. -/
def Who.legal : Who → Bool
  | .eng e => decide (e < 192)
  | .cul c => decide (c < 28)
  | _ => true

/-- A master issues a burst (10 R395, R397, R399, R400; 15 R597). A polder bridge and the keepers' port forward only
the addresses of R325 outside their own memories (10 R394). -/
def W.mtxRequest (w : W) (r : Req) (a len : Nat) (data : Option (List Byte)) : W :=
  if !r.who.legal ∨ len = 0 ∨ 2048 < len ∨ (a < 0x10000000 ∧ !r.who.onMatrix) ∨ (data.any fun b => decide (b.length ≠ len)) ∨ w.diked r.who 0 then w
  else
    let x : MtxTxn := { who := r.who, master := r.who.master, ring := r.ring, addr := a, len := len, write := data }
    match r.who.map a with
    | .none => W.answerWr (if r.who.onMatrix then w.defaultErr r a data.isSome else w, some .busError)
    | .annex _ =>
      if w.annex.st = 2 ∧ len % 4 = 0 ∧ len ≤ 32 ∧ a % 4 = 0 then
        let t := w.annex.tag
        w.setAnx { w.annex with reqs := w.annex.reqs ++ [(t, x)], tag := (t + 1) % 256 }
      else W.answerWr (w, some .busError)
    | _ => { w with mtx := w.mtx ++ [x] }

/-- MTX_WEIGHT of a master (10 R408). -/
def Dev.mtxWeight (d : Dev) (m : Nat) : Nat := wf (d.stg (0x40050100 + 4 * (m / 8))) (4 * (m % 8) + 3) (4 * (m % 8))

/-- The master that target `t` serves next (10 R395): the one whose portion is passing; else the one served last while
its portions in a row are fewer than its weight; else the next by ID that has a portion pending. Before anything was
served the order starts at ID 0: DESIGN CHOICE, notes/assumptions/60. -/
def Dev.mtxNext (d : Dev) (t : Nat) : Option Nat :=
  let here := d.mtx.filter fun x => decide (mtxTarget x.addr = t)
  let pend (m : Nat) : Bool := here.any fun x => decide (x.master = m)
  match here.find? fun x => decide (x.beats % 8 ≠ 0) with
  | some x => some x.master
  | none =>
    match tfind d.arb t with
    | some (m, n) =>
      if pend m && decide (n < d.mtxWeight m) then some m
      else ((upTo 58).map fun i => (m + 1 + i) % 58).find? pend
    | none => (upTo 58).find? pend

/-- Target `t` grants a portion of master `m`: how many it has granted it in a row (10 R395). -/
def W.mtxGrant (w : W) (t m : Nat) : W :=
  let n := match tfind w.arb t with
    | some (l, n) => if l = m ∧ n < w.mtxWeight m then n + 1 else 1
    | none => 1
  { w with arb := tset w.arb t (m, n) }

/-- Bytes of a transaction pass: read from the target, or written to it; a read over PCIe brings the host's bytes, or
the error of a UR or CA completion (15 R587). -/
def W.mtxPass (w : W) (x : MtxTxn) (off n : Nat) (host : List Byte) (refused : Bool) : W × Except St (List Byte) :=
  let r : Req := { who := x.who, ring := x.ring }
  match x.write, mtxMap x.addr with
  | none, .pcie _ => (w, if refused then .error .busError else .ok ((upTo n).map fun i => host.getD i 0))
  | none, _ => w.busRd r (x.addr + off) n
  | some bs, _ =>
    match w.busWr r (x.addr + off) ((bs.drop off).take n) with
    | (w, some e) => (w, .error e)
    | (w, none) => (w, .ok [])

/-- Up to `beats` beats of the present portion of a master's oldest transaction to a target pass, once the target has
granted it; the last beat completes the transaction, and an error ends it (10 R395, R397, R402; notes/assumptions/60). -/
def W.mtxResponse (w : W) (master target beats : Nat) (host : List Byte) (refused : Bool) : W :=
  let mine : MtxTxn → Bool := fun x => decide (x.master = master) && decide (mtxTarget x.addr = target)
  match takeFirst mine w.mtx with
  | none => w
  | some (x, rest) =>
    if (target ≤ 32 ∧ w.mtxNext target ≠ some master) ∨ (target = 33 ∧ x.write.isNone ∧ w.pcie.width = 0) then w
    else
      let w := if x.beats % 8 = 0 then w.mtxGrant target master else w
      let off := 32 * x.beats
      let k := min (max beats 1) (8 - x.beats % 8)
      let n := min (32 * k) (x.len - off)
      let (w, r) := w.mtxPass x off n host refused
      match r with
      | .error e => { w with mtx := rest, resp := { err := some e } }
      | .ok bs =>
        if off + n < x.len then
          { w with mtx := mapFirst mine (fun x => { x with beats := x.beats + k, got := x.got ++ bs }) w.mtx }
        else if x.write.isSome then W.answerWr ({ w with mtx := rest }, none)
        else W.answer ({ w with mtx := rest }, .ok (x.got ++ bs))

/-- A read over PCIe has no completion within 50 ms (15 R587, R589). -/
def W.outTimeout (w : W) : W :=
  match takeFirst (fun x => x.write.isNone && decide (mtxTarget x.addr = 33)) w.mtx with
  | none => w
  | some (_, rest) => W.raiseNow { w with mtx := rest, resp := { err := some .busError } } 0x542 0

/-! ### PCIe inbound -/

/-- An inbound access by words of the register hub, in ascending order until one fails. -/
def W.hubWords (w : W) (r : Req) (a : Nat) : List Word → W × Option St
  | [] => (w, none)
  | v :: vs =>
    match w.regWrite r a v with
    | (w, some e) => (w, some e)
    | (w, none) => w.hubWords r (a + 4) vs

/-- Registers read word by word. -/
def W.hubRead (w : W) (r : Req) (a : Nat) : Nat → W × Except St (List Byte)
  | 0 => (w, .ok [])
  | n + 1 =>
    match w.regRead a with
    | (w, .error e) => (w, .error e)
    | (w, .ok v) =>
      match w.hubRead r (a + 4) n with
      | (w, .ok bs) => (w, .ok (leBytes 4 v.toNat ++ bs))
      | (w, .error e) => (w, .error e)

/-- The words of little-endian bytes. -/
def wordsOf : Nat → List Byte → List Word
  | 0, _ => []
  | n + 1, bs => w32 (leNat (bs.take 4)) :: wordsOf n (bs.drop 4)

/-- An INBOUND_ERROR record: 1 UR, 2 poisoned (15 R589). -/
def W.inboundErr (w : W) (k : Nat) : W := W.raiseNow { w with resp := { err := some .busError } } 0x541 k

/-- The host reads or writes through a BAR (15 R585, R586, R589): BAR0 the register hub, BAR2 the reservoir.
`poisoned` and `correctable` are what the link reports with the packet. -/
def W.pcieInbound (w : W) (bar off len : Nat) (data : Option (List Byte)) (poisoned correctable : Bool) : W :=
  if w.pcie.width = 0 then w
  else
    let r : Req := { who := .pcie, ring := wf (w.stg pcieReg) 1 0 }
    let w := if correctable then w.raiseNow 0x543 0 else w
    let size := if bar = 0 then 0x2000000 else 0x1000000
    if poisoned then w.inboundErr 2
    else if (bar ≠ 0 ∧ bar ≠ 2) ∨ size < off + len ∨ len = 0 ∨ (data.any fun b => decide (b.length ≠ len)) then w.inboundErr 1
    else if bar = 2 then
      match data with
      | none => W.answer (w.busRd r (0x10000000 + off) len)
      | some bs => W.answerWr (w.busWr r (0x10000000 + off) bs)
    else if off % 4 ≠ 0 ∨ len % 4 ≠ 0 then W.answerWr (w, some .busError)
    else
      match data with
      | none => W.answer (w.hubRead r (0x40000000 + off) (len / 4))
      | some bs => W.answerWr (w.hubWords r (0x40000000 + off) (wordsOf (len / 4) bs))

/-! ### Debug access port -/

/-- An access through the DAP register (17 R647, R648): only while DAPACC is selected, and with ERR = 1 while the
port is closed or disabled. -/
def W.dapAccess (w : W) (a : Nat) (v : Option Word) : W :=
  if w.tap.ir ≠ TapOp.dapacc.code then w
  else if !w.dapIsOpen then { w with tap := { w.tap with err := true, data := 0 } }
  else
    let r : Req := { who := .dap, ring := 0 }
    match v with
    | none =>
      if a % 4 ≠ 0 then { w with tap := { w.tap with err := true, data := 0 } }
      else
        match w.busRd r a 4 with
        | (w, .ok bs) => { w with tap := { w.tap with err := false, data := w32 (leNat bs) } }
        | (w, .error _) => { w with tap := { w.tap with err := true, data := 0 } }
    | some x =>
      if a % 4 ≠ 0 then { w with tap := { w.tap with err := true, data := 0 } }
      else
        match w.busWr r a (leBytes 4 x.toNat) with
        | (w, none) => { w with tap := { w.tap with err := false, data := 0 } }
        | (w, some _) => { w with tap := { w.tap with err := true, data := 0 } }

end Sys2Proof.Machine
end

