-- ==== Sys2Proof/Machine/Units.lean ====
section
/-! DEFINITION. The triggers of the units that compute: ALU0, ALU1, AGU, MUL, DIV, SIMD, DEC, CRV, SEQ,
NET and EVQ. A trigger captures the operation's code, operands and registers and computes what the operation
will deliver (02 R43 to R46; 04 R131, R166); OPERATION_RESULT delivers it. -/

namespace Sys2Proof.Machine

/-- The register holds of a list of registers (02 R52; 04 R131). -/
def W.regHolds (w : W) (k : Nat) (rs : List RegId) : List Hold := rs.flatMap fun r => w.regHold k (w.th k).shadow r

/-- The D registers of a quad. -/
def quadRegs (q : Nat) : List RegId := (upTo 4).map fun i => (0, 4 * q + i)

/-- The entry that a STEP selects: its address, if the operands lie in range (05 R191, R194). -/
def stepAddr (r : TabRef) (o t : Word) : Option Nat :=
  let st := wf o 7 0
  let cl := wf t 5 0
  if r.n1 ≤ st ∨ r.n2 ≤ cl then none else some (r.addr.toNat + 0x20 + 8 * (st * r.n2 + cl))

/-- The registers that an operation reads at its trigger (04 R131). -/
def W.opReads (w : W) (k : Nat) (op : UOp) (o t : Word) : List RegId :=
  match op with
  | .alu op pd => if op.readsPd then [(3, pd)] else []
  | .agu op ar ab => (1, ar) :: if op = .amod then [(1, ab)] else []
  | .simd op _ qa qb _ => (if op.usesQa then quadRegs qa else []) ++ (if op.usesQb then quadRegs qb else [])
  | .dec op pd => if op.usesPd then [(3, pd)] else []
  | .seqStep sl _ =>
    match ((w.en (k / 4)).slot (16 + sl)).live.bind fun r => stepAddr r o t with
    | some a => [(3, leNat (w.rdN (physOf (k / 4) a) 4) / 256 % 8)]
    | none => []
  | .lsu op dr ar _ =>
    (1, ar) :: (if op = .std then [(0, dr), (0, dr + 1)] else if op = .acas then [(0, dr)] else [])
  | .net .send _ q => quadRegs q
  | .evq .ring dr _ => [(0, dr)]
  | .ctl .gate _ => [(0, 0), (0, 1), (0, 2), (0, 3), (1, 15)]
  | .ctl .retg _ => [(1, 15)]
  | .ctl .retx _ => [(1, 15)]
  | _ => []

/-- The entries of a thread's store buffer in use: buffered stores and atomics under way (04 R155; 06 R237). -/
def Thread.sbUsed (x : Thread) : Nat := x.sbuf.length + (x.accs.filter (·.op.isAtomic)).length

/-- Whether a unit cannot accept an operation now (02 R51; 04 R132, R134, R155; 06 R237; 10 R374). -/
def W.unitBusy (w : W) (k : Nat) (u : UnitId) (op : UOp) : List Hold :=
  let x := w.th k
  match op with
  | .div _ => if (upTo 4).any fun t => (w.th (4 * (k / 4) + t)).ops.any fun o => decide (o.unit = 4) then [(2, 4)] else []
  | .net .send _ _ => if 8 ≤ (tget [] w.net.sluice (k / 4)).length then [(2, 12)] else []
  | .lsu op _ _ _ =>
    if op.isAtomic then (if x.sbUsed = 0 then [] else [(6, u.num)])
    else if op.isStore && decide (8 ≤ x.sbUsed) then [(6, u.num)] else []
  | _ => []

/-- What holds a trigger (06 R230). -/
def W.opHolds (w : W) (k : Nat) (u : UnitId) (op : UOp) (o t : Word) : List Hold :=
  w.regHolds k (w.opReads k op o t) ++ w.unitBusy k u op

/-- The O socket of a unit in the bank that runs. -/
def W.oSock (w : W) (k : Nat) (u : UnitId) : Word := (w.th k).dstSock (w.th k).shadow (4 * u.num + 1)

/-- Whether PRECISE holds the thread until an operation that may trap completes (04 R168). -/
def Thread.preciseHold (x : Thread) (op : UOp) : Bool :=
  x.precise && match op with
  | .alu op _ => op.canOv && x.ovt
  | .div sg => x.dzt || (sg && x.ovt)
  | .simd op _ _ _ _ => op.isMac && x.ovt
  | .dec op _ => (op == .b2d) && x.ovt
  | _ => false

/-- An ALU trigger (04 R135, R137, R138). `u` is 0 or 1. -/
def W.aluStart (w : W) (k u : Nat) (op : AluOp) (pd : Nat) (o t pc : Word) : W :=
  let x := w.th k
  let r := aluEval op o t (decide (pd ≠ 0) && x.getP x.shadow pd)
  w.launchOp k { unit := u, seq := 0, pc := pc, shadow := false, srcs := [(48 + u, r.r)]
                 preds := if op.usesPd && decide (pd ≠ 0) then [(pd, r.c)] else []
                 ov := op.canOv && r.ov, hold := x.preciseHold (.alu op pd) }

/-- An AGU trigger (04 R139, R140). -/
def W.aguStart (w : W) (k : Nat) (op : AguOp) (ar ab : Nat) (o t pc : Word) : W :=
  let x := w.th k
  let a := x.getA x.shadow ar
  let r := match op with
    | .lea | .aadd => a + t
    | .amod => amod (x.getA x.shadow ab) a o t
  w.launchOp k { unit := 2, seq := 0, pc := pc, shadow := false, srcs := [(50, r)]
                 as := if op = .lea then [] else [(ar, r)] }

/-- A MUL trigger (04 R141, R142). -/
def W.mulStart (w : W) (k : Nat) (op : MulOp) (sh : Nat) (o t pc : Word) : W :=
  let r := mulEval op sh o t
  w.launchOp k { unit := 3, seq := 0, pc := pc, shadow := false, srcs := [(51, r.1), (52, r.2)] }

/-- A DIV trigger (04 R143, R144). -/
def W.divStart (w : W) (k : Nat) (signed : Bool) (o t pc : Word) : W :=
  let r := if signed then divs o t else divu o t
  w.launchOp k { unit := 4, seq := 0, pc := pc, shadow := false, srcs := [(53, r.q), (54, r.rm)], ov := r.ov
                 dz := r.dz, hold := (w.th k).preciseHold (.div signed) }

/-- The four words of a quad, as register writes. -/
def quadWrites (qd v : Nat) : List (Nat × Word) := (upTo 4).map fun i => (4 * qd + i, w32 (v / 2 ^ (32 * i)))

/-- A SIMD trigger: packs and unpacks from the quads at once, the accumulator's part in trigger order
(04 R145 to R148). -/
def W.simdStart (w : W) (k : Nat) (op : SimdOp) (xa qa qb qd : Nat) (t pc : Word) : W :=
  let x := w.th k
  let a := if op.usesQa then x.quad x.shadow qa else 0
  let b := if op.usesQb then x.quad x.shadow qb else 0
  let base : Op := { unit := 5, seq := 0, pc := pc, shadow := false, hold := x.preciseHold (.simd op xa qa qb qd) }
  w.launchOp k (if op.usesXa then { base with simd := some { op := op, xa := xa, qd := qd, qa := a, qb := b, t := t } }
    else { base with ds := quadWrites qd (packEval op a b) })

/-- A DEC trigger (04 R149, R150). -/
def W.decStart (w : W) (k : Nat) (op : DecOp) (pd : Nat) (o t pc : Word) : W :=
  let x := w.th k
  let r := decEval op o t (decide (pd ≠ 0) && x.getP x.shadow pd)
  w.launchOp k { unit := 6, seq := 0, pc := pc, shadow := false, srcs := [(56, r.r)]
                 preds := if op.usesPd && decide (pd ≠ 0) then [(pd, r.c)] else []
                 ov := r.ov, bi := r.bi, hold := x.preciseHold (.dec op pd) }

/-- The lines of a table that an operation holds (05 R205). -/
def tabLines (e : Nat) (r : TabRef) : Option (Nat × Nat) := some (physOf e r.addr.toNat, r.len)

/-- An EVAL on curve slot `cs` (05 R184 to R189): the segment comes from the index, its record from memory. -/
def W.evalStart (w : W) (k cs : Nat) (t pc : Word) : W :=
  let e := k / 4
  match ((w.en e).slot cs).live with
  | none => w.illegalOp k 7 pc
  | some r =>
    let base := physOf e r.addr.toNat
    let xs (s : Nat) : Nat := (w.rdW (base + 0x40 + 32 * s)).toNat
    let x := t.toNat % r.span
    let s := findSeg xs x r.n1
    let wd := (if s + 1 < r.n1 then xs (s + 1) else r.span) - xs s
    let op : Op := { unit := 7, seq := 0, pc := pc, shadow := false, tbl := tabLines e r }
    match w.rdMem (.eng e) (base + 0x40 + 32 * s) 32 with
    | (w, .error st) => w.launchOp k { op with err := some (st, r.addr + w32 (0x40 + 32 * s)) }
    | (w, .ok bs) =>
      let v := evalSeg (segAt (List.replicate 0x40 0 ++ bs) 0) wd (x - xs s)
      let w := if v.sat then w.bump (tblReg e + 0x44) else w
      w.launchOp k { op with srcs := [(57, v.p), (58, v.v), (59, v.a)] }

/-- A BEAT of group `bg` (05 R204 to R206). The keepers have no slots. -/
def W.beatStart (w : W) (k bg : Nat) (t pc : Word) : W :=
  let (w, p, v) := w.doBeat (k / 4) bg t
  w.launchOp k { unit := 7, seq := 0, pc := pc, shadow := false, srcs := [(57, p), (58, v), (59, 0)] }

/-- A STEP on sequence slot `sl` (05 R193 to R195). -/
def W.stepStart (w : W) (k sl pd : Nat) (o t pc : Word) : W :=
  let e := k / 4
  match ((w.en e).slot (16 + sl)).live with
  | none => w.illegalOp k 8 pc
  | some r =>
    let x := w.th k
    let st := wf o 7 0
    let op : Op := { unit := 8, seq := 0, pc := pc, shadow := false, tbl := tabLines e r }
    let done (w : W) (v : Nat) (taken : Bool) (aw : List (Nat × Word)) : W :=
      w.launchOp k { op with srcs := (60, w32 v) :: aw, preds := if pd ≠ 0 then [(pd, taken)] else [] }
    match stepAddr r o t with
    | none => done (w.bump (tblReg e + 0x48)) (st + 2 ^ 10) false []
    | some a =>
      match w.rdMem (.eng e) (physOf e a) 8 with
      | (w, .error s) => w.launchOp k { op with err := some (s, w32 a) }
      | (w, .ok bs) =>
        let lo := wdAt bs 0
        if !lo.testBit 31 then done (w.bump (tblReg e + 0x48)) (st + 2 ^ 9) false []
        else if x.getP x.shadow (fld lo 10 8) == lo.testBit 11 then done w st false []
        else done w (fld lo 7 0 + 2 ^ 8) true [(102, w32 (wdAt bs 4))]

/-- A TBLA (05 R193). -/
def W.tblaStart (w : W) (k sl kd : Nat) (pc : Word) : W :=
  let a := match ((w.en (k / 4)).slot (16 * kd + sl)).live with | some r => r.addr | none => 0
  w.launchOp k { unit := 8, seq := 0, pc := pc, shadow := false, srcs := [(60, a)] }

/-- A SEND: the quad enters the engine's send sluice and moves on while there is room (10 R369, R373). -/
def W.sendStart (w : W) (k ch q : Nat) (t : Word) : W :=
  let x := w.th k
  let f : Flit := { data := x.quad x.shadow q, last := wbit t 0 }
  let s := tget [] w.net.sluice (k / 4)
  W.drainSluice { w with net := { w.net with sluice := tset w.net.sluice (k / 4) (s ++ [(ch, f)]) } } (k / 4) 9

/-- A RECV takes the next flit of its channel, now or when one comes (10 R373, R374). -/
def W.recvStart (w : W) (k ch pd : Nat) (pc : Word) : W :=
  let op : Op := { unit := 12, seq := 0, pc := pc, shadow := false, every := true }
  let waits := (upTo 4).any fun t => (w.th (4 * (k / 4) + t)).ops.any fun o => decide (o.recv.map (·.1) = some ch)
  match (if waits then none else w.popFlit (k / 4) ch) with
  | some (f, w) => w.launchOp k { op with srcs := flitSrcs f, preds := [(pd, f.last)] }
  | none => w.launchOp k { op with recv := some (ch, pd) }

/-- An RPOLL: whether the channel holds a complete message (10 R373). -/
def W.rpollStart (w : W) (k ch pd : Nat) (pc : Word) : W :=
  let (node, c) := engChan (k / 4) ch
  let b := (tget [] w.net.rx (32 * node + c)).any (·.last)
  w.launchOp k { unit := 12, seq := 0, pc := pc, shadow := false, preds := [(pd, b)] }

/-- An RSKIP: the message at the head of the channel, if it is complete, is discarded (10 R373). -/
def W.rskipStart (w : W) (k ch : Nat) : W :=
  let (node, c) := engChan (k / 4) ch
  let q := tget [] w.net.rx (32 * node + c)
  match q.findIdx? (·.last) with
  | some i => { w with net := { w.net with rx := tset w.net.rx (32 * node + c) (q.drop (i + 1)) } }
  | none => w

/-- The sources that a taken record fills (12 R441, R455). -/
def evSrcs (r : EvRec) : List (Nat × Word) :=
  [(103, r.words.getD 0 0), (104, r.words.getD 1 0), (105, r.words.getD 2 0), (106, r.words.getD 3 0)]

/-- A TAKE, or a WAIT that finds a record: the oldest record leaves the queue (12 R455, R456); the thread's
watchdog is kicked (14 R540). -/
def W.takeStart (w : W) (k pd : Nat) (pc : Word) : W :=
  let x := w.th k
  let op : Op := { unit := 13, seq := 0, pc := pc, shadow := false, every := true }
  match x.evq with
  | r :: q => ((w.setTh k { x with evq := q }).launchOp k { op with srcs := evSrcs r, preds := [(pd, true)] }).wdKick k
  | [] => (w.launchOp k { op with preds := [(pd, false)] }).wdKick k

/-- A WAIT with a timeout, 0 for none: a thread whose queue is empty becomes WAITING, and the predicate is taken from
older operations (02 R52; 12 R456). -/
def W.waitStart (w : W) (k pd : Nat) (t pc : Word) : W :=
  let x := w.th k
  if x.evq.isEmpty then
    w.setTh k { x.claim x.shadow (3, pd) with
      run := .waiting
      wait := some { deadline := if t = 0 then none else some (w.now + t.toNat), pd := pd, shadow := x.shadow } }
  else w.takeStart k pd pc

/-- A POLL (12 R455). -/
def W.pollStart (w : W) (k pd : Nat) (pc : Word) : W :=
  (w.launchOp k { unit := 13, seq := 0, pc := pc, shadow := false, preds := [(pd, !(w.th k).evq.isEmpty)] }).wdKick k

/-- A RING: a doorbell record with a register's payload (12 R455, R458). -/
def W.ringStart (w : W) (k dr : Nat) (t : Word) : W :=
  let x := w.th k
  (w.raiseNow (0x640 + wf t 7 0) (x.getD x.shadow dr).toNat).wdKick k

/-- A WAIT in progress completes: with the oldest record, or as a timeout (12 R456; 14 R540). Only a
WAITING thread becomes READY. -/
def W.waitEnd (w : W) (k : Nat) (timeout : Bool) : W :=
  let x := w.th k
  match x.wait with
  | none => w
  | some s =>
    let go : Thread := { x with wait := none, run := if x.run = .waiting then .ready else x.run }
    match (if timeout then [] else x.evq) with
    | r :: q =>
      let y := (evSrcs r).foldl (fun y c => y.setSrc s.shadow c.1 c.2) { go with evq := q }
      (w.setTh k (y.setP s.shadow s.pd true)).wdKick k
    | [] => if timeout then (w.setTh k (go.setP s.shadow s.pd false)).wdKick k else w

/-- A WAIT's deadline passes with no record (12 R456). -/
def W.waitTimeout (w : W) (k : Nat) : W :=
  let x := w.th k
  match x.wait with
  | some { deadline := some d, .. } => if x.evq.isEmpty then (w.toTime d).waitEnd k true else w
  | _ => w

/-- The trigger of a computing unit: O is the operand socket (02 R43, R44). LSU and CTL operations have
their own. -/
def W.startOp (w : W) (k : Nat) (u : UnitId) (op : UOp) (t pc : Word) : W :=
  let o := w.oSock k u
  match op with
  | .alu op pd => w.aluStart k u.num op pd o t pc
  | .agu op ar ab => w.aguStart k op ar ab o t pc
  | .mul op sh => w.mulStart k op sh o t pc
  | .div sg => w.divStart k sg o t pc
  | .simd op xa qa qb qd => w.simdStart k op xa qa qb qd t pc
  | .dec op pd => w.decStart k op pd o t pc
  | .eval cs => w.evalStart k cs t pc
  | .beat bg => w.beatStart k bg t pc
  | .seqStep sl pd => w.stepStart k sl pd o t pc
  | .tbla sl kd => w.tblaStart k sl kd pc
  | .net .send ch q => w.sendStart k ch q t
  | .net .recv ch pd => w.recvStart k ch pd pc
  | .net .rpoll ch pd => w.rpollStart k ch pd pc
  | .net .rskip ch _ => w.rskipStart k ch
  | .evq .take _ pd => w.takeStart k pd pc
  | .evq .wait _ pd => w.waitStart k pd t pc
  | .evq .poll _ pd => w.pollStart k pd pc
  | .evq .ring dr _ => w.ringStart k dr t
  | .lsu _ _ _ _ => w
  | .ctl _ _ => w

end Sys2Proof.Machine
end

