-- ==== Sys2Proof/Machine/Lsu.lean ====
section
/-! DEFINITION. Protection windows (08 R278 to R281), the load/store units (04 R151 to R157), the store
buffer (06 R237 to R241), and the write-back of corrected doubles (09 R337). -/

namespace Sys2Proof.Machine

/-- A counter of a thread's engine advances; the keepers have none (06 R248; 08 R319). -/
def W.bumpOf (w : W) (k a : Nat) (n : Nat := 1) : W := if k < 768 then w.bump a n else w

/-! ### Windows -/

/-- The access kinds as the bits of RNG_BASE: 1 read, 2 write, 4 fetch (08 R320). -/
def kindR : Nat := 1
def kindW : Nat := 2
def kindX : Nat := 4

/-- The window `i` of a ring in a set of ring registers: base, limit and grants (08 R278, R280, R319). -/
def winOf (g : Tbl Word) (r i : Nat) : Nat × Nat × Nat :=
  let o := 0x20 * (r - 1) + 8 * i
  let b := (tget 0 g o).toNat
  (b / 64 * 64, (tget 0 g (o + 4)).toNat / 64 * 64, b % 8)

/-- The windows of a ring that grant a kind, as (base, limit) pairs. -/
def winsFor (g : Tbl Word) (r kind : Nat) : List (Nat × Nat) :=
  ((upTo 4).filter fun i => decide ((winOf g r i).2.2 / kind % 2 = 1)).map fun i => ((winOf g r i).1, (winOf g r i).2.1)

/-- How far the bytes from `a` on are covered without a gap. -/
def coverFrom : Nat → List (Nat × Nat) → Nat → Nat
  | 0, _, a => a
  | n + 1, ws, a =>
    match ws.find? fun c => decide (c.1 ≤ a) && decide (a < c.2) with
    | some c => coverFrom n ws c.2
    | none => a

/-- Whether the windows of a ring together grant a kind for every byte of a range; ring 0 has no windows
(08 R278, R279). -/
def grantsIn (g : Tbl Word) (r kind a n : Nat) : Bool :=
  decide (r = 0) || decide (n = 0) || decide (a + n ≤ coverFrom 5 (winsFor g r kind) a)

/-- Whether engine `e` grants a ring a kind of access to a range of addresses. -/
def W.grants (w : W) (e r kind a n : Nat) : Bool := grantsIn (w.en e).ringLive r kind a n

/-- The protection detail of an LSU operation (08 R294), if its ring is refused (08 R279). -/
def W.lsuRefused (w : W) (e r : Nat) (op : LsuOp) (ea : Word) : Option Nat :=
  let g (kind : Nat) : Bool := w.grants e r kind ea.toNat op.size
  if op.isAtomic then (if g kindR && g kindW then none else some 3)
  else if op.isStore then (if g kindW then none else some 2)
  else if g kindR then none else some 1

/-! ### Triggers -/

/-- The youngest entry of a store buffer that meets a range (06 R239). -/
def youngest (b : List Store) (a n : Nat) : Option Store := b.reverse.find? fun s => meet a n s.ea.toNat s.size

/-- The youngest atomic under way that meets a range: it holds an entry too (06 R237). -/
def youngestAtomic (l : List Acc) (a n : Nat) : Option Acc :=
  (l.filter (·.op.isAtomic)).reverse.find? fun c => meet a n c.ea.toNat c.op.size

/-- What a load takes from the entries of a thread: forwarded data, or the entry it must wait for; an atomic has no data
to forward (06 R239; 04 R155). -/
def Thread.sbLook (x : Thread) (ea : Word) (n : Nat) : Option Nat × Option Nat :=
  let a := ea.toNat
  match youngest x.sbuf a n, youngestAtomic x.accs a n with
  | none, none => (none, none)
  | none, some c => (none, some c.seq)
  | some s, c =>
    let o := a - s.ea.toNat
    if (c.any fun c => decide (s.seq < c.seq)) then (none, c.map (·.seq))
    else if s.ea.toNat ≤ a ∧ a + n ≤ s.ea.toNat + s.size ∧ ¬(0x40000000 ≤ a ∧ a < 0x42000000) then
      (some (s.data / 2 ^ (8 * o) % 2 ^ (8 * n)), none)
    else (none, some s.id)

/-- What a store carries: O's low bytes, or a register pair (04 R151). -/
def storeData (x : Thread) (op : LsuOp) (dr : Nat) (o : Word) : Nat :=
  match op with
  | .stb => o.toNat % 2 ^ 8
  | .sth => o.toNat % 2 ^ 16
  | .std => (x.getD x.shadow dr).toNat + 2 ^ 32 * (x.getD x.shadow (dr + 1)).toNat
  | _ => o.toNat

/-- A store enters the store buffer (06 R237). -/
def Thread.buffer (x : Thread) (lsu : Nat) (ea : Word) (size data : Nat) (pc : Word) : Thread :=
  { x with
    seq := x.seq + 1
    sbuf := x.sbuf ++ [{ id := x.seq, seq := x.seq, pc := pc, shadow := x.shadow, ring := x.ring, lsu := lsu
                         ea := ea, size := size, data := data, origin := x.charged }] }

/-- A load or atomic starts; a pair load takes its registers from older writes (04 R151, R153, R155). -/
def Thread.startAcc (x : Thread) (a : Acc) : Thread :=
  let y := a.writes.foldl (fun y r => y.claim y.shadow r) x
  { y with
    seq := x.seq + 1
    accs := y.accs ++ [{ a with seq := x.seq, shadow := x.shadow, ring := x.ring, origin := x.charged }] }

/-- Base update of an access with U = 1 (04 R152). -/
def W.baseUpdate (w : W) (k lsu ar : Nat) (u : Bool) (ea pc : Word) : W :=
  if u then w.launchOp k { unit := 9 + lsu, seq := 0, pc := pc, shadow := false, as := [(ar, ea)] } else w

/-- A trigger of LSU0 or LSU1 (04 R151 to R156): alignment first, then the windows of the ring. -/
def W.lsuStart (w : W) (k lsu : Nat) (op : LsuOp) (dr ar : Nat) (u : Bool) (o t pc : Word) : W :=
  let x := w.th k
  let ea := x.getA x.shadow ar + t
  if ea.toNat % op.size ≠ 0 then w.fault k 7 op.size ea
  else
    match w.lsuRefused (k / 4) x.ring op ea with
    | some d => w.fault k 6 d ea
    | none =>
      let w := if !op.isStore && w.checked k && farAway (k / 4) op ea then w.deviate k 5 (9 + lsu) pc else w
      let w := w.baseUpdate k lsu ar u ea pc
      if op.isStore then w.modTh k fun y => y.buffer lsu ea op.size (storeData x op dr o) pc
      else
        let s := if op.isAtomic then (none, (w.th k).sbuf.getLast?.map (·.id)) else (w.th k).sbLook ea op.size
        let w := if s.1.isSome then w.bumpOf k (sntReg (k / 4) + 0x50) else w
        w.modTh k fun y => y.startAcc
          { op := op, lsu := lsu, seq := 0, pc := pc, shadow := false, ring := 0, ea := ea
            o := if op.isAtomic then o else 0, new := if op = .acas then x.getD x.shadow dr else 0
            dr := dr, fwd := s.1, after := s.2 }

/-- Both LSUs of one bundle stored to one double of the engine's own data or instruction memory: the collision counts
(04 R154; 09 R331, R333). `n` is how many entries the buffer held before the bundle. -/
def W.storeCollision (w : W) (k n : Nat) : W :=
  match (w.th k).sbuf.drop n with
  | [a, b] =>
    if decide (a.ea.toNat / 8 = b.ea.toNat / 8) && ownSmall (k / 4) (physOf (k / 4) a.ea.toNat) then w.bump (edmReg (k / 4))
    else w
  | _ => w

/-! ### Responses and drains -/

/-- A load or atomic writes its result in the bank that triggered it (04 R151, R153; 06 R231). -/
def Thread.landAcc (x : Thread) (a : Acc) (v : Nat) : Thread :=
  let x := x.setSrc a.shadow (61 + a.lsu) (a.op.extend v)
  if a.op = .ldd then
    let x := if a.keep.1 then x.setD a.shadow a.dr (w32 v) else x
    if a.keep.2 then x.setD a.shadow (a.dr + 1) (w32 (v / 2 ^ 32)) else x
  else x

/-- The data or the error that an access meets at its target. -/
def W.access (w : W) (k : Nat) (a : Acc) : W × Except St Nat :=
  let r := engReq (k / 4) a.ring
  match a.fwd with
  | some v => (w, .ok v)
  | none =>
    if a.op.isAtomic then
      match w.busAtomic r a.ea.toNat a.op a.o a.new with
      | (w, .ok v) => (w, .ok v.toNat)
      | (w, .error e) => (w, .error e)
    else
      match w.busRd r a.ea.toNat a.op.size with
      | (w, .ok bs) => (w, .ok (leNat bs))
      | (w, .error e) => (w, .error e)

/-- Bits of the double at a physical address are upset: 1 one bit, 2 two bits (09 R337, R338;
notes/assumptions/20). Upsets never heal a double. -/
def W.upsetAt (w : W) (pa n : Nat) : W := if w.eccOf pa < n ∧ n ≤ 2 then w.setEcc pa n else w

/-- An upset of the double that an access of a requester reads, where it reads memory. -/
def W.upset (w : W) (who : Who) (a n : Nat) : W :=
  match who.phys a with
  | some pa => w.upsetAt pa n
  | none => w

/-- The target of an access, by which accesses and drains keep their order (06 R238, R240; 10 R397): 64 for the engine's
own instruction memory, 65 for its data memory, 66 for its pool, else the matrix target. -/
def accTarget (e : Nat) (ea : Word) : Nat :=
  let a := ea.toNat
  if a < 0x8000 then 64
  else if a < 0x20000 then 65
  else match engMap e a with
    | .none => 67
    | _ => if a < 0x10000000 then 66 else mtxTarget a

/-- The address in memory of an access, 2^40 where it leads to none. -/
def accPhys (e : Nat) (ea : Word) : Nat := physOf e ea.toNat

/-- Access `i` of a thread, counted from the oldest, gets its response (04 R153, R157; 06 R219, R239): accesses to one
target answer in their order. It waits for the entry that it partly overlaps, an atomic for a store of its own bundle, and
each attempt while it waits counts as one cycle (notes/assumptions/26). `lost` is how many cycles it lost in arbitration;
`up` says what upset the double that it reads (notes/assumptions/20). -/
def W.loadResponse (w : W) (k i up lost : Nat) : W :=
  let x := w.th k
  match x.accs[i]? with
  | none => w
  | some a =>
    let e := k / 4
    if (x.accs.take i).any fun b => decide (accTarget e b.ea = accTarget e a.ea) then w
    else if x.entryIn a then
      let w := if a.op.isAtomic then w else w.bumpOf k (sntReg e + 0x54)
      let w := w.modTh k fun x => { x with accs := x.accs.modify i fun a => { a with froze := !a.op.isAtomic } }
      if w.checked k then
        let c := if a.op.isAtomic then 6 else 4
        w.deviate k c (9 + a.lsu) a.pc 1 true ((w.th k).excs.any fun q => q.waits && decide (q.vec = 12 ∧ q.detail = c))
      else w
    else if w.frozen e && !a.op.isAtomic then w
    else
      let rest := x.accs.eraseIdx i
      let w := if a.fwd.isNone then w.upset (engReq e a.ring).who a.ea.toNat up else w
      let w := if a.fwd.isNone && !farAway e a.op a.ea then w.bankLoss k (9 + a.lsu) a.pc (accPhys e a.ea) lost else w
      match w.access k a with
      | (w, .ok v) => w.modTh k fun x => ({ x with accs := rest } : Thread).landAcc a v
      | (w, .error e) => (w.modTh k fun x => { x with accs := rest }).busErr k e a.ea a.seq a.shadow a.origin

/-- Entry `i` of a thread's store buffer drains, the oldest of its target, after the thread's older accesses to that
target (06 R238, R240, R241; 04 R154, R157; notes/assumptions/15). `lost` is how many cycles it lost in arbitration,
`clash` that another port wrote the same double in its cycle (09 R330, R331). -/
def W.storeDrain (w : W) (k i lost : Nat) (clash : Bool) : W :=
  let x := w.th k
  let e := k / 4
  match x.sbuf[i]? with
  | none => w
  | some s =>
    let t := accTarget e s.ea
    if (x.sbuf.take i).any (fun b => decide (accTarget e b.ea = t)) ||
        x.accs.any (fun a => decide (a.seq < s.seq) && decide (accTarget e a.ea = t)) then w
    else
      let w := w.modTh k fun x => { x with sbuf := x.sbuf.eraseIdx i }
      let own := ownSmall e (accPhys e s.ea)
      let w := if own && decide (lost ≠ 0) then w.bump (edmReg e + 4) lost else w
      let w := if own && clash then w.bump (edmReg e) else w
      match w.busWr (engReq e s.ring) s.ea.toNat (leBytes s.size s.data) with
      | (w, none) => w
      | (w, some st) => w.busErr k st s.ea s.seq s.shadow s.origin

/-- Every entry of a thread's store buffer drains, with the accesses before them: what the hardware's own
accesses for the thread wait for (notes/assumptions/15). -/
def W.runDown : Nat → W → Nat → W
  | 0, w, _ => w
  | n + 1, w, k =>
    let x := w.th k
    match x.accs, x.sbuf with
    | _, [] => w
    | [], _ :: _ => W.runDown n (w.storeDrain k 0 0 false) k
    | a :: _, s :: _ =>
      W.runDown n (if a.seq < s.seq then w.loadResponse k 0 0 0 else w.storeDrain k 0 0 false) k

/-- A thread's store buffer drains. -/
def W.drained (w : W) (k : Nat) : W := W.runDown ((w.th k).accs.length + (w.th k).sbuf.length + 1) w k

/-- The memory writes a corrected double back: double `i` of the list of physical doubles
(09 R337). -/
def W.eccWriteback (w : W) (pa : Nat) : W :=
  if w.wb.contains (pa / 8) then
    let w := { w with wb := w.wb.filter fun x => x != pa / 8 }
    if w.eccOf pa = 1 then w.setEcc pa 0 else w
  else w

end Sys2Proof.Machine
end

