-- ==== Sys2Proof/Machine/Fetch.lean ====
section
/-! DEFINITION. Instruction fetch through the line buffers (03 R94, R95; 06 R223, R242, R243; 09 R340) and
the decoding of move-mode bundles (03 R95 to R109, R113). -/

namespace Sys2Proof.Machine

/-! ### Lines -/

/-- A double of a line as a fetch reads it: its two words, or nothing where it cannot be corrected. -/
def W.lineDouble (w : W) (e pa : Nat) : W × List (Option Word) :=
  match w.rdPiece (if e = 192 then .keeper else .eng e) pa 8 with
  | (w, .ok bs) => (w, [some (w32 (leNat (bs.take 4))), some (w32 (leNat (bs.drop 4)))])
  | (w, .error _) => (w, [none, none])

/-- A line read of engine `e`'s instruction memory, or the error of the memory. -/
def W.lineRead (w : W) (e a : Nat) : W × Except St Line :=
  let pa := imemBase e + a
  match w.accErr (if e = 192 then .keeper else .eng e) pa false with
  | some st => (w, .error st)
  | none =>
    let (w, ws) := (upTo 8).foldl (fun (c : W × List (Option Word)) i =>
      let (w, l) := c.1.lineDouble e (pa + 8 * i)
      (w, c.2 ++ l)) (w, [])
    (w, .ok { addr := a, words := ws })

/-- The line that a thread's buffers hold for an address. -/
def Thread.line (x : Thread) (a : Nat) : Option Line :=
  let q := a / 64 * 64
  match x.lineS with
  | some l => if l.addr = q then some l else x.lineT.filter fun l => decide (l.addr = q)
  | none => x.lineT.filter fun l => decide (l.addr = q)

/-- Whether an address lies in instruction memory (03 R94). -/
def inImem (a : Nat) : Bool := decide (a < 0x8000)

/-- The line that a thread executes from at an address, read into the sequential buffer when no buffer holds
it (06 R242; notes/assumptions/14). -/
def W.fetchLine (w : W) (k a : Nat) : W × Except St Line :=
  match (w.th k).line a with
  | some l => (w, .ok l)
  | none =>
    match w.lineRead (k / 4) (a / 64 * 64) with
    | (w, .ok l) => (w.modTh k fun x => { x with lineS := some l }, .ok l)
    | (w, .error e) => (w, .error e)

/-- A branch reads its target line into the target buffer (06 R223); a line that cannot be read is read
again when it is needed. -/
def W.fillTarget (w : W) (k a : Nat) : W :=
  if !inImem a then w
  else
    match (w.th k).line a with
    | some _ => w
    | none =>
      match w.lineRead (k / 4) (a / 64 * 64) with
      | (w, .ok l) => w.modTh k fun x => { x with lineT := some l }
      | (w, .error _) => w

/-- IFLUSH: the named line leaves the buffers of all four threads (04 R163; 06 R243). -/
def W.flushLine (w : W) (e : Nat) (a : Word) : W :=
  let q := a.toNat / 64 * 64
  let gone (l : Option Line) : Option Line := l.filter fun l => decide (l.addr ≠ q)
  (upTo 4).foldl (fun w t => w.modTh (tkey e t) fun x => { x with lineS := gone x.lineS, lineT := gone x.lineT }) w

/-- The word that a thread would fetch at an address, without the fetch: what decides the width of a bundle
ahead. DESIGN CHOICE (notes/assumptions/46): a word that cannot be read counts as 0, a short bundle. -/
def W.peekWord (w : W) (k a : Nat) : Word :=
  match (w.th k).line a with
  | some l => ((l.words.getD (a % 64 / 4) none).getD 0)
  | none => w.rdW (imemBase (k / 4) + a % 0x8000)

/-- The width in bytes of the bundle or instruction ahead (03 R86, R95, R123). -/
def W.widthAt (w : W) (k a : Nat) (stk : Bool) : Nat :=
  let v := w.peekWord k (a / 4 * 4)
  if stk then (if wf v (16 * (a / 2 % 2) + 15) (16 * (a / 2 % 2)) = 0x1000 then 6 else 2)
  else
    match (w.th k).front.head? with
    | some z => if z.addr.toNat = a then 4 * z.words.length else if wbit v 0 then 16 else 4
    | none => if wbit v 0 then 16 else 4

/-! ### Bundles -/

/-- The source of a move: a source socket, or a constant in the move (03 R104). -/
inductive Src where
  | id (n : Nat) | imm (v : Word)
  deriving DecidableEq, Repr

/-- A move: its guard, source and destination; `unit` is the unit page (02 R38). -/
structure Move where
  pred : Nat
  inv : Bool
  src : Src
  unit : Bool
  dst : Nat
  deriving DecidableEq, Repr

/-- A bundle of moves, in bus order, with its immediate fields. -/
structure Bundle where
  long : Bool
  moves : List Move
  imm : Nat := 0
  limm : Word := 0
  deriving DecidableEq, Repr

/-- What the words at a PC hold: a REP prefix (its FORM and COUNT), a bundle of moves, or neither. -/
inductive Dec where
  | rep (form : Bool) (count : Nat)
  | moves (b : Bundle)
  | bad
  deriving DecidableEq, Repr

/-- The source ID of a short source code (03 R113). -/
def shortSrc (c : Nat) : Nat :=
  if c < 32 then c else if c < 48 then c + 16 else if c < 56 then c - 8
  else [64, 65, 80, 66, 68, 72, 100, 101].getD (c - 56) 0

/-- A short move (03 R99); an empty slot is none (R109). -/
def shortMove (m : Nat) (unit : Bool) : Option Move :=
  if fld m 14 12 = 4 then none
  else some { pred := fld m 13 12, inv := m.testBit 14, src := .id (shortSrc (fld m 11 6)), unit := unit, dst := fld m 5 0 }

/-- A long move (03 R103, R104); an empty slot is none (R109). -/
def longMove (m : Nat) (unit : Bool) : Option Move :=
  if fld m 16 13 = 8 then none
  else some { pred := fld m 15 13, inv := m.testBit 16, unit := unit, dst := fld m 5 0
              src := if m.testBit 17 then .imm (w32i (sgn 7 (fld m 12 6))) else .id (fld m 12 6) }

/-- A short bundle or a REP prefix (03 R98 to R101). -/
def decodeShort (w : Nat) : Dec :=
  if w.testBit 31 then
    if fld w 30 14 ≠ 0 ∨ (fld w 1 1 = 0 ∧ fld w 13 2 ≠ 0) then .bad else .rep (w.testBit 1) (fld w 13 2)
  else
    .moves { long := false, moves := [shortMove (fld w 15 1) true, shortMove (fld w 30 16) false].filterMap id }

/-- A long bundle, from its 128 bits (03 R102 to R107). -/
def decodeLong (n : Nat) : Dec :=
  let slot (i : Nat) : Nat := fld n (21 + 18 * i) (4 + 18 * i)
  let page (i : Nat) : Bool := n.testBit (1 + i / 2)
  let marked := fld (slot 5) 17 13 = 0x18
  let ms := ((upTo (if marked then 4 else 6)).filterMap fun i => longMove (slot i) (page i))
  if marked then
    if fld (slot 5) 12 0 ≠ 0 ∨ fld (slot 4) 17 16 ≠ 0 ∨ page 4 then .bad
    else .moves { long := true, moves := ms, imm := fld n 127 112, limm := w32 (fld (slot 4) 15 0 * 2 ^ 16 + fld n 127 112) }
  else if ms.any fun m => m.src == .id 99 then .bad
  else .moves { long := true, moves := ms, imm := fld n 127 112 }

/-- The bundle of a list of words: one word, or four (03 R95). -/
def decodeWords (ws : List Word) : Dec :=
  match ws with
  | [w] => decodeShort w.toNat
  | _ => decodeLong (joinN 32 (ws.map (·.toNat)))

/-- The words of the bundle at a PC, from its line: none where a word is not readable; a long bundle that
leaves its line has one word too few (03 R95, R96; 09 R340). -/
def bundleWords (l : Line) (a : Nat) : Option (List Word) :=
  let i := a % 64 / 4
  match l.words.getD i none with
  | none => none
  | some w =>
    if wbit w 0 then ((l.words.drop i).take 4).foldr (fun x acc => match x, acc with | some v, some r => some (v :: r) | _, _ => none) (some [])
    else some [w]

/-- A bundle's structure: its words decoded, or malformed where it crosses its line (03 R96, R97). -/
def decodeBundle (a : Nat) (ws : List Word) : Dec :=
  if ws.length ≠ 1 ∧ 12 < a % 64 / 4 then .bad
  else if ws.length = 1 ∧ wbit (ws.headD 0) 0 then .bad
  else decodeWords ws

end Sys2Proof.Machine
end

