-- ==== Sys2Proof/Machine/Front.lean ====
section
/-! DEFINITION. The front end of a thread: the bundles that it holds in the stages before TR, captured as they enter BD,
and the target lines that BD requests (06 R213, R217, R221, R223, R242, R243; notes/assumptions/14 and 44). -/

namespace Sys2Proof.Machine

/-! ### What BD sees of a bundle -/

/-- One number for a destination socket: 0 to 55 the register page, 64 to 119 the unit page, 120 to 127 the annex
block, whose meaning has no page (02 R39). -/
def dstKey (unit : Bool) (n : Nat) : Nat := if unit ∨ 56 ≤ n then 64 + n else n

/-- CTL.OP and the trigger of CTL, as destination numbers. -/
def ctlOp : Nat := 108
def ctlT : Nat := 110

/-- The operation that a code in CTL.OP names. -/
def ctlOf (code : Word) : Option (CtlOp × Nat) :=
  match decodeOp .ctl code with
  | some (.ctl op f) => some (op, f)
  | _ => none

/-- The value of a source that no operation changes: a constant or an immediate (03 R105, R106, R111). -/
def constSrc (imm : Nat) (limm : Word) (s : Nat) : Option Word :=
  if s < 64 then none
  else if s < 80 then some (w32 (s - 64))
  else if s < 88 then some (w32i (-((s - 79 : Nat) : Int)))
  else if s < 96 then some ([16, 32, 64, 256, 1024, 0x0000FFFF, 0x7FFFFFFF, 0x80000000].getD (s - 88) 0)
  else if s = 96 then some (w32i (sgn 16 imm))
  else if s = 97 then some (w32 imm)
  else if s = 98 then some (w32 (imm * 2 ^ 16))
  else if s = 99 then some limm
  else none

/-- The constant that a move carries, if its source is one. -/
def Bundle.constOf (b : Bundle) (m : Move) : Option Word :=
  match m.src with
  | .imm v => some v
  | .id s => constSrc b.imm b.limm s

/-- The moves of a bundle to a destination. -/
def Bundle.movesTo (b : Bundle) (n : Nat) : List Move := b.moves.filter fun m => decide (dstKey m.unit m.dst = n)

/-- CTL.OP as BD sees it for a bundle: the constant that the bundle moves there, or the socket (notes/assumptions/44). -/
def Thread.bdCode (x : Thread) (b : Bundle) : Word :=
  match (b.movesTo ctlOp).getLast?.bind b.constOf with
  | some v => v
  | none => x.dstSock x.shadow 44

/-- The target of a CBR in the bundle at an address (04 R158). -/
def cbrTarget (a : Word) (imm : Nat) : Word := a + w32i (sgn 16 imm * 4)

/-- The target of the branch in the bundle at an address, where BD can tell it, and the prediction (04 R158; 06 R221,
R223). -/
def Thread.bdTarget (x : Thread) (a : Word) (b : Bundle) : Option (Word × Bool) :=
  match b.movesTo ctlT, ctlOf (x.bdCode b) with
  | m :: _, some (.br, f) => (b.constOf m).map fun t => (t, decide (f = 1))
  | m :: _, some (.jl, f) => (b.constOf m).map fun t => (t, decide (f = 1))
  | m :: _, some (.enterS, _) => (b.constOf m).map fun t => (t, false)
  | _ :: _, some (.cbr _, f) => some (cbrTarget a b.imm, decide (f = 1))
  | _, _ => none

/-! ### Capture -/

/-- Where the fetch of a thread goes on: behind the youngest bundle that it holds, else at the PC. -/
def Thread.fetchAt (x : Thread) : Word := match x.front.getLast? with | some z => z.next | none => x.pc

/-- Whether the fetch of a thread waits for a branch into stack mode to be taken (02 R91). -/
def Thread.fetchEnds (x : Thread) : Bool := !x.front.isEmpty && (x.br.any fun b => b.stk)

/-- The address that fetch goes on at behind a bundle of `size` bytes at `a`: the target that BD steered to for the
branch before it, the continuation of a branch that has resolved, or the next bundle (06 R223). -/
def Thread.nextAfter (x : Thread) (a : Word) (size : Nat) : Word :=
  let seq := a + w32 size
  match x.front.getLast? with
  | some y => y.steer.getD seq
  | none => match x.br with | some b => b.tgt.getD seq | none => seq

/-- The next bundle enters BD: its line is filled if no buffer holds it, its words are captured, and the target line of a
branch is requested. A bundle that cannot be read is not captured. -/
def W.captureOne (w : W) (k : Nat) : Option W :=
  let x := w.th k
  let a := x.fetchAt
  if x.fetchEnds || !inImem a.toNat || decide (a.toNat % 4 ≠ 0) then none
  else
    match w.fetchLine k a.toNat with
    | (_, .error _) => none
    | (w, .ok l) =>
      match bundleWords l a.toNat with
      | none => none
      | some ws =>
        let t := match decodeBundle a.toNat ws with | .moves b => x.bdTarget a b | _ => none
        let z : Ahead := { addr := a, words := ws, next := x.nextAfter a (4 * ws.length)
                           steer := match t with | some (t, true) => some t | _ => none }
        let w := w.modTh k fun x => { x with front := x.front ++ [z] }
        some (match t with | some (t, _) => w.fillTarget k t.toNat | none => w)

/-- Bundles are captured until the stages BD to TR hold `n` more of them. -/
def W.capture : Nat → W → Nat → W
  | 0, w, _ => w
  | n + 1, w, k => match w.captureOne k with | some w => W.capture n w k | none => w

/-- IF2 reads the line of the bundle behind the youngest one that BD holds (06 R213, R242). -/
def W.if2Fill (w : W) (k : Nat) : W :=
  let x := w.th k
  if x.front.isEmpty || x.fetchEnds || !inImem x.fetchAt.toNat then w
  else
    match w.fetchLine k x.fetchAt.toNat with
    | (w, .ok _) => w
    | (_, .error _) => w

/-- The bundles of a thread move forward until TR, RD, GR and BD hold one each and IF2 has its line; what does not start
at the PC is discarded (06 R217). -/
def W.fillFront (w : W) (k : Nat) : W :=
  let w := w.modTh k fun x => if x.front.head?.any fun z => decide (z.addr ≠ x.pc) then { x with front := [] } else x
  (W.capture (4 - (w.th k).front.length) w k).if2Fill k

/-- The bundles that a thread holds after its PC moved to `pc`. -/
def frontFrom (l : List Ahead) (pc : Word) : List Ahead := l.dropWhile fun z => decide (z.addr ≠ pc)

/-- The bundles kept when a branch resolves: those behind its delay slot are discarded unless they are on the path taken
(06 R223). `tgt` is the target of a taken branch. -/
def resolveFront (l : List Ahead) (tgt : Option Word) : List Ahead :=
  match l with
  | [] => []
  | s :: r =>
    let go := tgt.getD (s.addr + w32 (4 * s.words.length))
    if r.head?.any fun z => decide (z.addr = go) then s :: r else [{ s with next := go }]

/-- IFLUSH for the issuing thread: the line leaves all buffers, the thread's bundles are discarded and fetched anew; other
threads keep what they hold (06 R243). -/
def W.iflush (w : W) (k : Nat) (a : Word) : W :=
  let w := (w.flushLine (k / 4) a).modTh k fun x => { x with front := [] }
  if (w.th k).stk then w else w.fillFront k

end Sys2Proof.Machine
end

