-- ==== Sys2Proof/Machine/Ctl.lean ====
section
/-! DEFINITION. The CTL unit: branches, control registers, threads, gates, the return from exceptions,
IFLUSH and the fences (02 R61 to R70, R81 to R83, R91; 04 R158 to R163; 08 R283 to R310, R318, R683). -/

namespace Sys2Proof.Machine

/-! ### Branches -/

/-- The two bubbles of a mispredicted branch pass when its thread issues again: they count unless another thread is
READY to issue in them, and those of the other threads have passed (04 R159; 06 R224, R248). -/
def W.bubbles (w : W) (k : Nat) : W :=
  let e := k / 4
  let w := if (w.th k).bub ≠ 1 then w
    else ((w.idle k 2).bumpIf (w.soleIssuer k) (sntReg e + 0x4C) 2).modTh k fun x => { x with bub := 0 }
  (upTo 4).foldl (fun w t =>
    if t ≠ k % 4 ∧ (w.th (tkey e t)).bub = 1 then w.modTh (tkey e t) fun x => { x with bub := 0 } else w) w

/-- A branch was predicted wrongly: its bubbles follow the next bundle (04 R159; 06 R223). -/
def Thread.mispredict (x : Thread) (wrong : Bool) : Thread := { x with bub := if wrong then 2 else x.bub }

/-- A branch resolves: its delay slot is pending, at whose end the thread continues at the target, in stack mode
if `stk`, or after the delay slot; a bad target faults and has no delay slot (02 R67, R69, R91; 03 R126; 08
R293). `align` is what the target must be a multiple of; `hint` the prediction (04 R159). -/
def W.branch (w : W) (k : Nat) (pc tgt : Word) (taken hint stk : Bool) (align : Nat) : W :=
  if taken && (decide (tgt.toNat % align ≠ 0) || !inImem tgt.toNat) then w.fault k 4 0 tgt
  else
    let w := w.fillTarget k tgt.toNat
    let go := if taken then some tgt else none
    let w := w.modTh k fun x =>
      { x.mispredict (taken != hint) with
        br := some { tgt := go, stk := if taken then stk else x.stk }, front := resolveFront x.front go }
    if taken then w.traceFlow k 1 pc.toNat tgt.toNat else w

/-- A branch whose trigger move has a false guard: it is not taken and has no delay slot, but its target line is read
and its prediction may have been wrong (02 R70; 04 R159; 06 R222, R223). -/
def W.branchOff (w : W) (k : Nat) (tgt : Word) (hint : Bool) : W :=
  (w.fillTarget k tgt.toNat).modTh k fun x => { x.mispredict hint with front := resolveFront x.front none }

/-- The address after the delay slot that begins at the thread's PC (02 R68). -/
def W.linkOf (w : W) (k : Nat) : Word :=
  let x := w.th k
  x.pc + w32 (w.widthAt k x.pc.toNat x.stk)

/-! ### Control registers and threads -/

/-- MFC: the value goes to CTL.R (02 R61, R62). `none` where the read faults. -/
def W.mfcValue (w : W) (k n : Nat) (pc : Word) : W × Option Word :=
  if !ctlExists n then (w.illegalOp k 11 pc, none)
  else if !ctlReadable n (w.th k).ring then (w.privFault k 1 pc, none)
  else (w, some (w.ctlRead k n pc))

/-- Whether an MTC faults: no such register, PC, or a ring that may not write it (02 R61, R62). -/
def W.mtcBad (w : W) (k n : Nat) : Bool := !ctlExists n || decide (n = 1) || !ctlWritable n (w.th k).ring

/-- MTC (02 R61 to R63, R66). -/
def W.mtc (w : W) (k n : Nat) (v pc : Word) : W :=
  if !ctlExists n ∨ n = 1 then w.illegalOp k 11 pc
  else if !ctlWritable n (w.th k).ring then w.privFault k 1 pc
  else w.ctlWrite k n (w.th k).ring v

/-- TSTART (02 R81, R83). -/
def W.tstart (w : W) (k : Nat) (o t pc : Word) : W :=
  let x := w.th k
  let n := wf o 1 0
  if 1 < x.ring then w.privFault k 2 pc
  else if (w.en (k / 4)).strict ∧ n ≠ 0 then w.illegalOp k 11 pc
  else w.startThread (tkey (k / 4) n) t x.ring

/-- TSTOP (02 R82, R83). -/
def W.tstop (w : W) (k : Nat) (t pc : Word) : W :=
  if 1 < (w.th k).ring then w.privFault k 2 pc else w.stopThread (tkey (k / 4) (wf t 1 0))

/-! ### Gates -/

/-- How a gate or a return fails: a detail code, or the error of an access and its address. -/
inductive GateErr where
  | arg (d : Nat)
  | bus (st : St) (a : Word)
  deriving DecidableEq, Repr

/-- Words that the hardware reads for a thread. -/
def W.hwRead (w : W) (k : Nat) (a : Word) (n : Nat) : W × Except GateErr (List Word) :=
  match w.busRd (engReq (k / 4) (w.th k).ring) a.toNat (4 * n) with
  | (w, .ok bs) => (w, .ok (wordsOf n bs))
  | (w, .error e) => (w, .error (.bus e a))

/-- Words that the hardware writes for a thread, double by double; what was reached before an error is
undefined (08 R683). -/
def W.hwWrite (w : W) (k : Nat) (a : Word) : List Word → W × Option (St × Word)
  | x :: y :: r =>
    match w.busWr (engReq (k / 4) (w.th k).ring) a.toNat (leBytes 4 x.toNat ++ leBytes 4 y.toNat) with
    | (w, some e) => (w, some (e, a))
    | (w, none) =>
      match w.hwWrite k (a + 8) r with
      | (w, none) => (w, none)
      | (w, some f) =>
        (match (engReq (k / 4) (w.th k).ring).who.phys a.toNat with
         | some pa => w.scramble ((upTo 8).map (pa + ·))
         | none => w, some f)
  | _ => (w, none)

/-- The check of argument `i` of a gate entry (08 R287). -/
def W.gateArg (w : W) (k : Nat) (ent : List Word) (i : Nat) : W × Except GateErr Unit :=
  let x := w.th k
  let e := k / 4
  let d (j : Nat) : Nat := (x.getD x.shadow j).toNat
  let ck := wf (ent.getD 1 0) (9 + 2 * i) (8 + 2 * i)
  if ck = 0 then (w, .ok ())
  else if ck = 1 then
    match w.hwRead k (tget 0 (w.en e).ringLive 0x68 + w32 (8 * wf (ent.getD 2 0) (8 * i + 7) (8 * i))) 2 with
    | (w, .error f) => (w, .error f)
    | (w, .ok r) =>
      if d i < (r.getD 0 0).toNat ∨ (r.getD 1 0).toNat < d i then (w, .error (.arg (0x10 + i))) else (w, .ok ())
  else
    let p := d i
    let n := d (i + 1)
    if n ≠ 0 ∧ (2 ^ 32 < p + n ∨ !w.grants e x.ring kindR p n ∨ (ck = 3 ∧ !w.grants e x.ring kindW p n)) then
      (w, .error (.arg (0x20 + i)))
    else (w, .ok ())

/-- The checks of a gate's arguments in order. -/
def W.gateArgs (w : W) (k : Nat) (ent : List Word) : List Nat → W × Except GateErr Unit
  | [] => (w, .ok ())
  | i :: r =>
    match w.gateArg k ent i with
    | (w, .ok _) => w.gateArgs k ent r
    | (w, .error f) => (w, .error f)

/-- GATE through gate `n` (08 R287): the frame is written, and the thread enters the target. The thread's PC is the
bundle after the gate. `rcLeft` counts the gate's own bundle too (R309). -/
def W.gateEnter (w : W) (k n : Nat) : W × Except GateErr Unit :=
  let x := w.th k
  let g := (w.en (k / 4)).ringLive
  if x.gtbase = 0 ∨ (tget 0 g 0x64).toNat ≤ n then (w, .error (.arg 1))
  else
    match w.hwRead k (tget 0 g 0x60 + w32 (16 * n)) 4 with
    | (w, .error f) => (w, .error f)
    | (w, .ok ent) =>
      let e1 := ent.getD 1 0
      if !wbit e1 31 then (w, .error (.arg 1))
      else if !wbit (ent.getD 3 0) x.ring then (w, .error (.arg 2))
      else
        match w.gateArgs k ent (upTo (min 4 (wf e1 4 2))) with
        | (w, .error f) => (w, .error f)
        | (w, .ok _) =>
          match w.hwRead k (tget 0 g 0x70 + w32 (4 * (4 * (k % 4) + wf e1 1 0))) 1 with
          | (w, .error f) => (w, .error f)
          | (w, .ok s) =>
            let sp := s.getD 0 0 - 16
            match w.hwWrite k sp [x.pc, x.getA x.shadow 15, x.ts (k % 4), w32 (0x4754 * 65536 + x.ring * 256 + n)] with
            | (w, some (st, a)) => (w, .error (.bus st a))
            | (w, none) =>
              (w.modTh k fun y => { y.setA y.shadow 15 sp with
                ring := wf e1 1 0, ie := y.ie && wbit (ent.getD 3 0) 8, pc := ent.getD 0 0, front := []
                rcLeft := 3, rcRing := x.ring }, .ok ())

/-- GATE: entered, or GATE_ARG, or the error of one of its accesses (08 R287, R319, R683). The thread's earlier
stores reach memory first (notes/assumptions/15). -/
def W.gate (w : W) (k n : Nat) (pc : Word) : W :=
  let b := rngReg (k / 4)
  match (w.drained k).gateEnter k n with
  | (w, .ok _) => w.bumpOf k (b + 0x108)
  | (w, .error (.arg d)) => (w.bumpOf k (b + 0x10C)).fault k 9 d pc
  | (w, .error (.bus st a)) => w.busFault k st a (w.th k).seq (w.th k).shadow

/-- The fields of TS that RETG takes from a frame (08 R290). -/
def Thread.retgTs (x : Thread) (ring : Nat) (c : Word) : Thread :=
  { x with
    ie := if ring ≤ 2 then wbit c 23 else x.ie
    precise := wbit c 24, ovt := wbit c 22, dzt := wbit c 21
    nest := if ring ≤ 1 then wbit c 25 else x.nest }

/-- RETG (08 R290). -/
def W.retg (w : W) (k : Nat) (pc : Word) : W :=
  let w := w.drained k
  let x := w.th k
  let sp := x.getA x.shadow 15
  if sp.toNat % 8 ≠ 0 ∨ !w.grants (k / 4) x.ring kindR sp.toNat 16 then w.privFault k 4 pc
  else
    match w.hwRead k sp 4 with
    | (w, .error (.bus st a)) => w.busFault k st a x.seq x.shadow
    | (w, .error (.arg _)) => w
    | (w, .ok f) =>
      let c := f.getD 2 0
      if wf (f.getD 3 0) 31 16 ≠ 0x4754 ∨ wf c 31 30 < x.ring then w.privFault k 4 pc
      else
        let w := w.modTh k fun y =>
          { (y.setA y.shadow 15 (f.getD 1 0)).retgTs x.ring c with
            ring := wf c 31 30, pc := f.getD 0 0, front := [], rcLeft := 3, rcRing := x.ring }
        w.traceFlow k 3 (f.getD 0 0).toNat 0

/-! ### Return from an exception -/

/-- A thread resumes from saved registers: in a repetition, as a delay slot, in stack mode with an empty cache
(08 R305, R306, R308), in the shadow of the ring change that the exception interrupted (08 R309, R310): `rcLeft` counts
the returning bundle too. `width` is the width of the bundle at SPC. -/
def Thread.resume (x : Thread) (spc sst srpt : Word) (width : Nat) : Thread :=
  let stk := wbit sst 26
  let rp := wbit sst 19
  let none' := rp && decide (srpt = 0)
  let u := x.under.headD {}
  { x with
    ring := wf sst 31 30, stk := stk, nest := wbit sst 25, precise := wbit sst 24, ie := wbit sst 23
    ovt := wbit sst 22, dzt := wbit sst 21, shadow := false, dfault := false, tos := []
    pc := if none' then spc + w32 width else spc
    rpt := if rp then srpt.toNat else 0
    latch := none
    br := if wbit sst 20 then some { tgt := some (w32 (wf sst 15 1 * 2)), stk := stk != u.flip } else none
    under := x.under.tail, front := [], bub := 0
    oneMore := true
    rcLeft := if u.rcLeft = 0 then 0 else u.rcLeft + 1, rcRing := u.rcRing }

/-- A return to saved registers, unless the saved ring is more privileged (08 R305, R318). -/
def W.resume (w : W) (k : Nat) (spc sst srpt pc : Word) (a15 : Option Word) : W :=
  let x := w.th k
  if wf sst 31 30 < x.ring then w.privFault k 3 pc
  else
    let x := match a15 with | some v => x.setA false 15 v | none => x
    let w := w.setTh k (x.resume spc sst srpt (w.widthAt k spc.toNat (wbit sst 26)))
    w.traceFlow k 3 spc.toNat 0

/-- RETX (08 R304, R305, R318). -/
def W.retx (w : W) (k : Nat) (pc : Word) : W :=
  let x := w.th k
  if x.shadow then (w.interrupted k 4 pc).resume k x.spc x.sst x.srpt pc none
  else if !x.nest then w.illegalOp k 11 pc
  else
    let w := w.drained k
    let sp := x.getA false 15
    if sp.toNat % 8 ≠ 0 ∨ !w.grants (k / 4) x.ring kindR sp.toNat 32 then w.privFault k 3 pc
    else
      match w.hwRead k sp 3 with
      | (w, .error (.bus st a)) => w.busFault k st a x.seq x.shadow
      | (w, .error (.arg _)) => w
      | (w, .ok f) => w.resume k (f.getD 0 0) (f.getD 1 0) (f.getD 2 0) pc (some (sp + 32))

/-! ### The unit -/

/-- Where a bundle or instruction that triggers CTL stands: its address, and the target of a CBR in it. -/
structure CtlCtx where
  pc : Word
  cbr : Word
  deriving DecidableEq, Repr

/-- An operation of CTL, after the PC of its bundle has moved on (04 R158). `f` is its code's field. -/
def W.ctlStart (w : W) (k : Nat) (c : CtlCtx) (op : CtlOp) (f : Nat) (o t : Word) : W :=
  let hint := decide (f = 1)
  match op with
  | .br => w.branch k c.pc t true hint false 4
  | .jl =>
    let w := w.modTh k fun x => { x with lk := w.linkOf k }
    w.branch k c.pc t true hint false 4
  | .cbr n => w.branch k c.pc c.cbr (cbrCond n o t) hint false 4
  | .enterS => w.branch k c.pc t true false true 2
  | .mfc =>
    match w.mfcValue k f c.pc with
    | (w, some v) => w.launchOp k { unit := 11, seq := 0, pc := c.pc, shadow := false, srcs := [(63, v)] }
    | (w, none) => w
  | .mtc => w.mtc k f t c.pc
  | .tstart => w.tstart k o t c.pc
  | .tstop => w.tstop k t c.pc
  | .gate => w.gate k f c.pc
  | .retg => w.retg k c.pc
  | .retx => w.retx k c.pc
  | .iflush => w.iflush k t
  | .syncM => w.modTh k fun x => { x with fence := some .mem }
  | .fenceA => w.modTh k fun x => { x with fence := some .arith }

/-- What a fence still waits for (04 R161, R162; 06 R230): the class and the unit. -/
def Thread.fenceHold (x : Thread) : List Hold :=
  match x.fence with
  | some .mem => if x.accs.isEmpty && x.sbuf.isEmpty then [] else [(6, 0x1F)]
  | some .arith => if x.ops.any fun o => [0, 1, 3, 4, 5, 6].contains o.unit then [(1, 0x1F)] else []
  | none => []

/-- What PRECISE holds the thread for (04 R168; 06 R230). -/
def Thread.preciseWait (x : Thread) : List Hold := (x.ops.filter (·.hold)).map fun o => (1, o.unit)

end Sys2Proof.Machine
end

