-- ==== Sys2Proof/Machine/Hv.lean ====
section
/-! DEFINITION. The hash-and-verify coprocessors (03 R114 to R119; 08 R279, R282). -/

namespace Sys2Proof.Machine

/-- The HV that serves a thread: its polder's, or the Terp's, number 24 (03 R114). -/
def hvOf (k : Nat) : Nat := k / 32

/-- The jobs of an HV, oldest first. -/
def Dev.hvJobs (d : Dev) (p : Nat) : List HvJob := tget [] d.hv p

/-- Whether a thread's job runs or waits (03 R119). DESIGN CHOICE (notes/assumptions/48): HV.ST shows a job that waits
behind others as it shows one that runs (03 R111). -/
def Dev.hvBusy (d : Dev) (k : Nat) : Bool := (d.hvJobs (hvOf k)).any fun j => decide (j.key = k)

/-- What holds a trigger of HV.T (03 R119). -/
def W.hvHold (w : W) (k : Nat) : List Hold := if w.hvBusy k then [(2, 0x10)] else []

/-- A trigger of HV.T: HV.O, destination 56, holds the address of the job block (03 R115, R116, R119). -/
def W.hvStart (w : W) (k cmd : Nat) (pc : Word) : W :=
  let x := w.th k
  if (w.en (k / 4)).strict ∨ cmd = 0 ∨ 3 < cmd then w.illegalOp k 14 pc
  else
    let j : HvJob := { key := k, shadow := x.shadow, ring := x.ring, cmd := cmd, block := x.dstSock x.shadow 56 }
    { w with hv := tset w.hv (hvOf k) (w.hvJobs (hvOf k) ++ [j]) }

/-- A read of a job: a refused range ends the job with ST_BUS_ERROR (08 R282). -/
def W.hvRd (w : W) (j : HvJob) (a n : Nat) : W × Except St (List Byte) :=
  if n = 0 then (w, .ok [])
  else if 2 ^ 32 < a + n ∨ !w.grants (j.key / 4) j.ring kindR a n then (w, .error .busError)
  else w.busRd (engReq (j.key / 4) j.ring) a n

/-- A write of a job. -/
def W.hvWr (w : W) (j : HvJob) (a : Nat) (bs : List Byte) : W × Option St :=
  if 2 ^ 32 < a + bs.length ∨ !w.grants (j.key / 4) j.ring kindW a bs.length then (w, some .busError)
  else w.busWr (engReq (j.key / 4) j.ring) a bs

/-- The code of an error that a read of a job meets (03 R118). -/
def hvCode (e : St) : St := if e = .eccUncorrectable then e else .busError

/-- The words of a job block, read one by one, as the LSUs read them (03 R115). -/
def W.hvBlock (w : W) (j : HvJob) (a : Nat) : Nat → W × Except St (List Byte)
  | 0 => (w, .ok [])
  | n + 1 =>
    match w.hvRd j a 4 with
    | (w, .error e) => (w, .error e)
    | (w, .ok x) =>
      match w.hvBlock j (a + 4) n with
      | (w, .ok r) => (w, .ok (x ++ r))
      | (w, .error e) => (w, .error e)

/-- HASH: the digest of the data goes to DIGEST_ADDR; any error of that write gives ST_BUS_ERROR (03 R116, R118). -/
def W.hvHash (w : W) (j : HvJob) (b : List Byte) : W × St :=
  match w.hvRd j (wdAt b 0) (wdAt b 4) with
  | (w, .error e) => (w, hvCode e)
  | (w, .ok m) =>
    match w.hvWr j (wdAt b 8) (sha256 m) with
    | (w, some _) => (w, .busError)
    | (w, none) => (w, .ok)

/-- VERIFY: the signature over the digest with the key (03 R116). -/
def W.hvVerify (w : W) (j : HvJob) (b : List Byte) : W × St :=
  match w.hvRd j (wdAt b 8) 32 with
  | (w, .error e) => (w, hvCode e)
  | (w, .ok dg) =>
    match w.hvRd j (wdAt b 12) 64 with
    | (w, .error e) => (w, hvCode e)
    | (w, .ok key) =>
      match w.hvRd j (wdAt b 16) 64 with
      | (w, .error e) => (w, hvCode e)
      | (w, .ok sig) => (w, if ecVerify key dg sig then .ok else .imageSignature)

/-- What a job does and how it ends (03 R115 to R118). A block that is not word-aligned is not read. DESIGN CHOICE
(notes/assumptions/49): the block, the data and the result are read and written in one moment, as the job completes. -/
def W.hvWork (w : W) (j : HvJob) : W × St :=
  if j.block.toNat % 4 ≠ 0 then (w, .busError)
  else
    match w.hvBlock j j.block.toNat 5 with
    | (w, .error e) => (w, hvCode e)
    | (w, .ok b) =>
      match j.cmd with
      | 1 => w.hvHash j b
      | 2 => w.hvVerify j b
      | _ =>
        match w.hvHash j b with
        | (w, .ok) => w.hvVerify j b
        | r => r

/-- The oldest job of an HV ends: HV.R of its thread takes the code, in the bank that triggered it
(03 R114, R118; 02 R77). -/
def W.hvComplete (w : W) (p : Nat) : W :=
  match w.hvJobs p with
  | [] => w
  | j :: r =>
    let (w, st) := W.hvWork { w with hv := tset w.hv p r } j
    w.modTh j.key fun x => x.setSrc j.shadow 112 (w32 st.code)

end Sys2Proof.Machine
end

