-- ==== Sys2Proof/Machine/Issue.lean ====
section
/-! DEFINITION. The issue of a move-mode bundle: guards, sources, writes and triggers in three phases, with
their waits and faults; and the REP prefix (02 R32 to R52, R59, R60, R70 to R75; 03 R97, R110 to R113, R119 to
R122; 06 R213 to R236). -/

namespace Sys2Proof.Machine

/-! ### Which exception is due -/

/-- Whether a pending synchronous exception can be taken now: a wait that it must follow has ended, it belongs to the
bank that runs, and no handler that it must wait for runs (04 R170, R171; 06 R236, R246; 08 R302). -/
def Thread.dueNow (x : Thread) (e : Exc) : Bool :=
  !e.waits && (!x.shadow || e.shadow) && decide (x.under.length ≤ e.lvl)

/-- The synchronous exception that comes first: a trap in completion order, or a fault in program order,
whichever bundle is older (04 R170; 06 R246; 08 R296, R302). -/
def Thread.firstSync (x : Thread) : Option Exc :=
  let c := x.excs.filter x.dueNow
  let fault := (c.filter fun e => !e.trap).foldl (fun m e =>
    match m with | some (b : Exc) => if e.seq < b.seq then some e else m | none => some e) none
  match c.find? (·.trap), fault with
  | some t, some f => if t.seq ≤ f.seq then some t else some f
  | some t, none => some t
  | none, f => f

/-- The asynchronous exception that a thread takes: WATCHDOG before EVENT (08 R296, R297, R305, R309;
12 R457). -/
def Thread.firstAsync (x : Thread) : Option Exc :=
  if !x.ie || x.shadow || decide (x.rcLeft ≠ 0) || x.oneMore then none
  else if x.wdPend then some { vec := 13 }
  else if x.evq.any (·.int) then some { vec := 14 }
  else none

/-- Whether an exception must be taken before the thread issues (06 R229; 08 R296). -/
def Thread.excDue (x : Thread) : Bool := x.excs.any x.dueNow || x.firstAsync.isSome

/-! ### Sockets of a bundle -/

/-- The value of a source of a bundle (02 R58; 03 R105, R106, R111, R121). -/
def W.srcVal (w : W) (k : Nat) (imm : Nat) (limm : Word) (s : Nat) : Word :=
  let x := w.th k
  if s < 32 then x.getD x.shadow s
  else if s < 48 then x.getA x.shadow (s - 32)
  else if s < 64 then x.srcSock x.shadow s
  else if s < 100 then (constSrc imm limm s).getD 0
  else if s = 100 then x.lk
  else if s = 101 then x.pw x.shadow
  else if s = 111 then w32 ((if k / 4 = 192 then 0xFE + b01 w.part.k1 else k / 4) * 256 + k % 4)
  else if s = 113 then w32 (b01 (w.hvBusy k))
  else if s = 114 then w.anxSt
  else if 116 ≤ s ∧ s % 2 = 1 ∧ w.annex.nres ((s - 116) / 2) = 1 then 0
  else x.srcSock x.shadow s

/-- Whether a source may be read (03 R112, R121). -/
def W.srcLegal (w : W) (s : Nat) : Bool :=
  s != 115 && (decide (s < 116) || w.uxHere ((s - 116) / 2))

/-- Whether a destination may be written (02 R39 to R41; 03 R110, R121). -/
def W.dstLegal (w : W) (unit : Bool) (n : Nat) : Bool :=
  if 58 ≤ n then w.uxHere (n - 58)
  else if 56 ≤ n then true
  else if unit then !(decide (n % 4 = 3 ∧ n ≠ 55) || decide (n = 53))
  else decide (n < 52)

/-- Trigger sockets of the units, in the order in which a bundle's triggers act (04 R154). -/
def trigOrder : List (Nat × UnitId) :=
  [(66, .alu0), (70, .alu1), (74, .agu), (78, .mul), (82, .div), (86, .simd), (90, .dec), (98, .seq), (94, .crv),
   (102, .lsu0), (106, .lsu1), (114, .net), (118, .evq)]

/-- The trigger of HV, and the first external unit, as destination numbers. -/
def hvT : Nat := 121
def ux0 : Nat := 122

/-- Whether a destination starts an operation (02 R34). -/
def isTrig (n : Nat) : Bool := trigOrder.any (fun c => decide (c.1 = n)) || decide (n = ctlT) || decide (hvT ≤ n)

/-- The registers that a write of a destination takes (02 R52). -/
def dstRegs (n : Nat) : List RegId :=
  if n < 32 then [(0, n)] else if n < 48 then [(1, n - 32)] else if n < 52 then [(2, n - 48)]
  else if n = 119 then (upTo 7).map fun i => (3, i + 1) else []

/-- A write of a destination that is no trigger (02 R40, R42, R57). -/
def W.writeDst (w : W) (k n : Nat) (v : Word) : W :=
  w.modTh k fun x =>
    let sh := x.shadow
    let x := (dstRegs n).foldl (fun x r => x.claim sh r) x
    if n < 32 then x.setD sh n v
    else if n < 48 then x.setA sh (n - 32) v
    else if n < 52 then x.setX (n - 48) v
    else if n = 119 then x.setPr sh v
    else x.setDst sh (n - 64) v

/-- The writes of a bundle by destination, a later bus over an earlier one, and whether two meet (02 R36). -/
def mergeWrites : List (Nat × Word) → Tbl Word → Bool → Tbl Word × Bool
  | [], t, c => (t, c)
  | (n, v) :: r, t, c => mergeWrites r (tset t n v) (c || (tfind t n).isSome)

/-! ### Waits -/

/-- Whether a thread runs in exposed-latency scheduling (02 R65, R92; 06 R230). -/
def W.exposedAt (w : W) (k : Nat) : Bool :=
  let e := w.en (k / 4)
  e.strict && e.exposed && !(w.th k).stk && decide (k % 4 = 0)

/-- The holds that make a bundle wait: in exposed-latency scheduling not those of class 1 (06 R230). -/
def blocking (exposed : Bool) (hs : List Hold) : List Hold := if exposed then hs.filter fun h => h.1 != 1 else hs

/-- Whether a trap of a sentinel class is pending for a wait that goes on: one wait raises one trap (06 R236). -/
def Thread.waitsFor (x : Thread) (c : Nat) : Bool := x.excs.any fun e => e.waits && decide (e.vec = 12 ∧ e.detail = c)

/-- A bundle that must wait: the thread is STALLED, and each class that holds it counts one cycle; a read of HV.R counts
once, and in the shadow bank the cycle counts as INTERRUPTED (06 R228, R230, R233; notes/assumptions/26). -/
def W.stall (w : W) (k : Nat) (pc : Word) (hs : List Hold) : W :=
  let hv := hs.any fun h => decide (h = (5, 0x10))
  let seen := (w.th k).hvSeen
  let w := w.idle k 1
  let w := if (w.th k).shadow then w.interrupted k 1 pc else w
  let w := if w.checked k then
      [1, 2, 4, 5, 6].foldl (fun w c =>
        match hs.find? fun h => decide (h.1 = c) && (decide (c ≠ 5) || (decide (h.2 = 0x10) && !seen)) with
        | some h => w.deviate k c h.2 pc 1 true ((w.th k).waitsFor c)
        | none => w) w
    else w
  w.modTh k fun x => { x with run := .stalled, hvSeen := x.hvSeen || hv }

/-- Whether a thread's engine lets it issue at all: it is in service, not halted, neither STOPPED nor WAITING, and
while STRICT = 1 it is t0, in a cycle that is not frozen (02 R85; 06 R219; 14 R543, R544; 17 R649). -/
def W.mayIssue (w : W) (k : Nat) : Bool :=
  let x := w.th k
  w.inService (k / 4) && decide (x.run ≠ .stopped) && decide (x.run ≠ .waiting) && !x.halted &&
  decide (k / 4 ≤ 192) && (decide (k % 4 = 0) || !(w.en (k / 4)).strict) && !(decide (k / 4 = 192) && w.flt.ksync) &&
  !w.frozen (k / 4)

/-! ### Phases -/

/-- How the issue of a bundle ends: it waits, it is an illegal bundle, which counts as started or not (02 R74, R75), or
it has executed. -/
inductive Issued where
  | wait (hs : List Hold)
  | illegal (started : Bool)
  | done (w : W)

/-- The value of a move. -/
def W.moveVal (w : W) (k : Nat) (b : Bundle) (m : Move) : Word :=
  match m.src with
  | .imm v => v
  | .id s => w.srcVal k b.imm b.limm s

/-- What holds the source of a move. -/
def W.moveHold (w : W) (k : Nat) (m : Move) : List Hold :=
  match m.src with
  | .imm _ => []
  | .id s => w.srcHold k s

/-- Whether the sockets of a move with a true guard exist (03 R97). -/
def W.moveLegal (w : W) (m : Move) : Bool :=
  w.dstLegal m.unit m.dst && (match m.src with | .imm _ => true | .id s => w.srcLegal s)

/-- Whether a CTL trigger is forbidden where it stands: a transfer in a delay slot or a repeated bundle, a CBR
in a short bundle (02 R70, R74; 03 R108). -/
def ctlForbidden (slot rep long : Bool) (op : CtlOp) : Bool :=
  (op.isTransfer && (slot || rep)) || (!long && match op with | .cbr _ => true | _ => false)

/-- CTL.OP as the triggers of a bundle see it. -/
def W.ctlCode (w : W) (k : Nat) (ws : Tbl Word) : Word :=
  (tfind ws ctlOp).getD ((w.th k).dstSock (w.th k).shadow 44)

/-- Whether CTL reads its trigger source early, so that it waits in every mode (06 R221). -/
def CtlOp.early (op : CtlOp) : Bool :=
  match op with
  | .br | .jl | .enterS | .iflush => true
  | _ => false

/-- What holds the triggers of a bundle whose writes `ws` are done (02 R51; 03 R119; 04 R131; 06 R230, R237): the stores
and atomics of both LSUs need an entry each. -/
def W.trigHolds (w : W) (k : Nat) (ws : Tbl Word) : List Hold :=
  let x := w.th k
  let op (u : UnitId) : Option UOp := decodeOp u (x.dstSock x.shadow (4 * u.num))
  (trigOrder.flatMap fun c =>
    match tfind ws c.1, op c.2 with
    | some t, some o => w.opHolds k c.2 o (w.oSock k c.2) t
    | _, _ => []) ++
  (let n := ([(102, UnitId.lsu0), (106, UnitId.lsu1)].filter fun c =>
      (tfind ws c.1).isSome && match op c.2 with | some (.lsu o _ _ _) => o.isStore || o.isAtomic | _ => false).length
   if 8 < x.sbUsed + n then [(6, if n = 2 ∧ x.sbUsed < 8 then 10 else 9)] else []) ++
  (match tfind ws ctlT, op .ctl with
   | some t, some o => w.opHolds k .ctl o (w.oSock k .ctl) t
   | _, _ => []) ++
  (if (tfind ws hvT).isSome then w.hvHold k else []) ++
  ((upTo 6).flatMap fun u => if (tfind ws (ux0 + u)).isSome && w.uxBusy k u then [(2, 0x18 + u)] else [])

/-- The trigger of a unit other than CTL; an operation code that names nothing faults (02 R45; 04 R130). -/
def W.fireUnit (w : W) (k : Nat) (u : UnitId) (t pc : Word) : W :=
  let x := w.th k
  match decodeOp u (x.dstSock x.shadow (4 * u.num)) with
  | none => w.illegalOp k u.num pc
  | some (.lsu op dr ar up) => w.lsuStart k (u.num - 9) op dr ar up (w.oSock k u) t pc
  | some op => w.startOp k u op t pc

/-- The trigger phase but CTL (02 R34, R46). -/
def W.fireAll (w : W) (k : Nat) (ws : Tbl Word) (pc : Word) : W :=
  let n := (w.th k).sbuf.length
  let w := trigOrder.foldl (fun w c => match tfind ws c.1 with | some t => w.fireUnit k c.2 t pc | none => w) w
  let w := w.storeCollision k n
  let w := match tfind ws hvT with | some t => w.hvStart k t.toNat pc | none => w
  (upTo 6).foldl (fun w u => match tfind ws (ux0 + u) with | some v => w.uxWrite k u v | none => w) w

/-- A read of an external unit's result after the link ended the operation faults (15 R596). -/
def W.uxErrors (w : W) (k : Nat) (ms : List Move) : W :=
  (upTo 6).foldl (fun w u =>
    let x := w.th k
    if ms.any (fun m => m.src == .id (116 + 2 * u) || m.src == .id (117 + 2 * u)) &&
        decide (x.srcSock x.shadow (200 + u) ≠ 0) then
      (w.modTh k fun x => x.setSrc x.shadow (200 + u) 0).busFault k .busError 0 x.seq x.shadow
    else w) w

/-- The reads that exposed-latency scheduling makes too early, each with its unit (06 R233). -/
def earlyReads (hs : List (List Hold)) : List Nat :=
  hs.filterMap fun l => (l.find? fun h => decide (h.1 = 1)).map (·.2)

/-- The CTL trigger of a bundle, after its PC has moved on. -/
def W.fireCtl (w : W) (k : Nat) (ws : Tbl Word) (pc : Word) (imm : Nat) : W :=
  match tfind ws ctlT with
  | none => w
  | some t =>
    match ctlOf ((w.th k).dstSock (w.th k).shadow 44) with
    | none => w.illegalOp k 11 pc
    | some (op, f) => w.ctlStart k { pc := pc, cbr := cbrTarget pc imm } op f (w.oSock k .ctl) t

/-- A branch in a bundle whose move to CTL.T has a false guard, after the PC has moved on (04 R159; 06 R222, R223). `c` is
what CTL.OP names. -/
def W.fireOff (w : W) (k : Nat) (b : Bundle) (ws : Tbl Word) (pc tgt : Word) (c : Option (CtlOp × Nat)) : W :=
  if (tfind ws ctlT).isSome ∨ (b.movesTo ctlT).isEmpty then w
  else
    match c with
    | some (.cbr _, f) => w.branchOff k (cbrTarget pc b.imm) (decide (f = 1))
    | some (.br, f) => w.branchOff k tgt (decide (f = 1))
    | some (.jl, f) => w.branchOff k tgt (decide (f = 1))
    | some (.enterS, _) => w.branchOff k tgt false
    | _ => w

/-- The PC after a bundle: the next iteration, the end of a delay slot, or the next bundle; a change of mode empties the
stack cache, and the front end goes on from the new PC (02 R67, R71, R91; 06 R217). The bubbles of a branch are due once the
bundle behind it has issued (06 R223). -/
def Thread.advance (x : Thread) (size : Nat) : Thread :=
  let x := { x with bub := min x.bub 1 }
  let nxt := x.pc + w32 size
  if 1 < x.rpt then { x with rpt := x.rpt - 1 }
  else
    let x := { x with rpt := 0, latch := none }
    match x.br with
    | some b =>
      let pc := b.tgt.getD nxt
      { x with pc := pc, stk := b.stk, br := none, tos := if b.stk == x.stk then x.tos else []
               front := if b.stk then [] else frontFrom x.front.tail pc }
    | none => { x with pc := nxt, front := frontFrom x.front.tail nxt }

/-- A thread takes the issue slot of its engine: the bubbles before it pass, and a change of the issuing thread counts
(02 R84; 06 R224, R248). -/
def W.takesSlot (w : W) (k : Nat) : W :=
  let e := k / 4
  let w := w.bubbles k
  let w := if (w.en e).last = k % 4 then w else w.bumpOf k (sntReg e + 0x48)
  w.modEn e fun x => { x with last := k % 4 }

/-- What every bundle that issues does beside its moves: the issue slot, the issue counter, the end of a step and of a
fence (06 R233, R248; 17 R649). -/
def W.issueStart (w : W) (k : Nat) : W :=
  ((w.takesSlot k).bumpOf k (sntReg (k / 4) + 0x40)).modTh k fun x => { x with run := .ready, oneMore := false, fence := none, hvSeen := false }

/-- The end of an issued bundle or instruction at `pc`: `shadow` is the bank it ran in, `retx` that it returned. -/
def W.issueEnd (w : W) (k : Nat) (pc : Word) (shadow retx : Bool) : W :=
  let w := if shadow && !retx then w.interrupted k 1 pc else w
  (w.modTh k fun x => { x with rcLeft := x.rcLeft - 1 }).stepped k

/-- The issue of a bundle of moves (02 R34 to R37; 06 R230, R232; 14 R538): `parity` says that the parity of a move with
a true guard is wrong, `rep` that the bundle is repeated. -/
def W.issueMoves (w : W) (k : Nat) (b : Bundle) (rep parity : Bool) : Issued :=
  let x := w.th k
  let pc := x.pc
  let ex := w.exposedAt k
  let gs := b.moves.map fun m => if m.pred = 0 then [] else w.regHold k x.shadow (3, m.pred)
  let act := b.moves.filter fun m => x.getP x.shadow m.pred != m.inv
  if !(blocking ex gs.flatten).isEmpty then .wait (blocking ex gs.flatten)
  else if act.any fun m => !w.moveLegal m then .illegal rep
  else
    let vs := act.map fun m => (dstKey m.unit m.dst, w.moveVal k b m)
    let (ws, dc) := mergeWrites vs [] false
    let named := ctlOf (w.ctlCode k ws)
    let ctl := if (tfind ws ctlT).isSome then named else none
    let hs := act.map (w.moveHold k)
    let early := match named with
      | some (op, _) => if op.early then (b.movesTo ctlT).flatMap (w.moveHold k) else []
      | none => []
    let wr := if ex then [] else act.flatMap fun m => (dstRegs (dstKey m.unit m.dst)).flatMap (w.writeHold k x.shadow)
    let all := blocking ex hs.flatten ++ wr ++ early
    if !all.isEmpty then .wait all
    else if (match ctl with | some (op, _) => ctlForbidden x.br.isSome rep b.long op | none => false) then .illegal false
    else
      let w1 := ws.foldl (fun w c => if isTrig c.1 then w else w.writeDst k c.1 c.2) w
      let th := blocking ex (w1.trigHolds k ws)
      if !th.isEmpty then .wait th
      else
        let size := if b.long then 16 else 4
        let w0 := w.issueStart k
        let w0 := if ex && w.checked k then (earlyReads (gs ++ hs)).foldl (fun w u => w.deviate k 0 u pc) w0 else w0
        if parity ∧ !act.isEmpty then
          .done (((w0.signal 0 (k / 4) pc.toNat).modTh k fun x => x.advance size).issueEnd k pc x.shadow false)
        else
          let w2 := ws.foldl (fun w c => if isTrig c.1 then w else w.writeDst k c.1 c.2) w0
          let w3 := (w2.uxErrors k act).fireAll k ws pc
          let w4 := w3.modTh k fun x => x.advance size
          let tgt := match b.movesTo ctlT with | m :: _ => w.moveVal k b m | [] => 0
          let w5 := (w4.fireCtl k ws pc b.imm).fireOff k b ws pc tgt named
          let w6 := if dc then w5.modTh k fun x => { x with dc := true } else w5
          .done (w6.issueEnd k pc x.shadow (match ctl with | some (.retx, _) => true | _ => false))

/-! ### The bundle at the PC -/

/-- The fault that the address of a bundle or instruction raises before it is fetched: its alignment and range
(03 R94), then the windows of its ring (08 R281). -/
def W.pcFault (w : W) (k align : Nat) : Option W :=
  let x := w.th k
  let a := x.pc.toNat
  if !inImem a ∨ a % align ≠ 0 then some (w.fault k 4 0 x.pc)
  else if !w.grants (k / 4) x.ring kindX a 1 then some (w.fault k 6 4 x.pc)
  else none

/-- The words of the bundle at the PC: latched, or held by the front end; a fetch that fails faults (06 R242; 09 R340,
R344). -/
def W.bundleAt (w : W) (k : Nat) : W × Option (List Word) :=
  let x := w.th k
  match x.latch with
  | some l => (w, some l)
  | none =>
    let w := w.fillFront k
    match (w.th k).front with
    | z :: _ => (if x.rpt = 0 then w else w.modTh k fun x => { x with latch := some z.words }, some z.words)
    | [] =>
      match w.fetchLine k x.pc.toNat with
      | (w, .error e) => (w.busFault k e x.pc x.seq x.shadow, none)
      | (w, .ok _) => (w.busFault k .eccUncorrectable x.pc x.seq x.shadow, none)

/-- Whether the bundle after a REP prefix breaks R74 when the prefix issues: it is a REP prefix, well-formed or not, or
it holds a move to CTL.T while CTL.OP holds a transfer (02 R74; 03 R100). -/
def repForbidden (a : Nat) (ws : List Word) (ctlop : Word) : Bool :=
  match decodeBundle a ws with
  | .rep _ _ => true
  | .moves b => !(b.movesTo ctlT).isEmpty && (match ctlOf ctlop with | some (op, _) => op.isTransfer | none => false)
  | .bad => match ws with | [v] => wbit v 31 && !wbit v 0 | _ => false

/-- A REP prefix issues: the count is latched, and the next bundle is skipped or repeated (02 R70 to R74;
06 R227). DESIGN CHOICE (notes/assumptions/45): where the next bundle cannot be read, a count of 0 skips no byte. -/
def W.issueRep (w : W) (k : Nat) (form : Bool) (count : Nat) : W :=
  let x := w.th k
  let nxt := x.pc + 4
  let ws := (x.front.tail.head?.filter fun z => decide (z.addr = nxt)).map (·.words)
  if x.br.isSome || decide (x.rpt ≠ 0) ||
      (match ws with | some l => repForbidden nxt.toNat l (x.dstSock x.shadow 44) | none => false) then
    w.illegalBundle k x.pc
  else
    let n := if form then count else x.rc.toNat
    let pc := if n = 0 then nxt + w32 (match ws with | some l => 4 * l.length | none => 0) else nxt
    ((w.issueStart k).modTh k fun x =>
      { x with pc := pc, rpt := n, latch := if n = 0 then none else ws, front := frontFrom x.front.tail pc
               bub := min x.bub 1 }).issueEnd k x.pc x.shadow false

/-- What holds a thread before its next bundle: a fence, PRECISE (04 R161, R162, R168). -/
def W.nextHolds (w : W) (k : Nat) : List Hold := (w.th k).fenceHold ++ (w.th k).preciseWait

/-- A trap for a wait falls due when the wait has ended, in place of the bundle (06 R236). -/
def W.waitTraps (w : W) (k : Nat) : Option W :=
  if (w.th k).excs.any (·.waits) then
    some (w.modTh k fun x => { x with run := .ready, excs := x.excs.map fun e => { e with waits := false } })
  else none

/-- A thread issues the bundle at its PC. `repOnly` restricts what may issue to a REP prefix. -/
def W.tryBundle (w : W) (k : Nat) (repOnly parity : Bool) : W :=
  let x := w.th k
  if !w.mayIssue k ∨ x.stk ∨ x.excDue then w
  else if !(w.nextHolds k).isEmpty then (if repOnly then w else w.stall k x.pc (w.nextHolds k))
  else
    match w.pcFault k 4 with
    | some f => if repOnly then w else f
    | none =>
      match w.bundleAt k with
      | (w', none) => if repOnly then w else w'
      | (w', some ws) =>
        match decodeBundle x.pc.toNat ws with
        | .bad => if repOnly then w else w'.illegalBundle k x.pc
        | .rep f n => match w'.waitTraps k with | some v => v | none => w'.issueRep k f n
        | .moves b =>
          if repOnly then w
          else
            match w'.issueMoves k b (decide (x.rpt ≠ 0)) parity with
            | .wait hs => w'.stall k x.pc hs
            | .illegal started =>
              match w'.waitTraps k with
              | some t => t
              | none =>
                (w'.illegalBundle k x.pc).modTh k fun x => if started then x.advance (4 * ws.length) else x
            | .done v => match w'.waitTraps k with | some t => t | none => v

/-! ### Single triggers -/

/-- A command that triggers without a bundle: it waits as the bundle would that makes the trigger (04 R161, R162, R168,
R169; notes/assumptions/8). -/
def W.trigCmd (w : W) (k : Nat) (f : W → W) : W :=
  if !w.mayIssue k ∨ (w.th k).excDue then w
  else if !(w.nextHolds k).isEmpty then w.stall k (w.th k).pc (w.nextHolds k)
  else f w

/-- A unit of a thread takes an operation code and, where the operation has one, an operand, and is triggered: the
trigger phase of a bundle, without the bundle (notes/assumptions/8). -/
def W.tryUnit (w : W) (k : Nat) (u : UnitId) (op : UOp) (o : Option Word) (t : Word) : W :=
  w.trigCmd k fun w =>
    let w1 := w.modTh k fun x => x.setOperands u.num op.code o
    let x := w1.th k
    let hs := match decodeOp u (w32 op.code) with
      | some p => blocking (w.exposedAt k) (w1.opHolds k u p (w1.oSock k u) t)
      | none => []
    if !hs.isEmpty then w.stall k x.pc hs
    else (w1.modTh k Thread.goes).fireUnit k u t x.pc

/-- A CTL operation of a thread, as the bundle at its PC that makes the one trigger: `wide` says that the bundle is a
long one (notes/assumptions/9). -/
def W.tryCtl (w : W) (k : Nat) (op : CtlOp) (f : Nat) (o : Option Word) (t : Word) (imm : Nat) (wide : Bool) : W :=
  let x := w.th k
  if !w.mayIssue k ∨ x.stk ∨ x.excDue then w
  else if !(w.nextHolds k).isEmpty then w.stall k x.pc (w.nextHolds k)
  else
    match w.pcFault k 4 with
    | some f => f
    | none =>
      let mv (n : Nat) (v : Word) : Move := { pred := 0, inv := false, src := .imm v, unit := true, dst := n }
      let mo : List Move := match o with | some v => [mv 45 v] | none => []
      let b : Bundle := { long := wide, moves := mv 44 (w32 (UOp.ctl op f).code) :: (mo ++ [mv 46 t]), imm := imm % 65536 }
      match w.issueMoves k b (decide (x.rpt ≠ 0)) false with
      | .wait hs => w.stall k x.pc hs
      | .illegal _ => w.illegalBundle k x.pc
      | .done v => match w.waitTraps k with | some t => t | none => v

/-- A trigger of a thread's HV with a job block (03 R115, R116). DESIGN CHOICE (notes/assumptions/50): while an earlier
job is pending it waits under R51 even where it would fault. -/
def W.tryHv (w : W) (k cmd : Nat) (block : Word) : W :=
  w.trigCmd k fun w =>
    if w.hvBusy k then w.stall k (w.th k).pc (w.hvHold k)
    else (w.modTh k fun x => (x.setDst x.shadow 56 block).goes).hvStart k cmd (w.th k).pc

/-- Words moved to an external unit, until one must wait (03 R120, R121). -/
def W.tryUx (w : W) (k u : Nat) : List Word → W
  | [] => w
  | v :: r =>
    if !w.mayIssue k ∨ (w.th k).excDue then w
    else if !(w.nextHolds k).isEmpty then w.stall k (w.th k).pc (w.nextHolds k)
    else if !w.uxHere u then w.illegalBundle k (w.th k).pc
    else if w.uxBusy k u then w.stall k (w.th k).pc [(2, 0x18 + u)]
    else ((w.modTh k Thread.goes).uxWrite k u v).tryUx k u r

end Sys2Proof.Machine
end

