-- ==== Sys2Proof/Machine/Exception.lean ====
section
/-! DEFINITION. Taking an exception: by shadow entry, by a frame under compatibility nesting, or as a double
or third fault (02 R88, R89, R93; 04 R169 to R172; 06 R246; 08 R292 to R317). -/

namespace Sys2Proof.Machine

/-! ### Cause -/

/-- Whether a vector is asynchronous (08 R292). -/
def isAsync (v : Nat) : Bool := decide (v = 13 ∨ v = 14)

/-- The cause word (08 R294). -/
def Exc.cause (e : Exc) : Word :=
  w32 (e.status * 2 ^ 16 + e.detail % 256 * 2 ^ 8 + b01 (isAsync e.vec) * 2 ^ 5 + e.vec)

/-! ### The saved state -/

/-- What an exception saves: SPC, SST and SRPT (08 R295, R299, R306, R307). `slot` is the width of a pending
delay slot. -/
def Thread.saved (x : Thread) (e : Exc) (slot : Nat) : Word × Word × Word :=
  let rp := decide (x.rpt ≠ 0)
  let origin := if isAsync e.vec then x.ring
    else if x.rcLeft = 0 then e.origin.getD x.ring else x.rcRing
  let tgt := match x.br with
    | some b => wf (b.tgt.getD (x.pc + w32 slot)) 15 1
    | none => 0
  (x.pc,
   w32 (x.ring % 4 * 2 ^ 30 + origin % 4 * 2 ^ 28 + b01 x.stk * 2 ^ 26 + b01 x.nest * 2 ^ 25 + b01 x.precise * 2 ^ 24 +
     b01 x.ie * 2 ^ 23 + b01 x.ovt * 2 ^ 22 + b01 x.dzt * 2 ^ 21 + b01 x.br.isSome * 2 ^ 20 + b01 rp * 2 ^ 19 + tgt * 2),
   if rp then w32 x.rpt else 0)

/-- The handler's ring (08 R298). -/
def Thread.handlerRing (x : Thread) : Nat := if x.ring = 0 then 0 else 1

/-- What the engine keeps of the code that an exception interrupts (02 R91; 04 R170; 08 R306, R309, R310). -/
def Thread.leaves (x : Thread) (e : Exc) : Under :=
  { flip := x.br.any fun b => b.stk != x.stk, rcLeft := x.rcLeft, rcRing := x.rcRing, trap := e.trap }

/-- A thread goes to a vector: what every entry changes (08 R298, R306, R307). -/
def Thread.enter (x : Thread) (vec : Nat) (e : Exc) : Thread :=
  { x with
    pc := w32 (0x10 * vec), ie := false, ring := x.handlerRing, stk := false, tos := [], rpt := 0, latch := none
    under := x.leaves e :: x.under, front := [], bub := 0, hvSeen := false
    br := none, rcLeft := 0, oneMore := false, wdPend := x.wdPend && decide (vec ≠ 13) }

/-! ### Entries -/

/-- Words that the hardware writes for a thread at a ring, in ascending order until one fails (08 R277). -/
def W.hwStore (w : W) (k ring : Nat) : Word → List Word → W × Option St
  | _, [] => (w, none)
  | a, v :: r =>
    match w.busWr (engReq (k / 4) ring) a.toNat (leBytes 4 v.toNat) with
    | (w, some e) => (w, some e)
    | (w, none) => w.hwStore k ring (a + 4) r

/-- A word goes to the stack of a thread below A15, which moves down: checked as a store of LSU0, after the thread's earlier
stores; where it fails the word is lost and the fault is raised (02 R87; 04 R156, R157; notes/assumptions/15 and 27). -/
def W.spillWord (w : W) (k : Nat) (v : Word) : W :=
  let x := w.th k
  let sp := x.getA x.shadow 15 - 4
  let w := (w.modTh k fun x => x.setA x.shadow 15 sp).drained k
  if sp.toNat % 4 ≠ 0 then w.fault k 7 4 sp
  else
    match w.lsuRefused (k / 4) x.ring .stw sp with
    | some d => w.fault k 6 d sp
    | none =>
      match w.busWr (engReq (k / 4) x.ring) sp.toNat (leBytes 4 v.toNat) with
      | (w, none) => w
      | (w, some e) => w.busFault k e sp x.seq x.shadow

/-- The cached entries of a thread in stack mode go to its stack, deepest first, as R87 spills them (02 R87, R93). The
cache lists its top first. -/
def W.spillAll (w : W) (k : Nat) : W :=
  if !(w.th k).stk then w else (w.th k).tos.reverse.foldl (fun w v => w.spillWord k v) w

/-- What an entry from stack mode waits for before it spills: a pending write of A15 (02 R87, R93; notes/assumptions/27). -/
def W.spillHold (w : W) (k : Nat) : List Hold :=
  let x := w.th k
  if x.stk && !x.tos.isEmpty then w.regHold k x.shadow (1, 15) else []

/-- A third fault resets the engine and is told to the fault controller (08 R315; 14 R537). -/
def W.thirdFault (w : W) (k : Nat) (e : Exc) : W := (w.signal 1 (k / 4) e.cause.toNat).engineReset (k / 4) false

/-- The double fault: the reserve area is written, and vector 1 entered in stack mode, whose A15 no operation in flight
changes (02 R52, R88; 08 R311 to R315). `reason` is 1 SHADOW_FAULT, where the return goes to what the first exception
interrupted, 2 STACK_LIMIT, 3 SP_INVALID. -/
def W.doubleFault (w : W) (k reason : Nat) (e : Exc) (s : Word × Word × Word) : W :=
  let x := w.th k
  let n := x.dcount + 1
  let area := w32 (0x1FF00 + 0x40 * (k % 4))
  let recd : List Word :=
    [w32 reason, e.cause, e.faddr, s.1, s.2.1, s.2.2, x.spc, x.sst, x.srpt, x.lk, x.getA x.shadow 15, n,
     w32 w.now, w32 (w.now / 2 ^ 32), 0, 0x44460001]
  match w.hwStore k 0 area recd with
  | (w, some _) => w.thirdFault k e
  | (w, none) =>
    let keep := decide (reason = 1)
    let w := w.modTh k fun x =>
      let y := (x.enter 1 e).claim true (1, 15)
      { y.setA true 15 (w32 (0x1FF00 - 0x100 * (k % 4))) with
        under := if keep then x.under else y.under
        shadow := true, ring := 0, stk := true, dfault := true, dcount := n
        spc := if keep then x.spc else s.1, sst := if keep then x.sst else s.2.1, srpt := if keep then x.srpt else s.2.2 }
    let w := (w.bumpOf k (rngReg (k / 4) + 0x104)).bumpOf k (rngReg (k / 4) + 0x100)
    (w.signal 2 (k / 4) e.cause.toNat).traceFlow k 2 s.1.toNat e.cause.toNat

/-- Shadow entry (08 R298). -/
def W.shadowEntry (w : W) (k : Nat) (e : Exc) (s : Word × Word × Word) : W :=
  let w := w.modTh k fun x =>
    ({ x.enter e.vec e with shadow := true, spc := s.1, sst := s.2.1, srpt := s.2.2 }.setD true 31 e.cause).setD true 30 e.faddr
  (w.bumpOf k (rngReg (k / 4) + 0x100)).traceFlow k 2 s.1.toNat e.cause.toNat

/-- Entry under compatibility nesting: the frame is pushed, or the double fault taken (08 R316, R317). The push carries
the handler's ring, whose windows it is checked against: DEDUCED, notes/assumptions/51. -/
def W.nestEntry (w : W) (k : Nat) (e : Exc) (s : Word × Word × Word) : W :=
  let x := w.th k
  let sp := (x.getA false 15).toNat
  let hr := x.handlerRing
  if sp % 8 ≠ 0 ∨ sp < x.slim.toNat ∨ (hr ≠ 0 ∧ (sp < 32 ∨ !w.grants (k / 4) hr kindW (sp - 32) 32)) then
    w.doubleFault k 3 e s
  else if sp < x.slim.toNat + 32 then w.doubleFault k 2 e s
  else
    let at' := x.getA false 15 - 32
    match (w.drained k).hwStore k hr at'
        [s.1, s.2.1, s.2.2, e.cause, e.faddr, w32 w.now, w32 (w.now / 2 ^ 32), 0] with
    | (w, some _) => w.doubleFault k 3 e s
    | (w, none) =>
      let w := w.modTh k fun x => (x.enter e.vec e).setA false 15 at'
      (w.bumpOf k (rngReg (k / 4) + 0x100)).traceFlow k 2 s.1.toNat e.cause.toNat

/-- The exception `e` is taken: the entry that the thread's state calls for (08 R298, R302, R311, R315, R316). Only an
entry into a handler spills the stack cache (02 R93). -/
def W.takeExc (w : W) (k : Nat) (e : Exc) : W :=
  if (w.th k).shadow && (w.th k).dfault then w.thirdFault k e
  else
    let w := w.spillAll k
    let x := w.th k
    let s := x.saved e (w.widthAt k x.pc.toNat x.stk)
    if x.shadow then w.doubleFault k 1 e s
    else if x.nest then w.nestEntry k e s
    else w.shadowEntry k e s

/-- Whether a thread's engine lets it enter a handler: the entry takes the issue slot, so that it keeps R85 and the freeze
(02 R85; 06 R219; 08 R297, R303; 14 R543, R544; 17 R649). -/
def W.mayEnter (w : W) (k : Nat) : Bool :=
  let x := w.th k
  w.inService (k / 4) && decide (x.run ≠ .stopped) && !x.halted && decide (k / 4 ≤ 192) &&
  (decide (k % 4 = 0) || !(w.en (k / 4)).strict) && !(decide (k / 4 = 192) && w.flt.ksync) && !w.frozen (k / 4)

/-- A thread takes the exception that is due first, if it can take one (08 R296, R297; 12 R456; 14 R544;
17 R649, R650). -/
def W.tryEntry (w : W) (k : Nat) : W :=
  let x := w.th k
  if !w.mayEnter k then w
  else
    match (match x.firstSync with | some e => some e | none => x.firstAsync) with
    | none => w
    | some e =>
      if !(w.spillHold k).isEmpty then w.stall k x.pc (w.spillHold k) else
      let w := (w.takesSlot k).modTh k fun x => { x with excs := match takeFirst (· == e) x.excs with | some (_, r) => r | none => x.excs }
      let w := if x.run = .waiting then w.waitEnd k true else w
      let w := w.modTh k fun x => { x with run := .ready }
      let w := w.takeExc k e
      (if (w.th k).shadow then w.interrupted k 5 (w.th k).pc else w).stepped k

end Sys2Proof.Machine
end

