-- ==== Sys2Proof/Machine/Stack.lean ====
section
/-! DEFINITION. Stack mode: the evaluation stack with its cache, the instructions and their encoding (02 R86
to R92; 03 R123 to R128). -/

namespace Sys2Proof.Machine

/-! ### Instructions -/

/-- The stack-mode instructions (03 R123), with what their encoding carries. -/
inductive StkOp where
  | pushs (v : Word) | pushw
  | load (op : LsuOp) (oo : Nat) | store (op : LsuOp) (oo : Nat)
  | alu (op : AluOp) | not | neg
  | nop | dup | drop | swap | over | rot
  | src (n : Nat) | dst (n : Nat) | mfc (n : Nat) | mtc (n : Nat)
  | cbrAl | cbr (c : Nat) | call | ret | leave | halt
  | iflush | syncM | fenceA
  deriving DecidableEq, Repr

/-- ALU operations of 0x3001 to 0x300F, in order (03 R123). -/
def stkAlu : List AluOp :=
  [.add, .sub, .and, .or, .xor, .shl, .shr, .sar, .rol, .min, .max, .cmpeq, .cmpne, .cmplt, .cmpltu]

/-- The instruction of a half, if the table lists it (03 R123, R124). -/
def decodeStk (h : Nat) : Option StkOp :=
  let n := h % 256
  match h / 256 with
  | 0x10 => guardOpt (n == 0) .pushw
  | 0x20 => some (.load .ldb n) | 0x21 => some (.load .ldbu n) | 0x22 => some (.load .ldh n)
  | 0x23 => some (.load .ldhu n) | 0x24 => some (.load .ldw n)
  | 0x28 => some (.store .stb n) | 0x29 => some (.store .sth n) | 0x2A => some (.store .stw n)
  | 0x30 =>
    if n = 0x10 then some .not else if n = 0x11 then some .neg
    else if n = 0 then none else (stkAlu[n - 1]?).map .alu
  | 0x40 =>
    match n with
    | 0 => some .nop | 1 => some .dup | 2 => some .drop | 3 => some .swap | 4 => some .over | 5 => some .rot
    | _ => none
  | 0x50 => guardOpt (decide (n < 0x80)) (.src n)
  | 0x51 => guardOpt (decide (n < 0x80)) (.dst n)
  | 0x52 => guardOpt (decide (n < 0x20)) (.mfc n)
  | 0x53 => guardOpt (decide (n < 0x20)) (.mtc n)
  | 0x60 => if n = 0 then some .cbrAl else if n ≤ 6 then some (.cbr (n - 1)) else none
  | 0x61 => match n with | 0 => some .call | 1 => some .ret | 2 => some .leave | 3 => some .halt | _ => none
  | 0x70 => match n with | 0 => some .iflush | 1 => some .syncM | 2 => some .fenceA | _ => none
  | k => if k < 0x10 then some (.pushs (w32i (sgn 12 (h % 4096)))) else none

/-- The stack-mode branches, which have a delay slot (02 R90). -/
def StkOp.isBranch (op : StkOp) : Bool :=
  match op with
  | .cbrAl | .cbr _ | .call | .ret | .leave => true
  | _ => false

/-! ### The stack -/

/-- A load that the stack makes for a thread: checked as LSU0 checks it, after the thread's earlier stores; where it
fails the value is free (02 R87; 03 R123; 04 R156, R157; notes/assumptions/15 and 27). -/
def W.stkLoad (w : W) (k : Nat) (op : LsuOp) (ea : Word) : W × Option Word :=
  let w := w.drained k
  let x := w.th k
  if ea.toNat % op.size ≠ 0 then (w.fault k 7 op.size ea, none)
  else
    match w.lsuRefused (k / 4) x.ring op ea with
    | some d => (w.fault k 6 d ea, none)
    | none =>
      match w.busRd (engReq (k / 4) x.ring) ea.toNat op.size with
      | (w, .ok bs) => (w, some (op.extend (leNat bs)))
      | (w, .error e) => (w.busFault k e ea x.seq x.shadow, none)

/-- A value, or a free one. -/
def W.orFree (w : W) (v : Option Word) : W × Word :=
  match v with
  | some v => (w, v)
  | none => let (v, w) := w.fresh 32; (w, v)

/-- The top entry is popped: from the cache, or filled from the stack in memory (02 R87). -/
def W.stkPop (w : W) (k : Nat) : W × Word :=
  let x := w.th k
  match x.tos with
  | v :: r => (w.setTh k { x with tos := r }, v)
  | [] =>
    let sp := x.getA x.shadow 15
    let (w, v) := w.stkLoad k .ldw sp
    (w.modTh k fun x => x.setA x.shadow 15 (sp + 4)).orFree v

/-- The deepest entry of a full cache is spilled (02 R87). -/
def W.stkSpill (w : W) (k : Nat) : W :=
  let x := w.th k
  if x.tos.length < 8 then w
  else
    (w.modTh k fun x => { x with tos := x.tos.dropLast }).spillWord k (x.tos.getLastD 0)

/-- A value is pushed (02 R87). -/
def W.stkPush (w : W) (k : Nat) (v : Word) : W := (w.stkSpill k).modTh k fun x => { x with tos := v :: x.tos }

/-- The two top entries: the deeper one first. -/
def W.stkPop2 (w : W) (k : Nat) : W × Word × Word :=
  let (w, b) := w.stkPop k
  let (w, a) := w.stkPop k
  (w, a, b)

/-! ### Effects -/

/-- An ALU result of stack mode: pushed, with its sticky bit and its trap (03 R123; 04 R165 to R171). DESIGN CHOICE
(notes/assumptions/52): it is the operation of ALU0, so ALU0.R takes it too. -/
def W.stkAluOut (w : W) (k : Nat) (pc : Word) (canOv : Bool) (r : AluOut) : W :=
  let ov := canOv && r.ov
  let w := w.modTh k fun x => { x.setSrc x.shadow 48 r.r with
    ov := x.ov || ov, seq := x.seq + 1
    excs := if ov && x.ovt && !x.shadow then
        putTrap { vec := 10, faddr := pc, seq := x.seq, trap := true, origin := x.charged, lvl := x.trapLvl, lat := 1 } x.excs
      else x.excs }
  w.stkPush k r.r

/-- The byte offset of a memory instruction (03 R123). -/
def stkOff (op : LsuOp) (oo : Nat) : Word := w32 (op.size * oo)

/-- A store of stack mode enters the store buffer through LSU0 (03 R123; 04 R156; 06 R237). -/
def W.stkStore (w : W) (k : Nat) (op : LsuOp) (ea v pc : Word) : W :=
  let x := w.th k
  if ea.toNat % op.size ≠ 0 then w.fault k 7 op.size ea
  else
    match w.lsuRefused (k / 4) x.ring op ea with
    | some d => w.fault k 6 d ea
    | none => w.modTh k fun y => y.buffer 0 ea op.size (storeData x op 0 v) pc

/-- A branch of stack mode, after the PC has moved on (02 R90, R91; 03 R126). -/
def W.stkBranch (k : Nat) (pc tgt : Word) (taken stk : Bool) (align : Nat) (w : W) : W :=
  w.branch k pc tgt taken false stk align

/-- What an instruction does before its PC moves on, and what it does after (03 R123). `word` is the constant of PUSHW.
A load writes LSU0.R too, and CALL writes LK even where its target faults: DESIGN CHOICE, notes/assumptions/52 and 31. An
MTC that faults pops nothing (02 R62; 03 R127). -/
def W.stkDo (w : W) (k : Nat) (pc word : Word) (op : StkOp) : W × (W → W) :=
  match op with
  | .pushs v => (w.stkPush k v, id)
  | .pushw => (w.stkPush k word, id)
  | .load op oo =>
    let (w, a) := w.stkPop k
    let (w, v) := w.stkLoad k op (a + stkOff op oo)
    let w := match v with | some v => w.modTh k fun x => x.setSrc x.shadow 61 v | none => w
    let (w, v) := w.orFree v
    (w.stkPush k v, id)
  | .store op oo =>
    let (w, v, a) := w.stkPop2 k
    (w.stkStore k op (a + stkOff op oo) v pc, id)
  | .alu op =>
    let (w, a, b) := w.stkPop2 k
    (w.stkAluOut k pc op.canOv (aluEval op a b false), id)
  | .not =>
    let (w, a) := w.stkPop k
    (w.stkAluOut k pc false (aluEval .not 0 a false), id)
  | .neg =>
    let (w, a) := w.stkPop k
    (w.stkAluOut k pc true (aluEval .sub 0 a false), id)
  | .nop => (w, id)
  | .dup =>
    let (w, a) := w.stkPop k
    ((w.stkPush k a).stkPush k a, id)
  | .drop => ((w.stkPop k).1, id)
  | .swap =>
    let (w, a, b) := w.stkPop2 k
    ((w.stkPush k b).stkPush k a, id)
  | .over =>
    let (w, a, b) := w.stkPop2 k
    (((w.stkPush k a).stkPush k b).stkPush k a, id)
  | .rot =>
    let (w, b, c) := w.stkPop2 k
    let (w, a) := w.stkPop k
    (((w.stkPush k b).stkPush k c).stkPush k a, id)
  | .src n =>
    let v := w.srcVal k 0 0 n
    ((w.uxErrors k [{ pred := 0, inv := false, src := .id n, unit := false, dst := 0 }]).stkPush k v, id)
  | .dst n =>
    let (w, v) := w.stkPop k
    let d := dstKey (n.testBit 6) (n % 64)
    if isTrig d then (w.fireAll k [(d, v)] pc, fun w => w.fireCtl k [(d, v)] pc 0) else (w.writeDst k d v, id)
  | .mfc n =>
    match w.mfcValue k n pc with
    | (w, some v) => (w.stkPush k v, id)
    | (w, none) => (w, id)
  | .mtc n =>
    if w.mtcBad k n then (w, fun w => w.mtc k n 0 pc)
    else
      let (w, v) := w.stkPop k
      (w, fun w => w.mtc k n v pc)
  | .cbrAl =>
    let (w, off) := w.stkPop k
    (w, W.stkBranch k pc (pc + off + off) true true 2)
  | .cbr c =>
    let (w, off) := w.stkPop k
    let (w, a, b) := w.stkPop2 k
    (w, W.stkBranch k pc (pc + off + off) (cbrCond c a b) true 2)
  | .call =>
    let (w, t) := w.stkPop k
    (w, fun w => W.stkBranch k pc t true true 2 (w.modTh k fun x => { x with lk := w.linkOf k }))
  | .ret => (w, W.stkBranch k pc (w.th k).lk true true 2)
  | .leave =>
    let (w, t) := w.stkPop k
    (w, W.stkBranch k pc t true false 4)
  | .halt => (w, fun w => w.stopThread k)
  | .iflush =>
    let (w, a) := w.stkPop k
    (w, fun w => w.iflush k a)
  | .syncM => (w, fun w => w.modTh k fun x => { x with fence := some .mem })
  | .fenceA => (w, fun w => w.modTh k fun x => { x with fence := some .arith })

/-! ### Issue -/

/-- How many entries an instruction pops, and how many it pushes (03 R123). -/
def StkOp.pops (op : StkOp) : Nat :=
  match op with
  | .rot | .cbr _ => 3
  | .store _ _ | .alu _ | .swap | .over => 2
  | .load _ _ | .not | .neg | .dup | .drop | .dst _ | .mtc _ | .cbrAl | .call | .leave | .iflush => 1
  | .pushs _ | .pushw | .nop | .src _ | .mfc _ | .ret | .halt | .syncM | .fenceA => 0
def StkOp.pushes (op : StkOp) : Nat :=
  match op with
  | .over | .rot => 3
  | .dup | .swap => 2
  | .pushs _ | .pushw | .load _ _ | .alu _ | .not | .neg | .src _ | .mfc _ => 1
  | _ => 0

/-- An instruction that fills or spills the cache reads A15, and waits for it (02 R87, R92). -/
def W.spHold (w : W) (k : Nat) (op : StkOp) : List Hold :=
  let n := (w.th k).tos.length
  if (match op with | .mtc c => w.mtcBad k c | _ => false) then []
  else if n < op.pops ∨ 8 < n - op.pops + op.pushes then w.regHolds k [(1, 15)] else []

/-- What holds an instruction: every wait is interlocked (02 R92; 03 R127). -/
def W.stkHolds (w : W) (k : Nat) (op : StkOp) : List Hold :=
  w.spHold k op ++
  match op with
  | .src n => w.srcHold k n
  | .store _ _ => if 8 ≤ (w.th k).sbUsed then [(6, 9)] else []
  | .dst n =>
    let d := dstKey (n.testBit 6) (n % 64)
    (dstRegs d).flatMap (w.writeHold k (w.th k).shadow) ++ if isTrig d then w.trigHolds k [(d, (w.stkPop k).2)] else []
  | _ => []

/-- Whether an instruction is an illegal bundle where it stands (02 R70, R90; 03 R125, R127). -/
def W.stkIllegal (w : W) (k : Nat) (op : StkOp) : Bool :=
  let x := w.th k
  match op with
  | .pushw => decide (30 ≤ x.pc.toNat % 64 / 2)
  | .src n => (decide (96 ≤ n) && decide (n < 100)) || !w.srcLegal n
  | .dst n =>
    !w.dstLegal (n.testBit 6) (n % 64) ||
    (decide (dstKey (n.testBit 6) (n % 64) = ctlT) &&
      match ctlOf (x.dstSock x.shadow 44) with
      | some (op, _) => op.isBranch || (op.isTransfer && x.br.isSome)
      | none => false)
  | op => op.isBranch && x.br.isSome

/-- A half of a line. -/
def Line.half (l : Line) (a : Nat) : Option Nat :=
  (l.words.getD (a % 64 / 4) none).map fun v => wf v (16 * (a / 2 % 2) + 15) (16 * (a / 2 % 2))

/-- An instruction issues at the PC (02 R86, R92; 03 R123). -/
def W.stkRun (w : W) (k : Nat) (l : Line) (op : StkOp) : W :=
  let x := w.th k
  let pc := x.pc
  let a := pc.toNat
  if w.stkIllegal k op then w.illegalBundle k pc
  else if !(w.stkHolds k op).isEmpty then w.stall k pc (w.stkHolds k op)
  else
    match op, l.half (a + 2), l.half (a + 4) with
    | .pushw, some h0, some h1 =>
      let (w, _) := (w.issueStart k).stkDo k pc (w32 (h1 * 65536 + h0)) .pushw
      (w.modTh k fun x => x.advance 6).issueEnd k pc x.shadow false
    | .pushw, _, _ => w.busFault k .eccUncorrectable pc x.seq x.shadow
    | op, _, _ =>
      let (w1, after) := (w.issueStart k).stkDo k pc 0 op
      let retx := match op with
        | .dst n => decide (dstKey (n.testBit 6) (n % 64) = ctlT) && (ctlOf (x.dstSock x.shadow 44) |>.any fun c => c.1 == .retx)
        | _ => false
      (after (w1.modTh k fun x => x.advance 2)).issueEnd k pc x.shadow retx

/-- A stack-mode step of a thread: the half at its PC must hold an instruction that `want` accepts, or one that
the table does not list where `want` is none; else nothing happens. A PC that cannot be fetched faults
(03 R94; 08 R281; 09 R340). -/
def W.tryStk (w : W) (k : Nat) (want : Option (StkOp → Bool)) : W :=
  let x := w.th k
  if !w.mayIssue k ∨ !x.stk ∨ x.excDue then w
  else if !(w.nextHolds k).isEmpty then w.stall k x.pc (w.nextHolds k)
  else
    match w.pcFault k 2 with
    | some f => f
    | none =>
      match w.fetchLine k x.pc.toNat with
      | (w', .error e) => w'.busFault k e x.pc x.seq x.shadow
      | (w', .ok l) =>
        match l.half x.pc.toNat with
        | none => w'.busFault k .eccUncorrectable x.pc x.seq x.shadow
        | some h =>
          match decodeStk h, want with
          | some op, some f => if f op then w'.stkRun k l op else w
          | none, none => w'.illegalBundle k x.pc
          | _, _ => w

end Sys2Proof.Machine
end

