-- ==== Sys2Proof/Machine/Turn.lean ====
section
/-! DEFINITION. Which thread of an engine issues: the thread that issued last stays until it is about to stall, then the
next one that is READY (02 R84, R85; 06 R224, R228, R229); and the commands that issue for a thread, in its turn. -/

namespace Sys2Proof.Machine

/-! ### Able to issue -/

/-- Whether the move-mode bundle at a thread's PC would issue, or would take the issue slot with a fault (06 R228). -/
def W.moveAble (w : W) (k : Nat) : Bool :=
  let x := w.th k
  if (w.pcFault k 4).isSome then true
  else
    match w.bundleAt k with
    | (w, some ws) =>
      match decodeBundle x.pc.toNat ws with
      | .moves b => match w.issueMoves k b (decide (x.rpt ≠ 0)) false with | .wait _ => false | _ => true
      | _ => true
    | _ => true

/-- Whether the stack-mode instruction at a thread's PC would issue (06 R228). -/
def W.stkAble (w : W) (k : Nat) : Bool :=
  let x := w.th k
  if (w.pcFault k 2).isSome then true
  else
    match w.fetchLine k x.pc.toNat with
    | (w, .ok l) =>
      match (l.half x.pc.toNat).bind decodeStk with
      | some op => w.stkIllegal k op || (w.stkHolds k op).isEmpty
      | none => true
    | _ => true

/-- Whether a thread is able to issue: an exception that it can take, or a bundle that need not wait and is not behind
branch bubbles (06 R228, R229). -/
def W.able (w : W) (k : Nat) : Bool :=
  let x := w.th k
  if w.mayEnter k && x.excDue then (w.spillHold k).isEmpty
  else
    w.mayIssue k && !x.excDue && decide (x.bub ≠ 1) && (w.nextHolds k).isEmpty && (if x.stk then w.stkAble k else w.moveAble k)

/-- Whether another thread of the engine issues before a thread: the one that issued last, while it is able to, and else
the first in order behind it that is (02 R84). -/
def W.notTurn (w : W) (k : Nat) : Bool :=
  let l := (w.en (k / 4)).last
  (upTo ((k % 4 + 4 - l) % 4)).any fun i => w.able (tkey (k / 4) ((l + i) % 4))

/-- A command that issues for a thread acts in the thread's turn only (02 R84; notes/assumptions/34). -/
def W.inTurn (w : W) (k : Nat) (f : W → W) : W := if w.notTurn k then w else f w

/-! ### The commands that issue -/

/-- The bundle at a thread's PC. `late` is how many cycles its line read waited for another thread's (06 R218): while
STRICT = 1 none waits. -/
def W.issueBundle (w : W) (k : Nat) (repOnly parity : Bool) (late : Nat) : W :=
  w.inTurn k fun w =>
    let w := if late = 0 ∨ (w.en (k / 4)).strict ∨ !w.mayIssue k then w
      else (w.idle k late).bumpOf k (sntReg (k / 4) + 0x58) late
    w.tryBundle k repOnly parity

/-- A unit operation of a thread. -/
def W.unitCmd (w : W) (k : Nat) (u : UnitId) (op : UOp) (o : Option Word) (t : Word) : W :=
  w.inTurn k fun w => w.tryUnit k u op o t

/-- A CTL operation of a thread. -/
def W.ctlCmd (w : W) (k : Nat) (op : CtlOp) (f : Nat) (o : Option Word) (t : Word) (imm : Nat) (wide : Bool) : W :=
  w.inTurn k fun w => w.tryCtl k op f o t imm wide

/-- A trigger of a thread's HV. -/
def W.hvCmd (w : W) (k cmd : Nat) (block : Word) : W := w.inTurn k fun w => w.tryHv k cmd block

/-- Words moved to an external unit by a thread. -/
def W.uxCmd (w : W) (k u : Nat) (ws : List Word) : W := w.inTurn k fun w => w.tryUx k u ws

/-- A stack-mode instruction of a thread. -/
def W.stkCmd (w : W) (k : Nat) (want : Option (StkOp → Bool)) : W := w.inTurn k fun w => w.tryStk k want

/-- A thread takes the exception that is due first. -/
def W.exceptionEntry (w : W) (k : Nat) : W := w.inTurn k fun w => w.tryEntry k

end Sys2Proof.Machine
end

