-- ==== Sys2Proof/Machine/Rings.lean ====
section
/-! DEFINITION. The ring commit: windows, gate, range and stack tables (08 R283 to R286, R291, R319 to
R324). -/

namespace Sys2Proof.Machine

/-- A ring commit's table of values by offset. -/
def ringSnap (e : Nat) (c : Com) : Tbl Word := (upTo 29).map fun i => (4 * i, c.get (rngReg e + 4 * i))

/-- Check 1 for window `i` of ring `r`: reserved bits, an enabled window without addresses, a disabled one with some
(00 R11; 08 R320, R322). -/
def winBad (g : Tbl Word) (r i : Nat) : Bool :=
  let o := 0x20 * (r - 1) + 8 * i
  let b := tget 0 g o
  let l := tget 0 g (o + 4)
  let (base, lim, per) := winOf g r i
  decide (wf b 5 3 ≠ 0) || decide (wf l 5 0 ≠ 0) ||
  (if per = 0 then decide (base ≠ 0) || decide (lim ≠ 0) else decide (lim ≤ base))

/-- Whether a table of `n` entries of `size` bytes breaks check 2 (08 R322). -/
def ringTabBad (a n size align : Nat) : Bool :=
  if n = 0 then decide (a ≠ 0)
  else decide (256 < n) || decide (a % align ≠ 0) || decide (a < 0x10000) || decide (0x1FB00 < a + size * n)

/-- Whether a gate entry breaks R283 or R284 (08). `rt` is RTCOUNT. -/
def gateBad (g : Tbl Word) (rt : Nat) (b : List Byte) : Bool :=
  let w1 := wdAt b 4
  let w2 := wdAt b 8
  let w3 := wdAt b 12
  let tgt := wdAt b 0
  let ck (i : Nat) : Nat := fld w1 (9 + 2 * i) (8 + 2 * i)
  let ridx (i : Nat) : Nat := fld w2 (8 * i + 7) (8 * i)
  let narg := fld w1 4 2
  let ring := fld w1 1 0
  let callers := fld w3 3 0
  if !w1.testBit 31 then !zeroAt b 0 16
  else
    decide (tgt % 4 ≠ 0) || decide (tgt < 0x200) || decide (0x7FFC < tgt) || decide (fld w1 30 16 ≠ 0) ||
    decide (fld w1 7 5 ≠ 0) || decide (4 < narg) || decide (fld w3 31 9 ≠ 0) || decide (fld w3 7 4 ≠ 0) ||
    decide (callers = 0) || callers.testBit 0 ||
    (upTo 4).any (fun r => callers.testBit r && decide (r ≤ ring)) ||
    (upTo 4).any (fun i =>
      (decide (ck i ≠ 0) && decide (narg ≤ i)) || (decide (2 ≤ ck i) && decide (narg ≤ i + 1)) ||
      (if ck i = 1 then decide (rt ≤ ridx i) else decide (ridx i ≠ 0))) ||
    !grantsIn g ring kindX tgt 1

/-- Whether word `4t + r` of the stack table breaks R286 (08). -/
def stackBad (g : Tbl Word) (r v : Nat) : Bool :=
  if r = 3 then decide (v ≠ 0)
  else decide (v % 8 ≠ 0) || decide (v < 0x10010) || decide (0x1FB00 < v) ||
    !grantsIn g r kindR (v - 16) 16 || !grantsIn g r kindW (v - 16) 16

/-- A ring commit (08 R322 to R324): its tables are read, checked and become live, and GTBASE of each thread takes
GTADDR (R291). -/
def rngWork (e : Nat) (w : W) (c : Com) : Except Fin3 (W × Nat) := do
  let g := ringSnap e c
  let v (o : Nat) : Nat := (tget 0 g o).toNat
  chkEach ((upTo 3).flatMap fun r => (upTo 4).map fun i => 0x10 * (r + 1) + i)
    (fun n => winBad g (n / 16) (n % 16)) .badValue 1
  chk (decide (512 ≤ v 0x64) || decide (512 ≤ v 0x6C)) .badValue 1
  chk (ringTabBad (v 0x60) (v 0x64) 16 16 || ringTabBad (v 0x68) (v 0x6C) 8 8 ||
    (if v 0x70 = 0 then decide (v 0x64 ≠ 0) else ringTabBad (v 0x70) 1 64 64)) .badValue 2
  let rd (w : W) (a n : Nat) : Except Fin3 (W × List Byte) :=
    if n = 0 then .ok (w, [])
    else match w.rdAt (.eng e) a n with
      | (w, .ok bs) => .ok (w, bs)
      | (_, .error st) => .error { st := st, check := 3, index := 0xFFFF }
  let (w, rt) ← rd w (v 0x68) (8 * v 0x6C)
  let (w, gt) ← rd w (v 0x60) (16 * v 0x64)
  let (w, st) ← rd w (v 0x70) (if v 0x70 = 0 then 0 else 64)
  chkEach (upTo (v 0x6C)) (fun j => decide (wdAt rt (8 * j + 4) < wdAt rt (8 * j))) .badValue 4
  chkEach (upTo (v 0x64)) (fun n => gateBad g (v 0x6C) ((gt.drop (16 * n)).take 16)) .badValue 5
  chkEach (if v 0x70 = 0 then [] else upTo 16) (fun i => stackBad g (i % 4) (wdAt st (4 * i))) .badValue 6
  let w := w.modEn e fun x => { x with ringLive := g.filter fun c => c.2 != 0 }
  pure ((upTo 4).foldl (fun w t => w.modTh (tkey e t) fun x => { x with gtbase := tget 0 g 0x60 }) w, 0)

end Sys2Proof.Machine
end

