-- ==== Sys2Proof/Machine/Culvert.lean ====
section
/-! DEFINITION. The culverts: channel commits, the fetch and checks of descriptors, the element stream and
its accesses, completion and chaining (file 11). -/

namespace Sys2Proof.Machine

/-! ### Descriptors -/

/-- Whether a side of a strict channel breaks check 4: its base and strides against ESIZE (11 R415). -/
def Chan.sideOff (x : Chan) (base s0 : Nat) : Bool :=
  [base, s0, s0 + 4, s0 + 8].any fun o => decide ((x.dw o).toNat % x.esize ≠ 0)

/-- The checks of a descriptor of channel `n` of culvert `c` (11 R415): the first that fails, and its status. -/
def Chan.descCheck (x : Chan) (c n : Nat) : Option (Nat × St) :=
  let net := x.snet || x.dnet
  let (n0, n1, n2) := x.loops
  if wf (x.dw 0x04) 5 1 ≠ 0 ∨ wf x.ctrl 21 20 ≠ 0 ∨ wf x.ctrl 15 0 ≠ 0 ∨ wf (x.dw 0x18) 31 16 ≠ 0 then some (1, .badValue)
  else if n0 = 0 ∨ n1 = 0 ∨ n2 = 0 ∨ 0xFFFFFFFF < x.total then some (2, .badValue)
  else if (net && decide (c < 24)) || (x.snet && x.dnet) || (x.append && (decide (x.chkKind = 0) || x.dnet)) ||
      (net && decide (x.total % 16 ≠ 0)) then some (3, .badValue)
  else if decide (14 ≤ n) && ((!x.snet && x.sideOff 0x0C 0x1C) || (!x.dnet && x.sideOff 0x10 0x28) ||
      (!net && decide ((x.dw 0x0C).toNat % 32 ≠ (x.dw 0x10).toNat % 32))) then some (4, .misaligned)
  else none

/-- The request of a channel (11 R409, R411). -/
def culReq (c n : Nat) : Req := { who := .cul c, ring := culRing n }

/-! ### The element stream -/

/-- The accesses of a run: whole beats, the fewest aligned narrow accesses before and after them, and words in
the register hub (11 R418). -/
def accessesOf : Nat → Nat → Nat → List (Nat × Nat)
  | 0, _, _ => []
  | _, _, 0 => []
  | fuel + 1, a, n =>
    let hub := decide (0x40000000 ≤ a) && decide (a < 0x42000000)
    let s := if hub then (if a % 4 = 0 ∧ 4 ≤ n then 4 else min n (4 - a % 4))
      else ([32, 16, 8, 4, 2].find? fun s => decide (a % s = 0) && decide (s ≤ n)).getD 1
    (a, s) :: accessesOf fuel (a + s) (n - s)

/-- The accesses of a side that begin at stream bytes `p` to `q - 1`: stream byte, address and length of each. Runs are
split whole, so a portion never cuts a beat (11 R418). -/
def Chan.accs (x : Chan) (base s0 p q : Nat) : List (Nat × Nat × Nat) :=
  let e := x.esize
  let size := if (x.dw s0).toNat = e then e * x.loops.1 else e
  let from' := p / size * size
  ((upTo ((q - from' + size - 1) / size)).flatMap fun i =>
    let o := from' + i * size
    let a := x.elemAt base s0 (o / e)
    (accessesOf (size + 1) a size).map fun c => (o + (c.1 - a), c.1, c.2)).filter fun c =>
      decide (p ≤ c.1) && decide (c.1 < q)

/-- Bytes read access by access until one fails. -/
def W.culRead (w : W) (r : Req) : List (Nat × Nat × Nat) → W × List Byte × Option St
  | [] => (w, [], none)
  | (_, a, n) :: l =>
    match w.busRd r (a % 2 ^ 32) n with
    | (w, .error e) => (w, [], some e)
    | (w, .ok bs) =>
      let (w, rest, e) := w.culRead r l
      (w, bs ++ rest, e)

/-- Bytes of channel `n` written access by access until one fails, or one of them disables the channel itself; each
that is acknowledged is confirmed (11 R430, R432, R437). -/
def W.culWrite (w : W) (c n : Nat) : List (Nat × Nat × Nat) → List Byte → W × Option St
  | [], _ => (w, none)
  | (_, a, k) :: l, bs =>
    match (w.bump (culReg c 0 + 0x100C)).busWr (culReq c n) (a % 2 ^ 32) (bs.take k) with
    | (w, some e) => (w, some e)
    | (w, none) =>
      let x := w.ch c n
      if !x.holds then (w, none)
      else
        W.culWrite (w.setCh c n { x with pos := x.pos + k, last := some ((a + k - 1) % 2 ^ 32) }) c n l (bs.drop k)

/-- A byte of the check value (11 R428): kind 1 CRC-32C, 2 CRC-16/CCITT, 3 the sum with its odd byte. -/
def checkByte (kind : Nat) (s : Nat × Option Nat) (b : Byte) : Nat × Option Nat :=
  match kind with
  | 1 => (crcStep s.1 b, none)
  | 2 => (crc16Bits s.1 ((upTo 8).map fun i => b.toNat.testBit (7 - i)), none)
  | 3 =>
    match s.2 with
    | none => (s.1, some b.toNat)
    | some h =>
      let t := s.1 + h * 256 + b.toNat
      (t % 65536 + t / 65536, none)
  | _ => s

/-- The check value of a stream that has ended (11 R428). -/
def checkEnd (kind : Nat) (s : Nat × Option Nat) : Nat :=
  match kind with
  | 1 => s.1 ^^^ 0xFFFFFFFF
  | 3 =>
    match s.2 with
    | some h => let t := s.1 + h * 256; t % 65536 + t / 65536
    | none => s.1
  | _ => s.1

/-- The start of the check value (11 R428). -/
def Chan.checkInit (x : Chan) : Nat :=
  match x.chkKind with
  | 1 => 0xFFFFFFFF
  | 2 => 0xFFFF
  | 3 => wf (x.dw 0x34) 15 0
  | _ => 0

/-! ### Network endpoints -/

/-- The node and the channel of a reservoir culvert's channel (10 R366; 11 R421). -/
def culNet (c n : Nat) : Nat × Nat := (if c < 26 then 13 else 16, 16 * ((c - 24) % 2) + n)

/-- Flits taken from a receive channel, at most `m`: their bytes (11 R421). -/
def W.takeFlits (w : W) (key m : Nat) : W × List Byte :=
  let q := tget [] w.net.rx key
  ({ w with net := { w.net with rx := tset w.net.rx key (q.drop m) } }, (q.take m).flatMap fun f => leBytes 16 f.data)

/-- Bytes cut into flits and sent, the flit that begins at stream byte `p` first (11 R421). -/
def W.sendFlits (w : W) (c n : Nat) (x : Chan) : Nat → Nat → List Byte → W
  | 0, _, _ => w
  | k + 1, p, bs =>
    let (node, ch) := culNet c n
    let i := p / 16
    let last := decide (i % (wf x.ctrl 19 16 + 1) = wf x.ctrl 19 16) || decide (p + 16 = x.total)
    (w.enterTx node ch { data := leNat (bs.take 16), last := last }).sendFlits c n x k (p + 16) (bs.drop 16)

/-- How many of `m` stream bytes the network lets through now (11 R421). -/
def W.netRoom (w : W) (c n : Nat) (x : Chan) (m : Nat) : Nat :=
  let (node, ch) := culNet c n
  let k := 32 * node + ch
  if x.snet then min m (16 * (tget [] w.net.rx k).length)
  else if x.dnet then min m (16 * (32 - (tget [] w.net.tx k).length))
  else m

/-! ### Moving -/

/-- Destination bytes that are also source bytes of the descriptor hold undefined contents (11 R419). -/
def W.overlapFree (w : W) (c : Nat) (x : Chan) (p m : Nat) : W :=
  let ss := x.runs 0x0C 0x1C (x.total + 1) 0 x.total
  let ds := (x.runs 0x10 0x28 (m + 1) p m).flatMap fun r => (upTo r.2).map (r.1 + ·)
  let bad := ds.filter fun a => ss.any fun r => decide (r.1 ≤ a) && decide (a < r.1 + r.2)
  if bad.isEmpty then w
  else w.scramble (bad.filterMap fun a => (Who.cul c).phys a)

/-- A channel's descriptor advances by `m` stream bytes: the reads that begin among them, then the writes whose bytes
have all been read (notes/assumptions/17). What was read and not yet written stays in the funnel (11 R418, R419). -/
def W.culMove (w : W) (c n m : Nat) : W :=
  let x := w.ch c n
  let p := x.pos
  let q := x.port + m
  let (node, ch) := culNet c n
  let (w, bs, re) := if x.snet then
      let (w, bs) := w.takeFlits (32 * node + ch) (m / 16)
      (w, bs, none)
    else w.culRead (culReq c n) (x.accs 0x0C 0x1C (p + x.buf.length) q)
  let buf := x.buf ++ bs
  let w := w.setCh c n { w.ch c n with port := q, moved := true }
  let (w, we) := if x.dnet then
      let k := min buf.length (q - p) / 16 * 16
      (((w.sendFlits c n x (k / 16) p buf).setCh c n { w.ch c n with pos := p + k }), none)
    else w.culWrite c n ((x.accs 0x10 0x28 p q).filter fun a => decide (a.1 + a.2.2 ≤ min q (p + buf.length))) buf
  let y := w.ch c n
  if !y.holds then w
  else
    let k := y.pos - p
    let w := if !x.snet && !x.dnet then w.overlapFree c x p k else w
    let (crc, odd) := (buf.take k).foldl (checkByte x.chkKind) (x.crc, x.odd)
    let fail := match we with | some e => some e | none => re
    let w := w.setCh c n { y with buf := buf.drop k, crc := crc, odd := odd, fail := fail }
    if fail.isSome then w.restFree c x y.pos else w

/-! ### Fetch -/

/-- A channel's descriptor could not be read (11 R429, R431). -/
def W.culFault (w : W) (c n a : Nat) (st : St) : W :=
  (w.setCh c n { w.ch c n with st := 7, code := st.code, cur := a, desc := [], halt := false }).culEvent c n st 5 a

/-- A channel is HALTED (11 R429, R432). -/
def W.culHalted (w : W) (c n : Nat) (atNext : Bool) : W :=
  let x := w.ch c n
  let a := if x.direct then 0 else if atNext then x.cur else x.nxt
  (w.setCh c n { x with st := 6, atNext := atNext, halt := false }).culEvent c n .ok 4 a

/-- A channel reads the NEXT word of its current descriptor: it goes on at the next one, or parks, or is halted
(11 R426, R430, R432, R436). -/
def W.culNext (w : W) (c n : Nat) (halt : Bool) : W :=
  let x := w.ch c n
  let w := w.setCh c n { x with dbpend := false }
  match w.busRd (culReq c n) (x.cur + 4) 4 with
  | (w, .error e) => w.culFault c n x.cur e
  | (w, .ok bs) =>
    let v := w32 (leNat bs)
    let x := w.ch c n
    if wbit v 0 then
      if halt then w.culHalted c n true else w.setCh c n { x with st := 4, atNext := true, desc := [] }
    else
      let w := w.setCh c n { x with st := 1, nxt := wf v 31 6 * 64, atNext := false, desc := [] }
      if halt then w.culHalted c n false else w

/-- A descriptor's end, good or bad, and what the channel does then (11 R426, R429, R430). -/
def W.culEnd (w : W) (c n : Nat) (st : St) (done : Nat) (check : Option Word) : W :=
  let x := w.ch c n
  let w := w.descReport c n st done check
  let w := w.bump (culReg c n + 0x68)
  let desc := if x.direct then 0 else x.cur
  let w := if st = .ok then (if wbit x.ctrl 31 then w.culEvent c n .ok 1 desc else w)
    else (w.bump (culReg c n + 0x6C)).culEvent c n st 2 desc
  let w := (w.setCh c n { w.ch c n with moved := false }).camConsume c n
  let halt := x.halt || (decide (st ≠ .ok) && wbit x.ctrl 29)
  if x.direct then
    if halt then w.culHalted c n true else w.setCh c n { (w.ch c n) with st := 0, direct := false, desc := [] }
  else w.culNext c n halt

/-- A channel fetches the descriptor at an address, checks it, and is READY, parks or completes it as failed (11
R413, R415, R430, R431, R436). -/
def W.culFetch (w : W) (c n a : Nat) : W :=
  match mtxMap a with
  | .reg _ | .annex _ => w.culFault c n a .busError
  | _ =>
    match w.busRd (culReq c n) a 64 with
    | (w, .error e) => w.culFault c n a e
    | (w, .ok bs) =>
      let x := { w.ch c n with desc := wordsOf 16 bs, nxt := a, atNext := false }
      if !wbit (x.dw 0) 31 then w.setCh c n { x with st := 4, cur := a }
      else
        match x.descCheck c n with
        | some (_, st) => (w.setCh c n { x with st := 2, cur := a, pos := 0 }).culEnd c n st 0 none
        | none => w.setCh c n { x with st := 1 }

/-- DESCRIPTOR_FETCH: a channel whose next descriptor is not read yet reads it; a parked one with a doorbell
pending repeats the read that parked it (11 R415, R436). -/
def W.descFetch (w : W) (c n : Nat) : W :=
  let x := w.ch c n
  if x.direct ∨ 28 ≤ c then w
  else if x.st = 1 ∧ x.desc.isEmpty then w.culFetch c n x.nxt
  else if x.st = 4 ∧ x.dbpend then
    if x.atNext then w.culNext c n false
    else W.culFetch (w.setCh c n { x with dbpend := false }) c n x.cur
  else w

/-! ### Running -/

/-- The highest READY channel that is eligible (11 R423). -/
def Dev.culPick (d : Dev) (c : Nat) : Option Nat :=
  ((upTo 16).reverse).find? fun n =>
    let x := d.ch c n
    decide (x.st = 1) && !x.desc.isEmpty && (!x.paced || x.req)

/-- The channel whose descriptor holds the culvert (11 R422). -/
def Dev.culHolder (d : Dev) (c : Nat) : Option Nat := (upTo 16).find? fun n => (d.ch c n).holds

/-- DESCRIPTOR_START: an idle culvert takes a descriptor; one that is neither paced nor bound to the network moves
whole (11 R423). `up` upsets the double of its first source byte (notes/assumptions/20). -/
def W.descStart (w : W) (c up : Nat) : W :=
  if 28 ≤ c ∨ (w.culHolder c).isSome ∨ w.diked (.cul c) 0 then w
  else
    match w.culPick c with
    | none => w
    | some n =>
      let x := w.ch c n
      let x := { x with st := 2, cur := if x.direct then 0 else x.nxt, pos := 0, port := 0, buf := [], crc := x.checkInit, odd := none
                        fail := none, moved := false, last := none }
      let w := w.setCh c n x
      if x.paced || x.snet || x.dnet then w
      else (w.upset (.cul c) (x.elemAt 0x0C 0x1C 0) up).culMove c n x.total

/-- PORTION_START: the descriptor that holds a culvert moves its next portion of 256 bytes, or waits for its request
or for the network (11 R421, R424, R425). -/
def W.portionStart (w : W) (c : Nat) : W :=
  match w.culHolder c with
  | none => w
  | some n =>
    let x := w.ch c n
    if 28 ≤ c ∨ x.fail.isSome ∨ x.total ≤ x.port then w
    else
      let wait : W := w.setCh c n { x with st := if x.st = 5 then 5 else 3, moved := false }
      let m := w.netRoom c n x (min (256 - x.port % 256) (x.total - x.port))
      if (x.paced && decide (x.port % 256 = 0) && !x.req) || decide (m = 0) then wait
      else (w.setCh c n { x with st := if x.st = 5 then 5 else 2 }).culMove c n m

/-- The read-back of the word that holds the last byte written (11 R427). -/
def W.readBack (w : W) (c n : Nat) (x : Chan) (last : Option Nat) : W × Option St :=
  match last with
  | none => (w, none)
  | some a =>
    match x.dnet, mtxMap a with
    | true, _ => (w, none)
    | _, .reg _ => (w, none)
    | _, _ =>
      match w.busRd (culReq c n) (a / 4 * 4) 4 with
      | (w, .ok _) => (w, none)
      | (w, .error e) => (w, some e)

/-- The check value written after the last element (11 R428): the error of the write, and the last byte. -/
def W.appendCheck (w : W) (c n : Nat) (x : Chan) (v : Nat) : W × Option St × Option Nat :=
  if !x.append then (w, none, x.last)
  else
    let size := if x.chkKind = 1 then 4 else 2
    let a := x.elemAt 0x10 0x28 (x.total / x.esize - 1) + x.esize
    let (w, e) := w.culWrite c n ((accessesOf 5 a size).map fun c => (0, c)) (leBytes size v)
    (w, e, some ((a + size - 1) % 2 ^ 32))

/-- DESCRIPTOR_COMPLETE: the descriptor that holds a culvert has moved every byte or has failed (11 R426 to
R430). -/
def W.descComplete (w : W) (c : Nat) : W :=
  match w.culHolder c with
  | none => w
  | some n =>
    let x := w.ch c n
    if 28 ≤ c then w
    else
      match x.fail with
      | some e => w.culEnd c n e x.pos none
      | none =>
        if x.port < x.total then w
        else
          let v := checkEnd x.chkKind (x.crc, x.odd)
          match w.appendCheck c n x v with
          | (w, some e, _) => w.culEnd c n e x.pos none
          | (w, none, last) =>
            if !(w.ch c n).holds then w
            else
            match w.readBack c n x last with
            | (w, some e) => (w.restFree c x x.pos).culEnd c n e x.pos none
            | (w, none) => w.culEnd c n .ok x.pos (if x.chkKind = 0 then none else some (w32 v))

/-! ### Commits -/

/-- A channel commit (11 R432, R433, R440). RESUME goes on at the next descriptor: in direct mode that is the staged one
where HALT stopped it READY, and there is none once it has run (11 R416, R422). -/
def culWork (c n : Nat) (w : W) (k : Com) : Except Fin3 (W × Nat) := do
  let cmd := k.get (culReg c n + 0x40)
  let act := wf cmd 27 24
  let x := w.ch c n
  chk (decide (act = 0) || decide (4 < act) || decide (wf cmd 31 28 ≠ 0) || decide (wf cmd 23 0 ≠ 0)) .badValue 1
  chk ((decide (act ≤ 2) && decide (x.st ≠ 0)) || (decide (act = 4) && decide (x.st ≠ 6))) .badValue 2
  match act with
  | 1 =>
    let y : Chan := { x with direct := true, desc := (upTo 16).map fun i => k.get (culReg c n + 4 * i), st := 1, cur := 0, nxt := 0, atNext := false }
    match y.descCheck c n with
    | some (i, st) => .error { st := st, check := 4, index := i }
    | none => pure (w.setCh c n y, 0)
  | 2 =>
    let a := (k.get (culReg c n + 0x44)).toNat
    chk (decide (a % 64 ≠ 0)) .badValue 3
    pure ((w.setCh c n { x with direct := false, st := 1, nxt := a }).culFetch c n a, 0)
  | 3 =>
    if x.st = 1 then pure (w.culHalted c n false, 0)
    else if x.st = 4 then pure (W.culHalted (w.setCh c n { x with nxt := x.cur }) c n x.atNext, 0)
    else if x.st = 2 ∨ x.st = 3 then pure (w.setCh c n { x with st := 5, halt := true }, 0)
    else pure (w, 0)
  | _ =>
    if x.direct then
      pure (w.setCh c n (if x.atNext then { x with st := 0, direct := false, desc := [] } else { x with st := 1 }), 0)
    else if x.atNext then pure (w.culNext c n false, 0)
    else pure (w.culFetch c n x.nxt, 0)

/-- The action that the channel commit under way names. -/
def Dev.culAction (d : Dev) (c n : Nat) : Nat := wf ((d.cm (.cul c n)).get (culReg c n + 0x40)) 27 24

end Sys2Proof.Machine
end

