-- ==== Sys2Proof/Machine/Frame.lean ====
section
/-! DEFINITION. The start of a tide frame (01 R27, R31): the plan swap, the fallback swap, the join, and
the changes of operating point. -/

namespace Sys2Proof.Machine

/-- The entries that wait for a lowered point that has taken effect are admitted and charged at it, where
R519 (13) still lets them be. -/
def W.admitLowered (w : W) (p : Nat) : W :=
  let x := w.pol p
  match x.ceil with
  | some (o, j) =>
    if x.cur ≠ o ∨ x.goal.isSome ∨ w.weir.lim then w
    else
      let take (w : W) (i : Nat) : W :=
        let y := w.dsp (dispKey p i)
        if decide (y.st = 1) && w.banksOn p && w.inService (y.eng p) then
          match w.freeThread p y with
          | some t => w.admitJob p i o t
          | none => w.jobWait p i 2
        else w
      let w := take w j
      if (w.dsp (dispKey p j)).st = 1 then w
      else
        let w := x.more.foldl take w
        w.setPol p { w.pol p with ceil := none, more := [], ceilRun := some (o, j) }
  | none => w

/-- The change of operating point of polder `p` that is due at a frame boundary (13 R504): after a supply
warning the point that it had before (R527), otherwise a pending point whose voltage has settled; after a
lowering the regulator goes down to the higher of the new point's voltage and VHOLD. The floor in force from this
boundary on bounds a lowering that was chosen under the floor before it (R506; 01 R31). -/
def W.opSwitch (w : W) (p : Nat) : W :=
  let x := w.pol p
  match x.resume with
  | some b =>
    if w.weir.dip.isSome then w
    else
      let w := w.setPol p { x with resume := none, goal := none }
      if b = x.cur then w else w.setOp p b
  | none =>
    if x.ready then
      let b := max (x.goal.getD x.cur) (min (w.floor p) x.cur)
      let v := max b (wf (w.polCfg p 1) 14 12)
      let w := w.setPol p { x with goal := none, vgo := if b < x.cur ∧ v < x.volt then some v else x.vgo }
      if b = x.cur then w else w.setOp p b
    else w

/-- A lowered point below the floor that is now in force can no longer take effect: the entries that wait for it
are tested again (13 R506, R519; 01 R31). -/
def W.ceilFloor (w : W) (p : Nat) : W :=
  let x := w.pol p
  match x.ceil with
  | some (o, _) => if o < w.floor p then w.setPol p { x with ceil := none, more := [] } else w
  | none => w

/-- An image's floor counts from the frame boundary at which its raise has taken effect (13 R505). -/
def W.imageFloor (w : W) (p : Nat) : W :=
  let x := w.pol p
  match x.imgPend with
  | some f => if f ≤ x.cur then w.setPol p { x with img := f, imgPend := none } else w
  | none => w

/-- The start of frame `f`: plan swap and fallback swap, join (14, *Coinciding happenings*), operating
points under the incoming plan's floors (01 R31); a polder that a swap leaves below its floor is
reported (13 R506). -/
def W.frameBoundary (w : W) (f : Nat) : W :=
  if 1024 * f < w.now then w
  else
    let w := w.toTime (1024 * f)
    let swaps := match w.net.armed with | some (_, sf) => decide (sf ≤ f) | none => false
    let w := w.planSwap f
    let w := if swaps then w.fallbackSwap f else w
    let w := w.joinApply f
    (upTo 24).foldl (fun w p =>
      let w := (((w.opSwitch p).imageFloor p).ceilFloor p).admitLowered p
      if swaps && decide ((w.pol p).cur < w.floor p) then w.breach p else w) w

end Sys2Proof.Machine
end

