-- ==== Sys2Proof/WellFormed.lean ====
section
/-! DEFINITION. Which operands a command admits: the ranges that the spec gives them. A command with others
has no effect (notes/assumptions/1). -/

namespace Sys2Proof

/-- An engine: 0 to 191, or 192 for the two keepers in lockstep (00 R21; notes/assumptions/12). -/
def engOk (e : Nat) : Bool := decide (e ≤ 192)

/-- A thread of an engine (02 R61). -/
def thrOk (e t : Nat) : Bool := engOk e && decide (t < 4)

/-- The even member of a register pair (04 R152). -/
def pairOk (dr : Nat) : Bool := decide (dr < 32) && decide (dr % 2 = 0)

/-- A device physical address of a double, the instruction memory of the keepers included (09 R331). -/
def physOk (pa : Nat) : Bool := decide (pa < 2 ^ 33)

/-- A polder (00 R21). -/
def polOk (p : Nat) : Bool := decide (p < 24)

/-- A memory domain: a polder or the reservoir (09 R331). -/
def domOk (d : Nat) : Bool := decide (d ≤ 24)

/-- A channel of a node of the slot network (10 R366). -/
def chanOk (n ch : Nat) : Bool := decide (n < 30) && decide (ch < 32)

/-- A channel of a culvert (11 R409). -/
def culOk (c n : Nat) : Bool := decide (c < 28) && decide (n < 16)

/-- A T-pin (12 R470). -/
def pinOk (n : Nat) : Bool := decide (n < 192)

/-- A drive link (12 R489). -/
def linkOk (n : Nat) : Bool := decide (n < 48)

/-- A unit of fault continuity: an engine, or 256 and the number of a polder (14 R536). -/
def unitOk (u : Nat) : Bool := decide (u < 192) || (decide (256 ≤ u) && decide (u < 280))

/-- An Ethernet port (15 R568). -/
def ethOk (n : Nat) : Bool := decide (n < 8)

/-- A camera input (15 R579). -/
def csiOk (n : Nat) : Bool := decide (n < 4)

/-- A requester that exists, at one of the four rings (08 R276; 10 R393). -/
def byOk (r : By) : Bool :=
  decide (r.ring < 4) &&
  match r.who with
  | .engine e => decide (e < 192)
  | .culvert c => decide (c < 28)
  | _ => true

/-- A commit block that exists. -/
def blkOk (b : Blk) : Bool :=
  match b with
  | .tbl e | .rng e => engOk e
  | .pat d | .memCfg d => domOk d
  | .cul c n => culOk c n
  | .tio n => pinOk n
  | .dlk n => linkOk n
  | .eth n => ethOk n
  | .csi n => csiOk n
  | _ => true

/-- Whether the operands of a command lie in the ranges that the spec gives them. -/
def Instr.wellFormed (i : Instr) : Bool :=
  match i with
  | .bundleIssue e t _ late => thrOk e t && decide (late < 65536)
  | .rep e t => thrOk e t
  | .operationResult e t unit lost => thrOk e t && decide (unit < 14) && decide (lost < 65536)
  | .loadResponse e t i upset lost => thrOk e t && decide (i < 65536) && decide (upset ≤ 2) && decide (lost < 65536)
  | .eccWriteback pa => physOk pa
  | .storeDrain e t i lost _ => thrOk e t && decide (i < 8) && decide (lost < 65536)
  | .add e t u pd _ _ => thrOk e t && decide (u < 2) && decide (pd < 8)
  | .sub e t u pd _ _ => thrOk e t && decide (u < 2) && decide (pd < 8)
  | .addc e t u pd _ _ => thrOk e t && decide (u < 2) && decide (pd < 8)
  | .subb e t u pd _ _ => thrOk e t && decide (u < 2) && decide (pd < 8)
  | .adds e t u _ _ => thrOk e t && decide (u < 2)
  | .subs e t u _ _ => thrOk e t && decide (u < 2)
  | .neg e t u _ _ => thrOk e t && decide (u < 2)
  | .abs e t u _ _ => thrOk e t && decide (u < 2)
  | .and e t u _ _ => thrOk e t && decide (u < 2)
  | .or e t u _ _ => thrOk e t && decide (u < 2)
  | .xor e t u _ _ => thrOk e t && decide (u < 2)
  | .andn e t u _ _ => thrOk e t && decide (u < 2)
  | .not e t u _ _ => thrOk e t && decide (u < 2)
  | .shl e t u _ _ => thrOk e t && decide (u < 2)
  | .shr e t u _ _ => thrOk e t && decide (u < 2)
  | .sar e t u _ _ => thrOk e t && decide (u < 2)
  | .rol e t u _ _ => thrOk e t && decide (u < 2)
  | .ror e t u _ _ => thrOk e t && decide (u < 2)
  | .min e t u _ _ => thrOk e t && decide (u < 2)
  | .max e t u _ _ => thrOk e t && decide (u < 2)
  | .minu e t u _ _ => thrOk e t && decide (u < 2)
  | .maxu e t u _ _ => thrOk e t && decide (u < 2)
  | .sats e t u _ _ => thrOk e t && decide (u < 2)
  | .satu e t u _ _ => thrOk e t && decide (u < 2)
  | .sextb e t u _ _ => thrOk e t && decide (u < 2)
  | .sexth e t u _ _ => thrOk e t && decide (u < 2)
  | .zextb e t u _ _ => thrOk e t && decide (u < 2)
  | .zexth e t u _ _ => thrOk e t && decide (u < 2)
  | .clz e t u _ _ => thrOk e t && decide (u < 2)
  | .popc e t u _ _ => thrOk e t && decide (u < 2)
  | .cmpeq e t u pd _ _ => thrOk e t && decide (u < 2) && decide (pd < 8)
  | .cmpne e t u pd _ _ => thrOk e t && decide (u < 2) && decide (pd < 8)
  | .cmplt e t u pd _ _ => thrOk e t && decide (u < 2) && decide (pd < 8)
  | .cmple e t u pd _ _ => thrOk e t && decide (u < 2) && decide (pd < 8)
  | .cmpgt e t u pd _ _ => thrOk e t && decide (u < 2) && decide (pd < 8)
  | .cmpge e t u pd _ _ => thrOk e t && decide (u < 2) && decide (pd < 8)
  | .cmpltu e t u pd _ _ => thrOk e t && decide (u < 2) && decide (pd < 8)
  | .cmpleu e t u pd _ _ => thrOk e t && decide (u < 2) && decide (pd < 8)
  | .cmpgtu e t u pd _ _ => thrOk e t && decide (u < 2) && decide (pd < 8)
  | .cmpgeu e t u pd _ _ => thrOk e t && decide (u < 2) && decide (pd < 8)
  | .tstz e t u pd _ _ => thrOk e t && decide (u < 2) && decide (pd < 8)
  | .tstnz e t u pd _ _ => thrOk e t && decide (u < 2) && decide (pd < 8)
  | .lea e t ar _ => thrOk e t && decide (ar < 16)
  | .aadd e t ar _ => thrOk e t && decide (ar < 16)
  | .amod e t ar ab _ _ => thrOk e t && decide (ar < 16) && decide (ab < 16)
  | .muls e t _ _ => thrOk e t
  | .mulu e t _ _ => thrOk e t
  | .mulsu e t _ _ => thrOk e t
  | .mulq e t sh _ _ => thrOk e t && decide (sh < 32)
  | .divs e t _ _ => thrOk e t
  | .divu e t _ _ => thrOk e t
  | .mac16 e t xa qa qb _ => thrOk e t && decide (xa < 4) && decide (qa < 8) && decide (qb < 8)
  | .mac8ss e t xa qa qb _ => thrOk e t && decide (xa < 4) && decide (qa < 8) && decide (qb < 8)
  | .mac8us e t xa qa qb _ => thrOk e t && decide (xa < 4) && decide (qa < 8) && decide (qb < 8)
  | .mac8uu e t xa qa qb _ => thrOk e t && decide (xa < 4) && decide (qa < 8) && decide (qb < 8)
  | .nars16 e t xa qd _ => thrOk e t && decide (xa < 4) && decide (qd < 8)
  | .nars8 e t xa qd _ => thrOk e t && decide (xa < 4) && decide (qd < 8)
  | .naru8 e t xa qd _ => thrOk e t && decide (xa < 4) && decide (qd < 8)
  | .packs8 e t qa qb qd => thrOk e t && decide (qa < 8) && decide (qb < 8) && decide (qd < 8)
  | .packu8 e t qa qb qd => thrOk e t && decide (qa < 8) && decide (qb < 8) && decide (qd < 8)
  | .unpkl8 e t qa qd => thrOk e t && decide (qa < 8) && decide (qd < 8)
  | .unpkh8 e t qa qd => thrOk e t && decide (qa < 8) && decide (qd < 8)
  | .unpklu8 e t qa qd => thrOk e t && decide (qa < 8) && decide (qd < 8)
  | .unpkhu8 e t qa qd => thrOk e t && decide (qa < 8) && decide (qd < 8)
  | .xlane e t xa _ => thrOk e t && decide (xa < 4)
  | .dadd e t pd _ _ => thrOk e t && decide (pd < 8)
  | .dsub e t pd _ _ => thrOk e t && decide (pd < 8)
  | .dadj e t pd _ _ => thrOk e t && decide (pd < 8)
  | .b2d e t _ _ => thrOk e t
  | .d2b e t _ _ => thrOk e t
  | .dshl e t _ _ => thrOk e t
  | .dshr e t _ _ => thrOk e t
  | .ldb e t u ar _ _ => thrOk e t && decide (u < 2) && decide (ar < 16)
  | .ldbu e t u ar _ _ => thrOk e t && decide (u < 2) && decide (ar < 16)
  | .ldh e t u ar _ _ => thrOk e t && decide (u < 2) && decide (ar < 16)
  | .ldhu e t u ar _ _ => thrOk e t && decide (u < 2) && decide (ar < 16)
  | .ldw e t u ar _ _ => thrOk e t && decide (u < 2) && decide (ar < 16)
  | .ldd e t u dr ar _ _ => thrOk e t && decide (u < 2) && pairOk dr && decide (ar < 16)
  | .stb e t u ar _ _ _ => thrOk e t && decide (u < 2) && decide (ar < 16)
  | .sth e t u ar _ _ _ => thrOk e t && decide (u < 2) && decide (ar < 16)
  | .stw e t u ar _ _ _ => thrOk e t && decide (u < 2) && decide (ar < 16)
  | .std e t u dr ar _ _ => thrOk e t && decide (u < 2) && pairOk dr && decide (ar < 16)
  | .afadd e t u ar _ _ => thrOk e t && decide (u < 2) && decide (ar < 16)
  | .aswap e t u ar _ _ => thrOk e t && decide (u < 2) && decide (ar < 16)
  | .acas e t u dr ar _ _ => thrOk e t && decide (u < 2) && decide (dr < 32) && decide (ar < 16)
  | .br e t _ _ _ => thrOk e t
  | .jl e t _ _ _ => thrOk e t
  | .cbrEq e t _ _ _ imm => thrOk e t && decide (imm < 65536)
  | .cbrNe e t _ _ _ imm => thrOk e t && decide (imm < 65536)
  | .cbrLt e t _ _ _ imm => thrOk e t && decide (imm < 65536)
  | .cbrGe e t _ _ _ imm => thrOk e t && decide (imm < 65536)
  | .cbrLtu e t _ _ _ imm => thrOk e t && decide (imm < 65536)
  | .cbrGeu e t _ _ _ imm => thrOk e t && decide (imm < 65536)
  | .enterS e t _ _ => thrOk e t
  | .mfc e t n _ => thrOk e t && decide (n < 32)
  | .mtc e t n _ _ => thrOk e t && decide (n < 32)
  | .tstart e t _ _ _ => thrOk e t
  | .tstop e t _ _ => thrOk e t
  | .gate e t n _ => thrOk e t && decide (n < 256)
  | .retg e t _ => thrOk e t
  | .retx e t _ => thrOk e t
  | .iflush e t _ _ => thrOk e t
  | .syncM e t _ => thrOk e t
  | .fenceA e t _ => thrOk e t
  | .eval e t cs _ => thrOk e t && decide (cs < 16)
  | .beat e t bg _ => thrOk e t && decide (bg < 16)
  | .step e t sl pd _ _ => thrOk e t && decide (sl < 16) && decide (pd < 8)
  | .tbla e t sl kd => thrOk e t && decide (sl < 16) && decide (kd < 4)
  | .send e t ch q _ => thrOk e t && decide (ch < 4) && decide (q < 8)
  | .recv e t ch pd => thrOk e t && decide (ch < 4) && decide (pd < 8)
  | .rpoll e t ch pd => thrOk e t && decide (ch < 4) && decide (pd < 8)
  | .rskip e t ch => thrOk e t && decide (ch < 4)
  | .take e t pd => thrOk e t && decide (pd < 8)
  | .wait e t pd _ => thrOk e t && decide (pd < 8)
  | .evqWaitTimeout e t => thrOk e t
  | .poll e t pd => thrOk e t && decide (pd < 8)
  | .ring e t dr _ => thrOk e t && decide (dr < 32)
  | .hash e t _ => thrOk e t
  | .verify e t _ => thrOk e t
  | .hashVerify e t _ => thrOk e t
  | .hvJobComplete p => decide (p ≤ 24)
  | .uxOperation e t u ws => thrOk e t && decide (u < 6) && decide (ws.length ≤ 4)
  | .stkPushs e t => thrOk e t
  | .stkPushw e t => thrOk e t
  | .stkLdb e t => thrOk e t
  | .stkLdbu e t => thrOk e t
  | .stkLdh e t => thrOk e t
  | .stkLdhu e t => thrOk e t
  | .stkLdw e t => thrOk e t
  | .stkStb e t => thrOk e t
  | .stkSth e t => thrOk e t
  | .stkStw e t => thrOk e t
  | .stkAdd e t => thrOk e t
  | .stkSub e t => thrOk e t
  | .stkAnd e t => thrOk e t
  | .stkOr e t => thrOk e t
  | .stkXor e t => thrOk e t
  | .stkShl e t => thrOk e t
  | .stkShr e t => thrOk e t
  | .stkSar e t => thrOk e t
  | .stkRol e t => thrOk e t
  | .stkMin e t => thrOk e t
  | .stkMax e t => thrOk e t
  | .stkEq e t => thrOk e t
  | .stkNe e t => thrOk e t
  | .stkLt e t => thrOk e t
  | .stkLtu e t => thrOk e t
  | .stkNot e t => thrOk e t
  | .stkNeg e t => thrOk e t
  | .stkNop e t => thrOk e t
  | .stkDup e t => thrOk e t
  | .stkDrop e t => thrOk e t
  | .stkSwap e t => thrOk e t
  | .stkOver e t => thrOk e t
  | .stkRot e t => thrOk e t
  | .stkSrc e t => thrOk e t
  | .stkDst e t => thrOk e t
  | .stkMfc e t => thrOk e t
  | .stkMtc e t => thrOk e t
  | .stkCbrAl e t => thrOk e t
  | .stkCbrCond e t => thrOk e t
  | .stkCall e t => thrOk e t
  | .stkRet e t => thrOk e t
  | .stkLeave e t => thrOk e t
  | .stkHalt e t => thrOk e t
  | .stkIflush e t => thrOk e t
  | .stkSyncM e t => thrOk e t
  | .stkFenceA e t => thrOk e t
  | .exceptionEntry e t => thrOk e t
  | .watchdogExpiry e t => thrOk e t
  | .registerWrite r _ _ => byOk r
  | .rclrRead r _ => byOk r
  | .latchedRead r _ => byOk r
  | .commitComplete b _ _ => blkOk b
  | .tideFrameBoundary _ => true
  | .tblInstall e => engOk e
  | .tblDisarm e => engOk e
  | .tblRemove e => engOk e
  | .tblRelease e => engOk e
  | .tblReleaseTime e => engOk e
  | .rngCommit e => engOk e
  | .patrolStart d => domOk d
  | .patrolStop d => domOk d
  | .patrolBlock d _ _ => domOk d
  | .memCfgCommit d => domOk d
  | .bankTransitionDone d b => domOk d && decide (b < 64)
  | .slotLoad => true
  | .slotCheck => true
  | .slotDisarm => true
  | .reservationOccurrence _ _ => true
  | .messageArrival n ch src sch _ => chanOk n ch && chanOk src sch
  | .bestEffortMessage n ch => chanOk n ch
  | .matrixRequest r _ _ _ => byOk r
  | .matrixResponse r target _ upset _ _ => byOk r && decide (target ≤ 63) && decide (upset ≤ 2)
  | .mtxCommit => true
  | .culStart c n => culOk c n
  | .culChain c n => culOk c n
  | .culHalt c n => culOk c n
  | .culResume c n => culOk c n
  | .culDoorbell r c _ => byOk r && decide (c < 28)
  | .culDisable r c _ => byOk r && decide (c < 28)
  | .descriptorFetch c n => culOk c n
  | .descriptorStart c upset => decide (c < 28) && decide (upset ≤ 2)
  | .portionStart c => decide (c < 28)
  | .culvertRequestChange c n _ => culOk c n
  | .descriptorComplete c => decide (c < 28)
  | .eventDelivery src e t => decide (src < 2048) && thrOk e t
  | .evrRouteCommit => true
  | .evrDoorbellWrite r n _ => byOk r && decide (n < 256)
  | .tideSource => true
  | .tideAdjust => true
  | .tideStep => true
  | .tideState => true
  | .tideComparatorEnable => true
  | .tideComparatorDisable => true
  | .comparatorFire c => decide (c < 30)
  | .ppsEdge frac => decide (frac < 4)
  | .holdoverTimeout => true
  | .tioConfigure n => pinOk n
  | .tioJoin n => pinOk n
  | .tioFlush n => pinOk n
  | .tioPush r n _ _ tag => byOk r && pinOk n && decide (tag < 256)
  | .tioWithdraw r n _ => byOk r && pinOk n
  | .edgeFire n => pinOk n
  | .safeDrive n => pinOk n
  | .captureEdge n _ _ frac => pinOk n && decide (frac < 4)
  | .capPop r n => byOk r && pinOk n
  | .encoderCount n _ _ => pinOk n
  | .encoderSample n _ => pinOk n
  | .pwmPeriod n _ => pinOk n
  | .ssiFrame n _ _ _ => pinOk n
  | .dlkStart n => linkOk n
  | .dlkTables n => linkOk n
  | .dlkStop n => linkOk n
  | .dlkDisarm n => linkOk n
  | .dlkJoin n => linkOk n
  | .dlkPush r n _ tag => byOk r && linkOk n && decide (tag < 65536)
  | .dlkWithdraw r n _ => byOk r && linkOk n
  | .dlkExchange n => linkOk n
  | .dlkFrameReceived n _ _ _ => linkOk n
  | .dlkRxTimeout n => linkOk n
  | .weirPeriodBoundary _ temps pols => decide (temps.length = 32) && decide (pols.length = 24)
  | .weirGrantApply => true
  | .thermalTrip also => decide (also < 64)
  | .scaleUpdate => true
  | .dispatchEntryWrite r p j o _ => byOk r && polOk p && decide (j < 256) && decide (o < 64)
  | .jobRelease p j => polOk p && decide (j < 256)
  | .jobAdmit p => polOk p
  | .jobStart p j => polOk p && decide (j < 256)
  | .jobDeadline p j => polOk p && decide (j < 256)
  | .regulatorSettled p => polOk p
  | .weirCommit => true
  | .supplyWarning => true
  | .supplyWarningEnd minMv _ => decide (minMv < 65536)
  | .supplyReset minMv also => decide (minMv < 65536) && decide (also < 64)
  | .powerFault p _ => polOk p
  | .closureComplete u => unitOk u
  | .pldWdtWrite r e t _ => byOk r && engOk e && decide (t < 4)
  | .keeperMismatch _ => true
  | .keeperResyncDone => true
  | .fltClose => true
  | .fltReset => true
  | .fltReadmit => true
  | .fltJoin => true
  | .fltDisarm => true
  | .fltConfig => true
  | .ethConfig n => ethOk n
  | .ethDisarm n => ethOk n
  | .ethLinkreset n => ethOk n
  | .ethConfigSwap n => ethOk n
  | .ethDbWrite r n _ => byOk r && ethOk n
  | .ethFrameReceived n _ _ _ => ethOk n
  | .ethFrameSent n q _ _ => ethOk n && decide (q < 8)
  | .cyclicBuild n _ _ => ethOk n
  | .cyclicEnqueue n _ => ethOk n
  | .ethLinkChange n kind => ethOk n && decide (1 ≤ kind) && decide (kind ≤ 4)
  | .strCommit => true
  | .csiCommit n => csiOk n
  | .frameStart n v num _ _ => csiOk n && decide (v < 4) && decide (num < 65536)
  | .frameEnd n v num _ _ => csiOk n && decide (v < 4) && decide (num < 65536)
  | .csiLine n v dt _ _ _ => csiOk n && decide (v < 4) && decide (dt < 64)
  | .pcieInbound _ _ len _ _ _ => decide (len ≤ 4096)
  | .outboundTimeout => true
  | .pcieEventForward v => decide (v < 64)
  | .pcieLinkChange width speed => decide (width ≤ 4) && decide (speed ≤ 4)
  | .desc u _ => decide (u < 6)
  | .ready => true
  | .res u e t _ _ _ => decide (u < 6) && thrOk e t
  | .cred u _ => decide (u < 6)
  | .rdresp tag _ _ => decide (tag < 256)
  | .wrack tag _ => decide (tag < 256)
  | .annexRequestTimeout => true
  | .anxCtrlWrite r _ => byOk r
  | .vltWrite _ => true
  | .vltRead _ => true
  | .vltDelete _ => true
  | .vltAppend _ => true
  | .vltStat _ => true
  | .vltLoad _ => true
  | .vltTable _ => true
  | .vltFormat _ => true
  | .vltScrub _ => true
  | .vltConfig _ => true
  | .scrubPeriod _ => true
  | .vaultBackgroundMove _ => true
  | .powerOnReset also => decide (also < 64)
  | .pinReset also => decide (also < 64)
  | .softwareReset r => byOk r
  | .debugReset r => byOk r
  | .resetRelease pins _ _ _ _ => decide (pins < 8)
  | .bootFirmware _ _ => true
  | .pcieBoot _ => true
  | .sysStartCommit => true
  | .engineStart => true
  | .bistEngine => true
  | .bistPolder _ => true
  | .bistSerdes => true
  | .otpProgram => true
  | .dbgHalt => true
  | .dbgResume => true
  | .dbgStep => true
  | .dbgTswWrite r o _ => byOk r && decide (o < 512) && decide (o % 4 = 0)
  | .dbgUnlock r _ => byOk r
  | .dbgTrcctrlWrite r p _ => byOk r && polOk p
  | .dapRead a => decide (a < 2 ^ 32)
  | .dapWrite a _ => decide (a < 2 ^ 32)
  | .extest _ => true
  | .idcode => true
  | .samplePreload _ => true
  | .clamp => true
  | .highz => true
  | .dapacc => true
  | .bypass => true
  | .stkIllegalInstruction e t => thrOk e t
  | .annexPacketError code => decide (code = 1) || decide (code = 2)
  | .csiPacketDrop n v _ => csiOk n && decide (v < 4)
  | .csiPhyError n mask => csiOk n && decide (mask < 16)
  | .gateControlListInterval n => ethOk n
  | .tapReset => true

end Sys2Proof
end

