-- ==== Sys2Proof/Machine/Run.lean ====
section
/-! DEFINITION. How a command runs: while no reset is asserted, on well-formed operands, with the fault
controller's answer to the signals it raised; and the shared parts of the commands' meanings. -/

namespace Sys2Proof.Machine

/-- The fault controller acts on the signals of a command (14 R537, R542), and the floors of a plan that it
armed count (13 R506). -/
def W.settle (w : W) : W := if w.sig.isEmpty then w else w.faults.raiseFloors

/-- A command of the working device: while a reset is asserted, or where the operands are ill-formed, it
does nothing (17 R630; notes/assumptions/1). -/
def run (ok : Bool) (f : W → W) (s : State) : Host.Outcome State Fault Refusal :=
  runW (fun w => if w.sys.held || !ok then w else (f w).settle) s

/-- A command that also acts while a reset is asserted: resets, their release and the test access port
(17 R628, R630, R646). -/
def runAny (ok : Bool) (f : W → W) (s : State) : Host.Outcome State Fault Refusal :=
  runW (fun w => if ok then (f w).settle else w) s

/-- A tick of the network clock: the tide advances by one (12 R461; notes/assumptions/2). -/
def tick (s : State) : Host.Outcome State Fault Refusal :=
  run true (fun w => { w with tide := { w.tide with count := (w.now + 1) % 2 ^ 64 } }) s

/-- The requester that an operand names (10 R393; 08 R277): keepers and the debug access port use ring 0. -/
def reqOf (r : By) : Req :=
  match r.who with
  | .engine e => { who := .eng e, ring := r.ring % 4 }
  | .keeper => { who := .keeper, ring := 0 }
  | .dap => { who := .dap, ring := 0 }
  | .culvert c => { who := .cul c, ring := r.ring % 4 }
  | .vault => { who := .vault, ring := r.ring % 4 }
  | .pcie => { who := .pcie, ring := r.ring % 4 }
  | .ethernet => { who := .eth, ring := r.ring % 4 }
  | .camera => { who := .csi, ring := r.ring % 4 }
  | .terp => { who := .weir, ring := r.ring % 4 }

/-- The defects that an operand names (notes/assumptions/20). -/
def defectsOf (fs : List (Nat × Nat × List Nat × Nat)) : List BootDefect :=
  fs.map fun f => { dom := f.1, off := f.2.1, bits := f.2.2.1, spares := f.2.2.2 }

/-- The first or second of a pair of units. -/
def aluOf (u : Nat) : UnitId := if u = 0 then .alu0 else .alu1
def lsuOf (u : Nat) : UnitId := if u = 0 then .lsu0 else .lsu1

/-! ### Commits -/

/-- The boot phase that follows a step of the keeper firmware which the device sees end: from `p` to
`p + 1` (17 R634; notes/assumptions/28). -/
def W.phaseAfter (w : W) (p : Nat) : W :=
  if w.sys.phase = p then { w with sys := { w.sys with phase := p + 1 } } else w

/-- A tide commit (12 R469); the first SOURCE that succeeds ends step 6 of the boot. -/
def W.tideCommit (w : W) : W :=
  let act := w.tideAction
  if !(w.cm .tide).busy then w
  else
    let w := w.complete .tide tideWork
    if act = 1 ∧ (w.cm .tide).status = 0 then w.phaseAfter 6 else w

/-- A SLOT commit (10 R404): a plan that it armed asks for its floors (13 R506). -/
def W.slotCommit (w : W) : W := if (w.cm .slot).busy then (w.complete .slot slotWork).raiseFloors else w

/-- Held tables of an engine become pending at their release time (05 R203). -/
def W.tblReleaseTime (w : W) (e : Nat) : W :=
  match (w.en e).nextRel with
  | some t => (w.toTime t).tblRelease e
  | none => w

/-- The action that the SLOT commit under way names. -/
def Dev.slotAction (d : Dev) : Nat := wf ((d.cm .slot).get 0x40040000) 27 24

/-- A memory configuration commit (09 R364): a bank that it changed is no longer the Weir's (13 R525). -/
def W.memCommit (w : W) (dom : Nat) : W :=
  let w' := w.complete (.memCfg dom) (memCfgWork dom)
  let x := w'.pol dom
  let kept := x.slept.filter fun b => decide ((w'.bk dom b).settled = (w.bk dom b).settled)
  if kept = x.slept then w' else w'.setPol dom { x with slept := kept }

/-- A vault commit of one action (16 R627); a LOAD that succeeds ends step 7 of the boot, and the floors
that it set count (13 R505, R506). -/
def W.vltCommit (w : W) (act : Nat) (m : Med) : W :=
  let due := (w.cm .vlt).busy
  let w := w.vltAct act m
  if act = 6 ∧ due ∧ !(w.cm .vlt).busy then
    let w := w.raiseFloors
    if (w.cm .vlt).status = 0 then w.phaseAfter 7 else w
  else w

/-- A commit of any block ends (00 R20, R680). `m` is what the NAND medium does, `fs` the defects that a
test finds. -/
def W.commitDone (w : W) (b : Blk) (m : Med) (fs : List BootDefect) : W :=
  match b with
  | .tbl e => w.complete b (tblWork e)
  | .rng e => w.complete b (rngWork e)
  | .pat d => w.complete b (patWork d)
  | .memCfg d => w.memCommit d
  | .slot => w.slotCommit
  | .mtx => w.complete b mtxWork
  | .cul c n => w.complete b (culWork c n)
  | .evr => w.complete b evrWork
  | .tide => w.tideCommit
  | .tio n => w.complete b (tioWork n)
  | .dlk n => w.complete b (dlkWork n)
  | .weir => w.complete b weirWork
  | .flt => w.fltCommit
  | .eth n => w.complete b (ethWork n)
  | .str => w.complete b strWork
  | .csi n => w.complete b (csiWork n)
  | .vlt => w.vltCommit (wf ((w.cm .vlt).get vltReg) 27 24) m
  | .start => w.sysStart
  | .bist => w.complete b (bistWork fs)
  | .otp => w.complete b otpWork
  | .thr => w.complete b thrWork

/-- A commit of block `b` ends, if the action that it names is the one of this command. -/
def W.commitIf (w : W) (b : Blk) (due : Bool) (m : Med := {}) (fs : List BootDefect := []) : W :=
  if due then w.commitDone b m fs else w

/-! ### Matrix -/

/-- Beats of the oldest transaction of a master to a target pass (10 R395, R397); `up` bits of the double that a read
goes on at are upset (notes/assumptions/20). -/
def W.mtxAnswer (w : W) (who : Who) (target beats up : Nat) (host : List Byte) (refused : Bool) : W :=
  let w := match takeFirst (fun x => decide (x.master = who.master) && decide (mtxTarget x.addr = target)) w.mtx with
    | some (x, _) => if x.write.isNone then w.upset x.who (x.addr + 32 * x.beats) up else w
    | none => w
  w.mtxResponse who.master target beats host refused

/-! ### Events -/

/-- The oldest record of a source that the thread of key `k` still waits for is delivered; a WAIT that finds a record
completes (12 R446, R449, R451, R456). -/
def W.eventDelivery (w : W) (src k : Nat) : W :=
  match deliverFrom src k w.router with
  | none => w
  | some (r, t, rest) => (W.deliverTo { w with router := rest } r t).waitEnd (targetKey t) false

end Sys2Proof.Machine
end

