-- ==== Sys2Proof/Machine/CmdAlu.lean ====
section
/-! DEFINITION. Meanings of the commands of ALU operations (04 R135 to R137). -/

namespace Sys2Proof.Machine

/-- ADD (R135): ALU adds O and T, with optional carry out and OV. -/
def execAdd (e t u pd : Nat) (o x : Word) (s : State) : Host.Outcome State Fault Refusal :=
  run (thrOk e t && decide (u < 2) && decide (pd < 8))
    (fun w => w.unitCmd (tkey e t) (aluOf u) (.alu .add pd) (some o) x) s

/-- SUB (R135): ALU subtracts T from O, with optional borrow out and OV. -/
def execSub (e t u pd : Nat) (o x : Word) (s : State) : Host.Outcome State Fault Refusal :=
  run (thrOk e t && decide (u < 2) && decide (pd < 8))
    (fun w => w.unitCmd (tkey e t) (aluOf u) (.alu .sub pd) (some o) x) s

/-- ADDC (R135): ALU adds O, T and the carry predicate. -/
def execAddc (e t u pd : Nat) (o x : Word) (s : State) : Host.Outcome State Fault Refusal :=
  run (thrOk e t && decide (u < 2) && decide (pd < 8))
    (fun w => w.unitCmd (tkey e t) (aluOf u) (.alu .addc pd) (some o) x) s

/-- SUBB (R135): ALU subtracts T and the borrow predicate from O. -/
def execSubb (e t u pd : Nat) (o x : Word) (s : State) : Host.Outcome State Fault Refusal :=
  run (thrOk e t && decide (u < 2) && decide (pd < 8))
    (fun w => w.unitCmd (tkey e t) (aluOf u) (.alu .subb pd) (some o) x) s

/-- ADDS (R135): ALU adds with signed saturation. -/
def execAdds (e t u : Nat) (o x : Word) (s : State) : Host.Outcome State Fault Refusal :=
  run (thrOk e t && decide (u < 2)) (fun w => w.unitCmd (tkey e t) (aluOf u) (.alu .adds 0) (some o) x) s

/-- SUBS (R135): ALU subtracts with signed saturation. -/
def execSubs (e t u : Nat) (o x : Word) (s : State) : Host.Outcome State Fault Refusal :=
  run (thrOk e t && decide (u < 2)) (fun w => w.unitCmd (tkey e t) (aluOf u) (.alu .subs 0) (some o) x) s

/-- NEG (R135): ALU negates T. -/
def execNeg (e t u : Nat) (o x : Word) (s : State) : Host.Outcome State Fault Refusal :=
  run (thrOk e t && decide (u < 2)) (fun w => w.unitCmd (tkey e t) (aluOf u) (.alu .neg 0) (some o) x) s

/-- ABS (R135): ALU takes the absolute value of T. -/
def execAbs (e t u : Nat) (o x : Word) (s : State) : Host.Outcome State Fault Refusal :=
  run (thrOk e t && decide (u < 2)) (fun w => w.unitCmd (tkey e t) (aluOf u) (.alu .abs 0) (some o) x) s

/-- AND (R135): ALU bitwise AND of O and T. -/
def execAnd (e t u : Nat) (o x : Word) (s : State) : Host.Outcome State Fault Refusal :=
  run (thrOk e t && decide (u < 2)) (fun w => w.unitCmd (tkey e t) (aluOf u) (.alu .and 0) (some o) x) s

/-- OR (R135): ALU bitwise OR of O and T. -/
def execOr (e t u : Nat) (o x : Word) (s : State) : Host.Outcome State Fault Refusal :=
  run (thrOk e t && decide (u < 2)) (fun w => w.unitCmd (tkey e t) (aluOf u) (.alu .or 0) (some o) x) s

/-- XOR (R135): ALU bitwise XOR of O and T. -/
def execXor (e t u : Nat) (o x : Word) (s : State) : Host.Outcome State Fault Refusal :=
  run (thrOk e t && decide (u < 2)) (fun w => w.unitCmd (tkey e t) (aluOf u) (.alu .xor 0) (some o) x) s

/-- ANDN (R135): ALU computes O AND NOT T. -/
def execAndn (e t u : Nat) (o x : Word) (s : State) : Host.Outcome State Fault Refusal :=
  run (thrOk e t && decide (u < 2)) (fun w => w.unitCmd (tkey e t) (aluOf u) (.alu .andn 0) (some o) x) s

/-- NOT (R135): ALU complements T. -/
def execNot (e t u : Nat) (o x : Word) (s : State) : Host.Outcome State Fault Refusal :=
  run (thrOk e t && decide (u < 2)) (fun w => w.unitCmd (tkey e t) (aluOf u) (.alu .not 0) (some o) x) s

/-- SHL (R137): ALU shifts O left by an unmasked count. -/
def execShl (e t u : Nat) (o x : Word) (s : State) : Host.Outcome State Fault Refusal :=
  run (thrOk e t && decide (u < 2)) (fun w => w.unitCmd (tkey e t) (aluOf u) (.alu .shl 0) (some o) x) s

/-- SHR (R137): ALU shifts O right with zero fill. -/
def execShr (e t u : Nat) (o x : Word) (s : State) : Host.Outcome State Fault Refusal :=
  run (thrOk e t && decide (u < 2)) (fun w => w.unitCmd (tkey e t) (aluOf u) (.alu .shr 0) (some o) x) s

/-- SAR (R137): ALU shifts O right with sign fill. -/
def execSar (e t u : Nat) (o x : Word) (s : State) : Host.Outcome State Fault Refusal :=
  run (thrOk e t && decide (u < 2)) (fun w => w.unitCmd (tkey e t) (aluOf u) (.alu .sar 0) (some o) x) s

/-- ROL (R137): ALU rotates O left. -/
def execRol (e t u : Nat) (o x : Word) (s : State) : Host.Outcome State Fault Refusal :=
  run (thrOk e t && decide (u < 2)) (fun w => w.unitCmd (tkey e t) (aluOf u) (.alu .rol 0) (some o) x) s

/-- ROR (R137): ALU rotates O right. -/
def execRor (e t u : Nat) (o x : Word) (s : State) : Host.Outcome State Fault Refusal :=
  run (thrOk e t && decide (u < 2)) (fun w => w.unitCmd (tkey e t) (aluOf u) (.alu .ror 0) (some o) x) s

/-- MIN (R135): ALU signed minimum. -/
def execMin (e t u : Nat) (o x : Word) (s : State) : Host.Outcome State Fault Refusal :=
  run (thrOk e t && decide (u < 2)) (fun w => w.unitCmd (tkey e t) (aluOf u) (.alu .min 0) (some o) x) s

/-- MAX (R135): ALU signed maximum. -/
def execMax (e t u : Nat) (o x : Word) (s : State) : Host.Outcome State Fault Refusal :=
  run (thrOk e t && decide (u < 2)) (fun w => w.unitCmd (tkey e t) (aluOf u) (.alu .max 0) (some o) x) s

/-- MINU (R135): ALU unsigned minimum. -/
def execMinu (e t u : Nat) (o x : Word) (s : State) : Host.Outcome State Fault Refusal :=
  run (thrOk e t && decide (u < 2)) (fun w => w.unitCmd (tkey e t) (aluOf u) (.alu .minu 0) (some o) x) s

/-- MAXU (R135): ALU unsigned maximum. -/
def execMaxu (e t u : Nat) (o x : Word) (s : State) : Host.Outcome State Fault Refusal :=
  run (thrOk e t && decide (u < 2)) (fun w => w.unitCmd (tkey e t) (aluOf u) (.alu .maxu 0) (some o) x) s

/-- SATS (R137): ALU clamps O to a signed width of T bits. -/
def execSats (e t u : Nat) (o x : Word) (s : State) : Host.Outcome State Fault Refusal :=
  run (thrOk e t && decide (u < 2)) (fun w => w.unitCmd (tkey e t) (aluOf u) (.alu .sats 0) (some o) x) s

/-- SATU (R137): ALU clamps O to an unsigned width of T bits. -/
def execSatu (e t u : Nat) (o x : Word) (s : State) : Host.Outcome State Fault Refusal :=
  run (thrOk e t && decide (u < 2)) (fun w => w.unitCmd (tkey e t) (aluOf u) (.alu .satu 0) (some o) x) s

/-- SEXTB (R135): ALU sign-extends byte of T. -/
def execSextb (e t u : Nat) (o x : Word) (s : State) : Host.Outcome State Fault Refusal :=
  run (thrOk e t && decide (u < 2)) (fun w => w.unitCmd (tkey e t) (aluOf u) (.alu .sextb 0) (some o) x) s

/-- SEXTH (R135): ALU sign-extends half of T. -/
def execSexth (e t u : Nat) (o x : Word) (s : State) : Host.Outcome State Fault Refusal :=
  run (thrOk e t && decide (u < 2)) (fun w => w.unitCmd (tkey e t) (aluOf u) (.alu .sexth 0) (some o) x) s

/-- ZEXTB (R135): ALU zero-extends byte of T. -/
def execZextb (e t u : Nat) (o x : Word) (s : State) : Host.Outcome State Fault Refusal :=
  run (thrOk e t && decide (u < 2)) (fun w => w.unitCmd (tkey e t) (aluOf u) (.alu .zextb 0) (some o) x) s

/-- ZEXTH (R135): ALU zero-extends half of T. -/
def execZexth (e t u : Nat) (o x : Word) (s : State) : Host.Outcome State Fault Refusal :=
  run (thrOk e t && decide (u < 2)) (fun w => w.unitCmd (tkey e t) (aluOf u) (.alu .zexth 0) (some o) x) s

/-- CLZ (R135): ALU counts leading zeros of T. -/
def execClz (e t u : Nat) (o x : Word) (s : State) : Host.Outcome State Fault Refusal :=
  run (thrOk e t && decide (u < 2)) (fun w => w.unitCmd (tkey e t) (aluOf u) (.alu .clz 0) (some o) x) s

/-- POPC (R135): ALU counts one bits of T. -/
def execPopc (e t u : Nat) (o x : Word) (s : State) : Host.Outcome State Fault Refusal :=
  run (thrOk e t && decide (u < 2)) (fun w => w.unitCmd (tkey e t) (aluOf u) (.alu .popc 0) (some o) x) s

/-- CMPEQ (R135): ALU compares for equality and may write a predicate. -/
def execCmpeq (e t u pd : Nat) (o x : Word) (s : State) : Host.Outcome State Fault Refusal :=
  run (thrOk e t && decide (u < 2) && decide (pd < 8))
    (fun w => w.unitCmd (tkey e t) (aluOf u) (.alu .cmpeq pd) (some o) x) s

/-- CMPNE (R135): ALU compares for inequality. -/
def execCmpne (e t u pd : Nat) (o x : Word) (s : State) : Host.Outcome State Fault Refusal :=
  run (thrOk e t && decide (u < 2) && decide (pd < 8))
    (fun w => w.unitCmd (tkey e t) (aluOf u) (.alu .cmpne pd) (some o) x) s

/-- CMPLT (R135): ALU signed less-than compare. -/
def execCmplt (e t u pd : Nat) (o x : Word) (s : State) : Host.Outcome State Fault Refusal :=
  run (thrOk e t && decide (u < 2) && decide (pd < 8))
    (fun w => w.unitCmd (tkey e t) (aluOf u) (.alu .cmplt pd) (some o) x) s

/-- CMPLE (R135): ALU signed less-or-equal compare. -/
def execCmple (e t u pd : Nat) (o x : Word) (s : State) : Host.Outcome State Fault Refusal :=
  run (thrOk e t && decide (u < 2) && decide (pd < 8))
    (fun w => w.unitCmd (tkey e t) (aluOf u) (.alu .cmple pd) (some o) x) s

/-- CMPGT (R135): ALU signed greater-than compare. -/
def execCmpgt (e t u pd : Nat) (o x : Word) (s : State) : Host.Outcome State Fault Refusal :=
  run (thrOk e t && decide (u < 2) && decide (pd < 8))
    (fun w => w.unitCmd (tkey e t) (aluOf u) (.alu .cmpgt pd) (some o) x) s

/-- CMPGE (R135): ALU signed greater-or-equal compare. -/
def execCmpge (e t u pd : Nat) (o x : Word) (s : State) : Host.Outcome State Fault Refusal :=
  run (thrOk e t && decide (u < 2) && decide (pd < 8))
    (fun w => w.unitCmd (tkey e t) (aluOf u) (.alu .cmpge pd) (some o) x) s

/-- CMPLTU (R135): ALU unsigned less-than compare. -/
def execCmpltu (e t u pd : Nat) (o x : Word) (s : State) : Host.Outcome State Fault Refusal :=
  run (thrOk e t && decide (u < 2) && decide (pd < 8))
    (fun w => w.unitCmd (tkey e t) (aluOf u) (.alu .cmpltu pd) (some o) x) s

/-- CMPLEU (R135): ALU unsigned less-or-equal compare. -/
def execCmpleu (e t u pd : Nat) (o x : Word) (s : State) : Host.Outcome State Fault Refusal :=
  run (thrOk e t && decide (u < 2) && decide (pd < 8))
    (fun w => w.unitCmd (tkey e t) (aluOf u) (.alu .cmpleu pd) (some o) x) s

/-- CMPGTU (R135): ALU unsigned greater-than compare. -/
def execCmpgtu (e t u pd : Nat) (o x : Word) (s : State) : Host.Outcome State Fault Refusal :=
  run (thrOk e t && decide (u < 2) && decide (pd < 8))
    (fun w => w.unitCmd (tkey e t) (aluOf u) (.alu .cmpgtu pd) (some o) x) s

/-- CMPGEU (R135): ALU unsigned greater-or-equal compare. -/
def execCmpgeu (e t u pd : Nat) (o x : Word) (s : State) : Host.Outcome State Fault Refusal :=
  run (thrOk e t && decide (u < 2) && decide (pd < 8))
    (fun w => w.unitCmd (tkey e t) (aluOf u) (.alu .cmpgeu pd) (some o) x) s

/-- TSTZ (R135): ALU tests O AND T for zero. -/
def execTstz (e t u pd : Nat) (o x : Word) (s : State) : Host.Outcome State Fault Refusal :=
  run (thrOk e t && decide (u < 2) && decide (pd < 8))
    (fun w => w.unitCmd (tkey e t) (aluOf u) (.alu .tstz pd) (some o) x) s

/-- TSTNZ (R135): ALU tests O AND T for nonzero. -/
def execTstnz (e t u pd : Nat) (o x : Word) (s : State) : Host.Outcome State Fault Refusal :=
  run (thrOk e t && decide (u < 2) && decide (pd < 8))
    (fun w => w.unitCmd (tkey e t) (aluOf u) (.alu .tstnz pd) (some o) x) s

end Sys2Proof.Machine
end

