-- ==== Sys2Proof/Machine/CmdArith.lean ====
section
/-! DEFINITION. Meanings of the commands of AGU, MUL, DIV, SIMD and DEC operations (04 R139 to R150). -/

namespace Sys2Proof.Machine

/-- LEA (R139): AGU computes A[AR] plus T without updating the register. -/
def execLea (e t ar : Nat) (x : Word) (s : State) : Host.Outcome State Fault Refusal :=
  run (thrOk e t && decide (ar < 16)) (fun w => w.unitCmd (tkey e t) .agu (.agu .lea ar 0) none x) s

/-- AADD (R139): AGU adds T to A[AR] and writes it back. -/
def execAadd (e t ar : Nat) (x : Word) (s : State) : Host.Outcome State Fault Refusal :=
  run (thrOk e t && decide (ar < 16)) (fun w => w.unitCmd (tkey e t) .agu (.agu .aadd ar 0) none x) s

/-- AMOD (R140): AGU steps a pointer through a ring buffer. -/
def execAmod (e t ar ab : Nat) (o x : Word) (s : State) : Host.Outcome State Fault Refusal :=
  run (thrOk e t && decide (ar < 16) && decide (ab < 16))
    (fun w => w.unitCmd (tkey e t) .agu (.agu .amod ar ab) (some o) x) s

/-- MULS (R141): MUL signed 64-bit product into MH and ML. -/
def execMuls (e t : Nat) (o x : Word) (s : State) : Host.Outcome State Fault Refusal :=
  run (thrOk e t) (fun w => w.unitCmd (tkey e t) .mul (.mul .muls 0) (some o) x) s

/-- MULU (R141): MUL unsigned product. -/
def execMulu (e t : Nat) (o x : Word) (s : State) : Host.Outcome State Fault Refusal :=
  run (thrOk e t) (fun w => w.unitCmd (tkey e t) .mul (.mul .mulu 0) (some o) x) s

/-- MULSU (R141): MUL signed by unsigned product. -/
def execMulsu (e t : Nat) (o x : Word) (s : State) : Host.Outcome State Fault Refusal :=
  run (thrOk e t) (fun w => w.unitCmd (tkey e t) .mul (.mul .mulsu 0) (some o) x) s

/-- MULQ (R142): MUL scaled, rounded and saturated product. -/
def execMulq (e t sh : Nat) (o x : Word) (s : State) : Host.Outcome State Fault Refusal :=
  run (thrOk e t && decide (sh < 32)) (fun w => w.unitCmd (tkey e t) .mul (.mul .mulq sh) (some o) x) s

/-- DIVS (R144): DIV signed division truncating toward zero. -/
def execDivs (e t : Nat) (o x : Word) (s : State) : Host.Outcome State Fault Refusal :=
  run (thrOk e t) (fun w => w.unitCmd (tkey e t) .div (.div true) (some o) x) s

/-- DIVU (R144): DIV unsigned division. -/
def execDivu (e t : Nat) (o x : Word) (s : State) : Host.Outcome State Fault Refusal :=
  run (thrOk e t) (fun w => w.unitCmd (tkey e t) .div (.div false) (some o) x) s

/-- MAC16 (R146): SIMD accumulates eight signed half products. -/
def execMac16 (e t xa qa qb : Nat) (x : Word) (s : State) : Host.Outcome State Fault Refusal :=
  run (thrOk e t && decide (xa < 4) && decide (qa < 8) && decide (qb < 8))
    (fun w => w.unitCmd (tkey e t) .simd (.simd .mac16 xa qa qb 0) none x) s

/-- MAC8SS (R146): SIMD accumulates signed byte-pair products. -/
def execMac8ss (e t xa qa qb : Nat) (x : Word) (s : State) : Host.Outcome State Fault Refusal :=
  run (thrOk e t && decide (xa < 4) && decide (qa < 8) && decide (qb < 8))
    (fun w => w.unitCmd (tkey e t) .simd (.simd .mac8ss xa qa qb 0) none x) s

/-- MAC8US (R146): SIMD accumulates unsigned-by-signed byte-pair products. -/
def execMac8us (e t xa qa qb : Nat) (x : Word) (s : State) : Host.Outcome State Fault Refusal :=
  run (thrOk e t && decide (xa < 4) && decide (qa < 8) && decide (qb < 8))
    (fun w => w.unitCmd (tkey e t) .simd (.simd .mac8us xa qa qb 0) none x) s

/-- MAC8UU (R146): SIMD accumulates unsigned byte-pair products. -/
def execMac8uu (e t xa qa qb : Nat) (x : Word) (s : State) : Host.Outcome State Fault Refusal :=
  run (thrOk e t && decide (xa < 4) && decide (qa < 8) && decide (qb < 8))
    (fun w => w.unitCmd (tkey e t) .simd (.simd .mac8uu xa qa qb 0) none x) s

/-- NARS16 (R147): SIMD narrows accumulator lanes to signed halves. -/
def execNars16 (e t xa qd : Nat) (x : Word) (s : State) : Host.Outcome State Fault Refusal :=
  run (thrOk e t && decide (xa < 4) && decide (qd < 8))
    (fun w => w.unitCmd (tkey e t) .simd (.simd .nars16 xa 0 0 qd) none x) s

/-- NARS8 (R147): SIMD narrows accumulator lanes to signed bytes. -/
def execNars8 (e t xa qd : Nat) (x : Word) (s : State) : Host.Outcome State Fault Refusal :=
  run (thrOk e t && decide (xa < 4) && decide (qd < 8))
    (fun w => w.unitCmd (tkey e t) .simd (.simd .nars8 xa 0 0 qd) none x) s

/-- NARU8 (R147): SIMD narrows accumulator lanes to unsigned bytes. -/
def execNaru8 (e t xa qd : Nat) (x : Word) (s : State) : Host.Outcome State Fault Refusal :=
  run (thrOk e t && decide (xa < 4) && decide (qd < 8))
    (fun w => w.unitCmd (tkey e t) .simd (.simd .naru8 xa 0 0 qd) none x) s

/-- PACKS8 (R145): SIMD packs halves to signed saturated bytes. -/
def execPacks8 (e t qa qb qd : Nat) (s : State) : Host.Outcome State Fault Refusal :=
  run (thrOk e t && decide (qa < 8) && decide (qb < 8) && decide (qd < 8))
    (fun w => w.unitCmd (tkey e t) .simd (.simd .packs8 0 qa qb qd) none 0) s

/-- PACKU8 (R145): SIMD packs halves to unsigned saturated bytes. -/
def execPacku8 (e t qa qb qd : Nat) (s : State) : Host.Outcome State Fault Refusal :=
  run (thrOk e t && decide (qa < 8) && decide (qb < 8) && decide (qd < 8))
    (fun w => w.unitCmd (tkey e t) .simd (.simd .packu8 0 qa qb qd) none 0) s

/-- UNPKL8 (R145): SIMD unpacks low bytes sign-extended. -/
def execUnpkl8 (e t qa qd : Nat) (s : State) : Host.Outcome State Fault Refusal :=
  run (thrOk e t && decide (qa < 8) && decide (qd < 8))
    (fun w => w.unitCmd (tkey e t) .simd (.simd .unpkl8 0 qa 0 qd) none 0) s

/-- UNPKH8 (R145): SIMD unpacks high bytes sign-extended. -/
def execUnpkh8 (e t qa qd : Nat) (s : State) : Host.Outcome State Fault Refusal :=
  run (thrOk e t && decide (qa < 8) && decide (qd < 8))
    (fun w => w.unitCmd (tkey e t) .simd (.simd .unpkh8 0 qa 0 qd) none 0) s

/-- UNPKLU8 (R145): SIMD unpacks low bytes zero-extended. -/
def execUnpklu8 (e t qa qd : Nat) (s : State) : Host.Outcome State Fault Refusal :=
  run (thrOk e t && decide (qa < 8) && decide (qd < 8))
    (fun w => w.unitCmd (tkey e t) .simd (.simd .unpklu8 0 qa 0 qd) none 0) s

/-- UNPKHU8 (R145): SIMD unpacks high bytes zero-extended. -/
def execUnpkhu8 (e t qa qd : Nat) (s : State) : Host.Outcome State Fault Refusal :=
  run (thrOk e t && decide (qa < 8) && decide (qd < 8))
    (fun w => w.unitCmd (tkey e t) .simd (.simd .unpkhu8 0 qa 0 qd) none 0) s

/-- XLANE (R145): SIMD delivers one saturated accumulator lane to SIMD.R. -/
def execXlane (e t xa : Nat) (x : Word) (s : State) : Host.Outcome State Fault Refusal :=
  run (thrOk e t && decide (xa < 4)) (fun w => w.unitCmd (tkey e t) .simd (.simd .xlane xa 0 0 0) none x) s

/-- DADD (R150): DEC adds packed decimal words with carry. -/
def execDadd (e t pd : Nat) (o x : Word) (s : State) : Host.Outcome State Fault Refusal :=
  run (thrOk e t && decide (pd < 8)) (fun w => w.unitCmd (tkey e t) .dec (.dec .dadd pd) (some o) x) s

/-- DSUB (R150): DEC subtracts packed decimal words with borrow. -/
def execDsub (e t pd : Nat) (o x : Word) (s : State) : Host.Outcome State Fault Refusal :=
  run (thrOk e t && decide (pd < 8)) (fun w => w.unitCmd (tkey e t) .dec (.dec .dsub pd) (some o) x) s

/-- DADJ (R150): DEC brings every digit to 0-9. -/
def execDadj (e t pd : Nat) (o x : Word) (s : State) : Host.Outcome State Fault Refusal :=
  run (thrOk e t && decide (pd < 8)) (fun w => w.unitCmd (tkey e t) .dec (.dec .dadj pd) (some o) x) s

/-- B2D (R150): DEC converts binary to 8 decimal digits. -/
def execB2d (e t : Nat) (o x : Word) (s : State) : Host.Outcome State Fault Refusal :=
  run (thrOk e t) (fun w => w.unitCmd (tkey e t) .dec (.dec .b2d 0) (some o) x) s

/-- D2B (R150): DEC converts decimal digits to binary. -/
def execD2b (e t : Nat) (o x : Word) (s : State) : Host.Outcome State Fault Refusal :=
  run (thrOk e t) (fun w => w.unitCmd (tkey e t) .dec (.dec .d2b 0) (some o) x) s

/-- DSHL (R150): DEC shifts left by digits. -/
def execDshl (e t : Nat) (o x : Word) (s : State) : Host.Outcome State Fault Refusal :=
  run (thrOk e t) (fun w => w.unitCmd (tkey e t) .dec (.dec .dshl 0) (some o) x) s

/-- DSHR (R150): DEC shifts right by digits. -/
def execDshr (e t : Nat) (o x : Word) (s : State) : Host.Outcome State Fault Refusal :=
  run (thrOk e t) (fun w => w.unitCmd (tkey e t) .dec (.dec .dshr 0) (some o) x) s

end Sys2Proof.Machine
end

