-- ==== Sys2Proof/Machine/CmdCtl.lean ====
section
/-! DEFINITION. Meanings of the commands of CTL operations (02 R67 to R69, R81, R82, R91; 04 R158 to R163; 08 R287 to R305). -/

namespace Sys2Proof.Machine

/-- BR (R67): CTL branch with one delay slot. -/
def execBr (e t : Nat) (hint : Bool) (x : Word) (wide : Bool) (s : State) :
    Host.Outcome State Fault Refusal :=
  run (thrOk e t) (fun w => w.ctlCmd (tkey e t) .br (b01 hint) none x 0 wide) s

/-- JL (R68): CTL branch that writes the return address to LK. -/
def execJl (e t : Nat) (hint : Bool) (x : Word) (wide : Bool) (s : State) :
    Host.Outcome State Fault Refusal :=
  run (thrOk e t) (fun w => w.ctlCmd (tkey e t) .jl (b01 hint) none x 0 wide) s

/-- CBR_EQ (R158): CTL compare-and-branch if equal. -/
def execCbrEq (e t : Nat) (hint : Bool) (o x : Word) (imm : Nat) (s : State) :
    Host.Outcome State Fault Refusal :=
  run (thrOk e t && decide (imm < 65536))
    (fun w => w.ctlCmd (tkey e t) (.cbr 0) (b01 hint) (some o) x imm true) s

/-- CBR_NE (R158): CTL compare-and-branch if not equal. -/
def execCbrNe (e t : Nat) (hint : Bool) (o x : Word) (imm : Nat) (s : State) :
    Host.Outcome State Fault Refusal :=
  run (thrOk e t && decide (imm < 65536))
    (fun w => w.ctlCmd (tkey e t) (.cbr 1) (b01 hint) (some o) x imm true) s

/-- CBR_LT (R158): CTL compare-and-branch if signed less. -/
def execCbrLt (e t : Nat) (hint : Bool) (o x : Word) (imm : Nat) (s : State) :
    Host.Outcome State Fault Refusal :=
  run (thrOk e t && decide (imm < 65536))
    (fun w => w.ctlCmd (tkey e t) (.cbr 2) (b01 hint) (some o) x imm true) s

/-- CBR_GE (R158): CTL compare-and-branch if signed not less. -/
def execCbrGe (e t : Nat) (hint : Bool) (o x : Word) (imm : Nat) (s : State) :
    Host.Outcome State Fault Refusal :=
  run (thrOk e t && decide (imm < 65536))
    (fun w => w.ctlCmd (tkey e t) (.cbr 3) (b01 hint) (some o) x imm true) s

/-- CBR_LTU (R158): CTL compare-and-branch if unsigned less. -/
def execCbrLtu (e t : Nat) (hint : Bool) (o x : Word) (imm : Nat) (s : State) :
    Host.Outcome State Fault Refusal :=
  run (thrOk e t && decide (imm < 65536))
    (fun w => w.ctlCmd (tkey e t) (.cbr 4) (b01 hint) (some o) x imm true) s

/-- CBR_GEU (R158): CTL compare-and-branch if unsigned not less. -/
def execCbrGeu (e t : Nat) (hint : Bool) (o x : Word) (imm : Nat) (s : State) :
    Host.Outcome State Fault Refusal :=
  run (thrOk e t && decide (imm < 65536))
    (fun w => w.ctlCmd (tkey e t) (.cbr 5) (b01 hint) (some o) x imm true) s

/-- ENTER_S (R91): CTL enters stack mode at the target after the delay slot. -/
def execEnterS (e t : Nat) (x : Word) (wide : Bool) (s : State) : Host.Outcome State Fault Refusal :=
  run (thrOk e t) (fun w => w.ctlCmd (tkey e t) .enterS 0 none x 0 wide) s

/-- MFC (R61): CTL reads a control register into CTL.R. -/
def execMfc (e t n : Nat) (wide : Bool) (s : State) : Host.Outcome State Fault Refusal :=
  run (thrOk e t && decide (n < 32)) (fun w => w.ctlCmd (tkey e t) .mfc n none 0 0 wide) s

/-- MTC (R63): CTL writes a control register under the ring rules. -/
def execMtc (e t n : Nat) (x : Word) (wide : Bool) (s : State) : Host.Outcome State Fault Refusal :=
  run (thrOk e t && decide (n < 32)) (fun w => w.ctlCmd (tkey e t) .mtc n none x 0 wide) s

/-- TSTART (R81): CTL moves a STOPPED thread to READY at an address. -/
def execTstart (e t : Nat) (o x : Word) (wide : Bool) (s : State) : Host.Outcome State Fault Refusal :=
  run (thrOk e t) (fun w => w.ctlCmd (tkey e t) .tstart 0 (some o) x 0 wide) s

/-- TSTOP (R82): CTL stops a thread after its current bundle. -/
def execTstop (e t : Nat) (x : Word) (wide : Bool) (s : State) : Host.Outcome State Fault Refusal :=
  run (thrOk e t) (fun w => w.ctlCmd (tkey e t) .tstop 0 none x 0 wide) s

/-- GATE (R287): CTL calls through a gate into a more privileged ring. -/
def execGate (e t n : Nat) (wide : Bool) (s : State) : Host.Outcome State Fault Refusal :=
  run (thrOk e t && decide (n < 256)) (fun w => w.ctlCmd (tkey e t) .gate n none 0 0 wide) s

/-- RETG (R290): CTL returns from a gate using the frame at A15. -/
def execRetg (e t : Nat) (wide : Bool) (s : State) : Host.Outcome State Fault Refusal :=
  run (thrOk e t) (fun w => w.ctlCmd (tkey e t) .retg 0 none 0 0 wide) s

/-- RETX (R305): CTL returns from an exception handler. -/
def execRetx (e t : Nat) (wide : Bool) (s : State) : Host.Outcome State Fault Refusal :=
  run (thrOk e t) (fun w => w.ctlCmd (tkey e t) .retx 0 none 0 0 wide) s

/-- IFLUSH (R163): CTL discards a fetch line and refetches. -/
def execIflush (e t : Nat) (x : Word) (wide : Bool) (s : State) : Host.Outcome State Fault Refusal :=
  run (thrOk e t) (fun w => w.ctlCmd (tkey e t) .iflush 0 none x 0 wide) s

/-- SYNC_M (R161): CTL holds the thread until its memory accesses complete. -/
def execSyncM (e t : Nat) (wide : Bool) (s : State) : Host.Outcome State Fault Refusal :=
  run (thrOk e t) (fun w => w.ctlCmd (tkey e t) .syncM 0 none 0 0 wide) s

/-- FENCE_A (R162): CTL holds the thread until its arithmetic operations complete. -/
def execFenceA (e t : Nat) (wide : Bool) (s : State) : Host.Outcome State Fault Refusal :=
  run (thrOk e t) (fun w => w.ctlCmd (tkey e t) .fenceA 0 none 0 0 wide) s

end Sys2Proof.Machine
end

