-- ==== Sys2Proof/Machine/CmdCulvert.lean ====
section
/-! DEFINITION. Meanings of the commands of culverts (11 R411 to R440). -/

namespace Sys2Proof.Machine

/-- CUL_START (R416): A channel commit starts a direct-mode descriptor. -/
def execCulStart (c n : Nat) (s : State) : Host.Outcome State Fault Refusal :=
  run (culOk c n) (fun w => w.commitIf (.cul c n) (decide (w.culAction c n = 1))) s

/-- CUL_CHAIN (R440): A channel commit starts a descriptor chain. -/
def execCulChain (c n : Nat) (s : State) : Host.Outcome State Fault Refusal :=
  run (culOk c n) (fun w => w.commitIf (.cul c n) (decide (w.culAction c n = 2))) s

/-- CUL_HALT (R432): A channel commit arms a halt at the next descriptor boundary. -/
def execCulHalt (c n : Nat) (s : State) : Host.Outcome State Fault Refusal :=
  run (culOk c n) (fun w => w.commitIf (.cul c n) (decide (w.culAction c n = 3))) s

/-- CUL_RESUME (R440): A channel commit continues a halted channel at its next descriptor. -/
def execCulResume (c n : Nat) (s : State) : Host.Outcome State Fault Refusal :=
  run (culOk c n) (fun w => w.commitIf (.cul c n) (decide (w.culAction c n = 4))) s

/-- CUL_DOORBELL (R436): A doorbell write sets DBPEND so a parked channel repeats its read. -/
def execCulDoorbell (r : By) (c : Nat) (v : Word) (s : State) : Host.Outcome State Fault Refusal :=
  run (byOk r && decide (c < 28)) (fun w => w.cmdWrite (reqOf r) (0x40101000 + 0x10000 * c) v) s

/-- CUL_DISABLE (R432): A disable write stops a channel at once, aborting its descriptor. -/
def execCulDisable (r : By) (c : Nat) (v : Word) (s : State) : Host.Outcome State Fault Refusal :=
  run (byOk r && decide (c < 28)) (fun w => w.cmdWrite (reqOf r) (0x40101004 + 0x10000 * c) v) s

/-- DESCRIPTOR_FETCH (R415): A channel reads and checks a descriptor, or parks on OWN = 0. -/
def execDescriptorFetch (c n : Nat) (s : State) : Host.Outcome State Fault Refusal :=
  run (culOk c n) (fun w => w.descFetch c n) s

/-- DESCRIPTOR_START (R423): An idle culvert selects the highest eligible READY channel and runs its
descriptor. -/
def execDescriptorStart (c upset : Nat) (s : State) : Host.Outcome State Fault Refusal :=
  run (decide (c < 28) && decide (upset ≤ 2)) (fun w => w.descStart c upset) s

/-- PORTION_START (R424): A paced descriptor starts its next 256-byte portion when its request is
asserted. -/
def execPortionStart (c : Nat) (s : State) : Host.Outcome State Fault Refusal :=
  run (decide (c < 28)) (fun w => w.portionStart c) s

/-- CULVERT_REQUEST_CHANGE (R425): A peripheral asserts or withdraws a channel's pacing request. -/
def execCulvertRequestChange (c n : Nat) (active : Bool) (s : State) : Host.Outcome State Fault Refusal :=
  run (culOk c n) (fun w => w.culRequest c n active) s

/-- DESCRIPTOR_COMPLETE (R426): After its accesses are confirmed a descriptor reads back, writes CHECK,
DONE and STAT and follows NEXT. -/
def execDescriptorComplete (c : Nat) (s : State) : Host.Outcome State Fault Refusal :=
  run (decide (c < 28)) (fun w => w.descComplete c) s

end Sys2Proof.Machine
end

