-- ==== Sys2Proof/Machine/CmdEvents.lean ====
section
/-! DEFINITION. Meanings of the commands of the event router and the tide (12 R441 to R469). -/

namespace Sys2Proof.Machine

/-- EVENT_DELIVERY (R449): A record reaches a target thread queue or is discarded and counted lost. -/
def execEventDelivery (src e t : Nat) (s : State) : Host.Outcome State Fault Refusal :=
  run (decide (src < 2048) && thrOk e t) (fun w => w.eventDelivery src (tkey e t)) s

/-- EVR_ROUTE_COMMIT (R448): A route commit replaces the routes of a range of sources. -/
def execEvrRouteCommit (s : State) : Host.Outcome State Fault Refusal :=
  run true (fun w => w.commitIf .evr true) s

/-- EVR_DOORBELL_WRITE (R458): A write to EVR_DBn raises a doorbell record. -/
def execEvrDoorbellWrite (r : By) (n : Nat) (v : Word) (s : State) : Host.Outcome State Fault Refusal :=
  run (byOk r && decide (n < 256)) (fun w => w.cmdWrite (reqOf r) (0x40020800 + 4 * n) v) s

/-- TIDE_SOURCE (R463): A tide commit selects the discipline source. -/
def execTideSource (s : State) : Host.Outcome State Fault Refusal :=
  run true (fun w => w.commitIf .tide (decide (w.tideAction = 1))) s

/-- TIDE_ADJUST (R462): A tide commit sets the network clock adjustment in ppb. -/
def execTideAdjust (s : State) : Host.Outcome State Fault Refusal :=
  run true (fun w => w.commitIf .tide (decide (w.tideAction = 2))) s

/-- TIDE_STEP (R465): A tide commit adds a signed value to the tide count. -/
def execTideStep (s : State) : Host.Outcome State Fault Refusal :=
  run true (fun w => w.commitIf .tide (decide (w.tideAction = 3))) s

/-- TIDE_STATE (R469): A tide commit sets the discipline state. -/
def execTideState (s : State) : Host.Outcome State Fault Refusal :=
  run true (fun w => w.commitIf .tide (decide (w.tideAction = 4))) s

/-- TIDE_COMPARATOR_ENABLE (R466): A tide commit enables a comparator from its staging registers. -/
def execTideComparatorEnable (s : State) : Host.Outcome State Fault Refusal :=
  run true (fun w => w.commitIf .tide (decide (w.tideAction = 5) && w.tideEnables)) s

/-- TIDE_COMPARATOR_DISABLE (R468): A tide commit disables a comparator. -/
def execTideComparatorDisable (s : State) : Host.Outcome State Fault Refusal :=
  run true (fun w => w.commitIf .tide (decide (w.tideAction = 5) && !w.tideEnables)) s

/-- COMPARATOR_FIRE (R466): The tide reaches a comparator's next time and a record is raised. -/
def execComparatorFire (c : Nat) (s : State) : Host.Outcome State Fault Refusal :=
  run (decide (c < 30)) (fun w => w.cmpFire c) s

/-- PPS_EDGE (R464): A PPS_IN rising edge is timestamped and raises a record. -/
def execPpsEdge (frac : Nat) (s : State) : Host.Outcome State Fault Refusal :=
  run (decide (frac < 4)) (fun w => w.ppsEdge (0x4000 * frac)) s

/-- HOLDOVER_TIMEOUT (R464): A locked tide loses its source for 1,100 ms and enters HOLDOVER. -/
def execHoldoverTimeout (s : State) : Host.Outcome State Fault Refusal :=
  run true (fun w => w.holdover) s

end Sys2Proof.Machine
end

