-- ==== Sys2Proof/Machine/CmdExc.lean ====
section
/-! DEFINITION. Meanings of the commands of exception entry and watchdogs (08 R294 to R315; 14 R540). -/

namespace Sys2Proof.Machine

/-- EXCEPTION_ENTRY (R298): A thread takes a pending exception by shadow entry, saving SPC, SST and
SRPT. -/
def execExceptionEntry (e t : Nat) (s : State) : Host.Outcome State Fault Refusal :=
  run (thrOk e t) (fun w => w.exceptionEntry (tkey e t)) s

/-- WATCHDOG_EXPIRY (R540): A thread watchdog expires, making the WATCHDOG exception pending or
signalling a WATCHDOG fault. -/
def execWatchdogExpiry (e t : Nat) (s : State) : Host.Outcome State Fault Refusal :=
  run (thrOk e t) (fun w => w.watchdog (tkey e t)) s

end Sys2Proof.Machine
end

