-- ==== Sys2Proof/Machine/CmdFault.lean ====
section
/-! DEFINITION. Meanings of the commands of fault continuity (14 R536 to R567). -/

namespace Sys2Proof.Machine

/-- CLOSURE_COMPLETE (R544): After the drain the unit becomes DIKED and its DIKE record is written. -/
def execClosureComplete (u : Nat) (s : State) : Host.Outcome State Fault Refusal :=
  run (unitOk u) (fun w => W.raiseFloors (w.closureDone u)) s

/-- PLD_WDT_WRITE (R541): A watchdog register write, ignored when EN = 1 and PERIOD = 0. -/
def execPldWdtWrite (r : By) (e t : Nat) (v : Word) (s : State) : Host.Outcome State Fault Refusal :=
  run (byOk r && engOk e && decide (t < 4)) (fun w => w.cmdWrite (reqOf r) (wdtReg (tkey e t)) v) s

/-- KEEPER_MISMATCH (R543): K0 and K1 disagree and both reset to resynchronise. -/
def execKeeperMismatch (pc : Word) (s : State) : Host.Outcome State Fault Refusal :=
  run true (fun w => w.keeperMismatch pc) s

/-- KEEPER_RESYNC_DONE (R543): The keepers finish resynchronising within 2 ms. -/
def execKeeperResyncDone (s : State) : Host.Outcome State Fault Refusal :=
  run true (fun w => w.keeperSynced) s

/-- FLT_CLOSE (R544): A fault commit closes a named unit. -/
def execFltClose (s : State) : Host.Outcome State Fault Refusal :=
  run true (fun w => w.commitIf .flt (decide (w.fltAction = 1))) s

/-- FLT_RESET (R561): A fault commit resets a diked unit. -/
def execFltReset (s : State) : Host.Outcome State Fault Refusal :=
  run true (fun w => w.commitIf .flt (decide (w.fltAction = 2))) s

/-- FLT_READMIT (R562): A fault commit reopens the gates of a reset unit. -/
def execFltReadmit (s : State) : Host.Outcome State Fault Refusal :=
  run true (fun w => w.commitIf .flt (decide (w.fltAction = 3))) s

/-- FLT_JOIN (R564): A fault commit arms a join list for JFRAME. -/
def execFltJoin (s : State) : Host.Outcome State Fault Refusal :=
  run true (fun w => w.commitIf .flt (decide (w.fltAction = 4))) s

/-- FLT_DISARM (R566): A fault commit disarms an armed join. -/
def execFltDisarm (s : State) : Host.Outcome State Fault Refusal :=
  run true (fun w => w.commitIf .flt (decide (w.fltAction = 5))) s

/-- FLT_CONFIG (R567): A fault commit applies policy, control and fallback addresses. -/
def execFltConfig (s : State) : Host.Outcome State Fault Refusal :=
  run true (fun w => w.commitIf .flt (decide (w.fltAction = 6))) s

end Sys2Proof.Machine
end

