-- ==== Sys2Proof/Machine/CmdIssue.lean ====
section
/-! DEFINITION. Meanings of the commands of issue, results and memory responses (02 R34, R43, R71; 06 R238; 09 R337). -/

namespace Sys2Proof.Machine

/-- BUNDLE_ISSUE (R34): A thread issues one move-mode bundle, which reads sources, writes destinations
and fires triggers in three phases. -/
def execBundleIssue (e t : Nat) (parity : Bool) (late : Nat) (s : State) : Host.Outcome State Fault Refusal :=
  run (thrOk e t && decide (late < 65536)) (fun w => w.issueBundle (tkey e t) false parity late) s

/-- REP (R71): A REP prefix latches a count and the next bundle executes that many times. -/
def execRep (e t : Nat) (s : State) : Host.Outcome State Fault Refusal :=
  run (thrOk e t) (fun w => w.issueBundle (tkey e t) true false 0) s

/-- OPERATION_RESULT (R216): A triggered operation completes and delivers its results, predicates and
direct register writes. -/
def execOperationResult (e t unit lost : Nat) (s : State) : Host.Outcome State Fault Refusal :=
  run (thrOk e t && decide (unit < 14) && decide (lost < 65536)) (fun w => w.opResult (tkey e t) unit lost) s

/-- LOAD_RESPONSE (R157): The response of a load, atomic or store arrives, delivering data or a data-
bus-error fault. -/
def execLoadResponse (e t i upset lost : Nat) (s : State) : Host.Outcome State Fault Refusal :=
  run (thrOk e t && decide (i < 65536) && decide (upset ≤ 2) && decide (lost < 65536))
    (fun w => w.loadResponse (tkey e t) i upset lost) s

/-- ECC_WRITEBACK (R337): A memory writes a corrected double back in its next idle bank cycle. -/
def execEccWriteback (pa : Nat) (s : State) : Host.Outcome State Fault Refusal :=
  run (physOk pa) (fun w => w.eccWriteback pa) s

/-- STORE_DRAIN (R238): A store-buffer entry drains to its target in a free bank cycle or when
acknowledged. -/
def execStoreDrain (e t i lost : Nat) (clash : Bool) (s : State) : Host.Outcome State Fault Refusal :=
  run (thrOk e t && decide (i < 8) && decide (lost < 65536)) (fun w => w.storeDrain (tkey e t) i lost clash) s

end Sys2Proof.Machine
end

