-- ==== Sys2Proof/Machine/CmdLinks.lean ====
section
/-! DEFINITION. Meanings of the commands of Ethernet, cameras, PCIe and the annex (15 R568 to R599). -/

namespace Sys2Proof.Machine

/-- ETH_CONFIG (R576): A port commit reads, checks and arms a configuration block. -/
def execEthConfig (n : Nat) (s : State) : Host.Outcome State Fault Refusal :=
  run (ethOk n) (fun w => w.commitIf (.eth n) (decide (w.ethAction n = 1))) s

/-- ETH_DISARM (R578): A port commit removes an armed configuration. -/
def execEthDisarm (n : Nat) (s : State) : Host.Outcome State Fault Refusal :=
  run (ethOk n) (fun w => w.commitIf (.eth n) (decide (w.ethAction n = 2))) s

/-- ETH_LINKRESET (R578): A port commit resets the link. -/
def execEthLinkreset (n : Nat) (s : State) : Host.Outcome State Fault Refusal :=
  run (ethOk n) (fun w => w.commitIf (.eth n) (decide (w.ethAction n = 3))) s

/-- ETH_CONFIG_SWAP (R576): An armed port configuration takes effect at ETH_SWAP. -/
def execEthConfigSwap (n : Nat) (s : State) : Host.Outcome State Fault Refusal :=
  run (ethOk n) (fun w => w.ethSwap n) s

/-- ETH_DB_WRITE (R572): A doorbell write resumes parked queues or rings. -/
def execEthDbWrite (r : By) (n : Nat) (v : Word) (s : State) : Host.Outcome State Fault Refusal :=
  run (byOk r && ethOk n) (fun w => w.cmdWrite (reqOf r) (ethReg n + 0x20) v) s

/-- ETH_FRAME_RECEIVED (R573): A received frame is stamped, classified and sent to a ring, a send
channel or dropped. -/
def execEthFrameReceived (n : Nat) (f : List Byte) (fcsOk : Bool) (at' : Nat) (s : State) :
    Host.Outcome State Fault Refusal :=
  run (ethOk n) (fun w => w.ethReceive n f fcsOk at') s

/-- ETH_FRAME_SENT (R572): A transmit descriptor's frame is sent and completed. -/
def execEthFrameSent (n q at' : Nat) (cyclic : Bool) (s : State) : Host.Outcome State Fault Refusal :=
  run (ethOk n && decide (q < 8)) (fun w => w.ethSend n q at' cyclic) s

/-- CYCLIC_BUILD (R574): At t_c - BUILD the hub builds a cyclic frame from template and fields. -/
def execCyclicBuild (n j c : Nat) (s : State) : Host.Outcome State Fault Refusal :=
  run (ethOk n) (fun w => w.cycBuild n j c) s

/-- CYCLIC_ENQUEUE (R574): At t_c the built cyclic frame enters its traffic-class queue. -/
def execCyclicEnqueue (n j : Nat) (s : State) : Host.Outcome State Fault Refusal :=
  run (ethOk n) (fun w => w.cycEnqueue n j) s

/-- ETH_LINK_CHANGE (R577): A port link goes up or down. -/
def execEthLinkChange (n kind : Nat) (s : State) : Host.Outcome State Fault Refusal :=
  run (ethOk n && decide (1 ≤ kind) && decide (kind ≤ 4)) (fun w => w.ethLink n kind) s

/-- STR_COMMIT (R578): A stream table commit installs the 802.1CB and Qci streams. -/
def execStrCommit (s : State) : Host.Outcome State Fault Refusal :=
  run true (fun w => w.commitIf .str true) s

/-- CSI_COMMIT (R583): A camera commit configures lanes and contexts from the next Frame Start. -/
def execCsiCommit (n : Nat) (s : State) : Host.Outcome State Fault Refusal :=
  run (csiOk n) (fun w => w.commitIf (.csi n) true) s

/-- FRAME_START (R581): A CSI Frame Start resets line and block counts and may raise OVERRUN. -/
def execFrameStart (n v num at' : Nat) (corrected : Bool) (s : State) : Host.Outcome State Fault Refusal :=
  run (csiOk n && decide (v < 4) && decide (num < 65536)) (fun w => w.frameStart n v num at' corrected) s

/-- FRAME_END (R582): A CSI Frame End raises a record. -/
def execFrameEnd (n v num at' : Nat) (corrected : Bool) (s : State) : Host.Outcome State Fault Refusal :=
  run (csiOk n && decide (v < 4) && decide (num < 65536)) (fun w => w.frameEnd n v num at' corrected) s

/-- CSI_LINE (R580): A long packet line is written to the ring and may make a pacing block ready. -/
def execCsiLine (n v dt : Nat) (bs : List Byte) (crcOk corrected : Bool) (s : State) :
    Host.Outcome State Fault Refusal :=
  run (csiOk n && decide (v < 4) && decide (dt < 64)) (fun w => w.camLine n v dt bs crcOk corrected) s

/-- PCIE_INBOUND (R586): A host request enters through a BAR with the ring of PCIE_HRING. -/
def execPcieInbound (bar off len : Nat) (data : Option (List Byte)) (poisoned correctable : Bool) (s : State) :
    Host.Outcome State Fault Refusal :=
  run (decide (len ≤ 4096)) (fun w => w.pcieInbound bar off len data poisoned correctable) s

/-- OUTBOUND_TIMEOUT (R587): An outbound read without a completion in 50 ms ends with ST_BUS_ERROR. -/
def execOutboundTimeout (s : State) : Host.Outcome State Fault Refusal :=
  run true (fun w => w.outTimeout) s

/-- PCIE_EVENT_FORWARD (R588): A forwarded record is written to the host ring and signals MSI-X. -/
def execPcieEventForward (v : Nat) (s : State) : Host.Outcome State Fault Refusal :=
  run (decide (v < 64)) (fun w => w.pcieForward v) s

/-- PCIE_LINK_CHANGE (R589): The PCIe link changes and a LINK record is raised. -/
def execPcieLinkChange (width speed : Nat) (s : State) : Host.Outcome State Fault Refusal :=
  run (decide (width ≤ 4) && decide (speed ≤ 4)) (fun w => w.pcieLink width speed) s

/-- DESC (R593): The annex logic sends a unit descriptor during training. -/
def execDesc (u : Nat) (ws : List Word) (s : State) : Host.Outcome State Fault Refusal :=
  run (decide (u < 6)) (fun w => w.anxDesc u ws) s

/-- READY (R593): The annex logic sends READY and the link goes UP. -/
def execReady (s : State) : Host.Outcome State Fault Refusal :=
  run true (fun w => w.anxReady) s

/-- RES (R594): A result packet delivers an external unit's result to a thread and bank. -/
def execRes (u e t : Nat) (shadow : Bool) (ws : List Word) (late : Bool) (s : State) :
    Host.Outcome State Fault Refusal :=
  run (decide (u < 6) && thrOk e t) (fun w => w.anxRes u (tkey e t) shadow ws late) s

/-- CRED (R594): A credit packet returns credits to a unit. -/
def execCred (u n : Nat) (s : State) : Host.Outcome State Fault Refusal :=
  run (decide (u < 6)) (fun w => w.anxCred u n) s

/-- RDRESP (R597): The annex logic answers a read. -/
def execRdresp (tag : Nat) (bytes : List Byte) (err : Bool) (s : State) : Host.Outcome State Fault Refusal :=
  run (decide (tag < 256)) (fun w => w.anxResp tag false bytes err) s

/-- WRACK (R597): The annex logic acknowledges a write. -/
def execWrack (tag : Nat) (err : Bool) (s : State) : Host.Outcome State Fault Refusal :=
  run (decide (tag < 256)) (fun w => w.anxResp tag true [] err) s

/-- ANNEX_REQUEST_TIMEOUT (R596): No RDRESP or WRACK within 10 us sends the link into training. -/
def execAnnexRequestTimeout (s : State) : Host.Outcome State Fault Refusal :=
  run true (fun w => w.anxTimeout) s

/-- ANX_CTRL_WRITE (R599): A write enables the annex link or forces retraining. -/
def execAnxCtrlWrite (r : By) (v : Word) (s : State) : Host.Outcome State Fault Refusal :=
  run (byOk r) (fun w => w.cmdWrite (reqOf r) anxReg v) s

/-- ANNEX_PACKET_ERROR (R596): A packet with a CRC error or an unknown TYPE arrives on the annex link,
ends the outstanding operations and sends the link into training. -/
def execAnnexPacketError (code : Nat) (s : State) : Host.Outcome State Fault Refusal :=
  run (decide (code = 1) || decide (code = 2)) (fun w => w.anxPacketError code) s

/-- CSI_PACKET_DROP (R579): A CSI-2 packet whose header ECC is uncorrectable, or whose data type or
short-packet kind is unsupported, is dropped and counted, raising HEADER_DROP where the header fails. -/
def execCsiPacketDrop (n v : Nat) (header : Bool) (s : State) : Host.Outcome State Fault Refusal :=
  run (csiOk n && decide (v < 4)) (fun w => w.camDrop n v header) s

/-- CSI_PHY_ERROR (R582): A D-PHY lane of a camera input fails in its stream and raises a PHY_ERROR
record with the lane mask. -/
def execCsiPhyError (n mask : Nat) (s : State) : Host.Outcome State Fault Refusal :=
  run (csiOk n && decide (mask < 16)) (fun w => w.camPhy n mask) s

/-- GATE_CONTROL_LIST_INTERVAL (R569): An interval of a port's 802.1Qbv gate control list ends and the
next entry opens or closes the gates and holds or releases preemption. -/
def execGateControlListInterval (n : Nat) (s : State) : Host.Outcome State Fault Refusal :=
  run (ethOk n) (fun w => w.gateNext n) s

end Sys2Proof.Machine
end

