-- ==== Sys2Proof/Machine/CmdLsu.lean ====
section
/-! DEFINITION. Meanings of the commands of LSU operations (04 R151 to R157). -/

namespace Sys2Proof.Machine

/-- LDB (R151): LSU loads a sign-extended byte. -/
def execLdb (e t u ar : Nat) (upd : Bool) (x : Word) (s : State) : Host.Outcome State Fault Refusal :=
  run (thrOk e t && decide (u < 2) && decide (ar < 16))
    (fun w => w.unitCmd (tkey e t) (lsuOf u) (.lsu .ldb 0 ar upd) none x) s

/-- LDBU (R151): LSU loads a zero-extended byte. -/
def execLdbu (e t u ar : Nat) (upd : Bool) (x : Word) (s : State) : Host.Outcome State Fault Refusal :=
  run (thrOk e t && decide (u < 2) && decide (ar < 16))
    (fun w => w.unitCmd (tkey e t) (lsuOf u) (.lsu .ldbu 0 ar upd) none x) s

/-- LDH (R151): LSU loads a sign-extended half. -/
def execLdh (e t u ar : Nat) (upd : Bool) (x : Word) (s : State) : Host.Outcome State Fault Refusal :=
  run (thrOk e t && decide (u < 2) && decide (ar < 16))
    (fun w => w.unitCmd (tkey e t) (lsuOf u) (.lsu .ldh 0 ar upd) none x) s

/-- LDHU (R151): LSU loads a zero-extended half. -/
def execLdhu (e t u ar : Nat) (upd : Bool) (x : Word) (s : State) : Host.Outcome State Fault Refusal :=
  run (thrOk e t && decide (u < 2) && decide (ar < 16))
    (fun w => w.unitCmd (tkey e t) (lsuOf u) (.lsu .ldhu 0 ar upd) none x) s

/-- LDW (R151): LSU loads a word. -/
def execLdw (e t u ar : Nat) (upd : Bool) (x : Word) (s : State) : Host.Outcome State Fault Refusal :=
  run (thrOk e t && decide (u < 2) && decide (ar < 16))
    (fun w => w.unitCmd (tkey e t) (lsuOf u) (.lsu .ldw 0 ar upd) none x) s

/-- LDD (R151): LSU loads a double into a register pair. -/
def execLdd (e t u dr ar : Nat) (upd : Bool) (x : Word) (s : State) : Host.Outcome State Fault Refusal :=
  run (thrOk e t && decide (u < 2) && pairOk dr && decide (ar < 16))
    (fun w => w.unitCmd (tkey e t) (lsuOf u) (.lsu .ldd dr ar upd) none x) s

/-- STB (R151): LSU stores a byte through the store buffer. -/
def execStb (e t u ar : Nat) (upd : Bool) (o x : Word) (s : State) : Host.Outcome State Fault Refusal :=
  run (thrOk e t && decide (u < 2) && decide (ar < 16))
    (fun w => w.unitCmd (tkey e t) (lsuOf u) (.lsu .stb 0 ar upd) (some o) x) s

/-- STH (R151): LSU stores a half. -/
def execSth (e t u ar : Nat) (upd : Bool) (o x : Word) (s : State) : Host.Outcome State Fault Refusal :=
  run (thrOk e t && decide (u < 2) && decide (ar < 16))
    (fun w => w.unitCmd (tkey e t) (lsuOf u) (.lsu .sth 0 ar upd) (some o) x) s

/-- STW (R151): LSU stores a word. -/
def execStw (e t u ar : Nat) (upd : Bool) (o x : Word) (s : State) : Host.Outcome State Fault Refusal :=
  run (thrOk e t && decide (u < 2) && decide (ar < 16))
    (fun w => w.unitCmd (tkey e t) (lsuOf u) (.lsu .stw 0 ar upd) (some o) x) s

/-- STD (R151): LSU stores a register pair as a double. -/
def execStd (e t u dr ar : Nat) (upd : Bool) (x : Word) (s : State) : Host.Outcome State Fault Refusal :=
  run (thrOk e t && decide (u < 2) && pairOk dr && decide (ar < 16))
    (fun w => w.unitCmd (tkey e t) (lsuOf u) (.lsu .std dr ar upd) none x) s

/-- AFADD (R151): LSU atomic fetch-and-add on a word. -/
def execAfadd (e t u ar : Nat) (o x : Word) (s : State) : Host.Outcome State Fault Refusal :=
  run (thrOk e t && decide (u < 2) && decide (ar < 16))
    (fun w => w.unitCmd (tkey e t) (lsuOf u) (.lsu .afadd 0 ar false) (some o) x) s

/-- ASWAP (R151): LSU atomic swap of a word. -/
def execAswap (e t u ar : Nat) (o x : Word) (s : State) : Host.Outcome State Fault Refusal :=
  run (thrOk e t && decide (u < 2) && decide (ar < 16))
    (fun w => w.unitCmd (tkey e t) (lsuOf u) (.lsu .aswap 0 ar false) (some o) x) s

/-- ACAS (R151): LSU atomic compare-and-swap of a word. -/
def execAcas (e t u dr ar : Nat) (o x : Word) (s : State) : Host.Outcome State Fault Refusal :=
  run (thrOk e t && decide (u < 2) && decide (dr < 32) && decide (ar < 16))
    (fun w => w.unitCmd (tkey e t) (lsuOf u) (.lsu .acas dr ar false) (some o) x) s

end Sys2Proof.Machine
end

