-- ==== Sys2Proof/Machine/CmdMem.lean ====
section
/-! DEFINITION. Meanings of the commands of memory patrols and banks (09 R343 to R364). -/

namespace Sys2Proof.Machine

/-- PATROL_START (R361): A patrol commit starts a preserving or destructive run. -/
def execPatrolStart (d : Nat) (s : State) : Host.Outcome State Fault Refusal :=
  run (domOk d) (fun w => w.commitIf (.pat d) (decide (w.patAction d = 1))) s

/-- PATROL_STOP (R354): A patrol commit ends the run after the current block. -/
def execPatrolStop (d : Nat) (s : State) : Host.Outcome State Fault Refusal :=
  run (domOk d) (fun w => w.commitIf (.pat d) (decide (w.patAction d = 2))) s

/-- PATROL_BLOCK (R349): After its gap the patrol copies, tests and restores or zeroes the next block, `n` array words
at a time. -/
def execPatrolBlock (d n : Nat) (fs : List (Nat × Nat × Nat × List Nat × Nat)) (s : State) :
    Host.Outcome State Fault Refusal :=
  run (domOk d) (fun w => w.patBlock d (min n 128) fs) s

/-- MEM_CFG_COMMIT (R364): A MEM configuration commit sets bank states, OWNED bits and no-patrol ranges.
-/
def execMemCfgCommit (d : Nat) (s : State) : Host.Outcome State Fault Refusal :=
  run (domOk d) (fun w => w.commitIf (.memCfg d) true) s

/-- BANK_TRANSITION_DONE (R343): A bank finishes waking, filling or sleeping and shows its new state. -/
def execBankTransitionDone (d b : Nat) (s : State) : Host.Outcome State Fault Refusal :=
  run (domOk d && decide (b < 64)) (fun w => w.bankDone d b) s

end Sys2Proof.Machine
end

