-- ==== Sys2Proof/Machine/CmdNet.lean ====
section
/-! DEFINITION. Meanings of the commands of the slot network and the matrix (10 R366 to R408). -/

namespace Sys2Proof.Machine

/-- SLOT_LOAD (R386): A SLOT commit compiles a plan into the idle bank and arms it for SWAPFRAME. -/
def execSlotLoad (s : State) : Host.Outcome State Fault Refusal :=
  run true (fun w => w.commitIf .slot (decide (w.slotAction = 1))) s

/-- SLOT_CHECK (R386): A SLOT commit validates a plan and changes nothing. -/
def execSlotCheck (s : State) : Host.Outcome State Fault Refusal :=
  run true (fun w => w.commitIf .slot (decide (w.slotAction = 2))) s

/-- SLOT_DISARM (R404): A SLOT commit removes an armed plan. -/
def execSlotDisarm (s : State) : Host.Outcome State Fault Refusal :=
  run true (fun w => w.commitIf .slot (decide (w.slotAction = 3))) s

/-- RESERVATION_OCCURRENCE (R376): A reservation's start slot arrives and carries the oldest eligible
complete message or frees its slots. -/
def execReservationOccurrence (n f : Nat) (s : State) : Host.Outcome State Fault Refusal :=
  run true (fun w => w.occurrence n f) s

/-- MESSAGE_ARRIVAL (R377): A message of send channel `sch` of node `src` reaches its receive channel and is taken whole
or discarded. -/
def execMessageArrival (n ch src sch : Nat) (corrupt : Bool) (s : State) : Host.Outcome State Fault Refusal :=
  run (chanOk n ch && chanOk src sch) (fun w => w.arrive src sch n ch corrupt) s

/-- BEST_EFFORT_MESSAGE (R379): A best-effort message crosses the mesh in free slots by the XY route. -/
def execBestEffortMessage (n ch : Nat) (s : State) : Host.Outcome State Fault Refusal :=
  run (chanOk n ch) (fun w => w.bestEffort n ch) s

/-- MATRIX_REQUEST (R395): A master issues a burst that the matrix arbitrates to its target. -/
def execMatrixRequest (r : By) (a len : Nat) (data : Option (List Byte)) (s : State) :
    Host.Outcome State Fault Refusal :=
  run (byOk r) (fun w => w.mtxRequest (reqOf r) a len data) s

/-- MATRIX_RESPONSE (R397): Beats of a granted portion pass, and with the last of them a target answers a matrix
transaction with data, acknowledgement or an error. -/
def execMatrixResponse (r : By) (target beats upset : Nat) (host : List Byte) (refused : Bool) (s : State) :
    Host.Outcome State Fault Refusal :=
  run (byOk r && decide (target ≤ 63) && decide (upset ≤ 2))
    (fun w => w.mtxAnswer (reqOf r).who target beats upset host refused) s

/-- MTX_COMMIT (R408): A matrix commit sets weights and parking. -/
def execMtxCommit (s : State) : Host.Outcome State Fault Refusal :=
  run true (fun w => w.commitIf .mtx true) s

end Sys2Proof.Machine
end

