-- ==== Sys2Proof/Machine/CmdPins.lean ====
section
/-! DEFINITION. Meanings of the commands of timed pins and drive links (12 R470 to R501). -/

namespace Sys2Proof.Machine

/-- TIO_CONFIGURE (R488): A pin commit applies mode and parameters. -/
def execTioConfigure (n : Nat) (s : State) : Host.Outcome State Fault Refusal :=
  run (pinOk n) (fun w => w.commitIf (.tio n) (decide (wf ((w.cm (.tio n)).get (tioReg n)) 13 11 = 0))) s

/-- TIO_JOIN (R480): A pin commit with JOINx makes a withdrawn side live again. -/
def execTioJoin (n : Nat) (s : State) : Host.Outcome State Fault Refusal :=
  run (pinOk n) (fun w => w.commitIf (.tio n) (decide (wf ((w.cm (.tio n)).get (tioReg n)) 13 12 ≠ 0))) s

/-- TIO_FLUSH (R480): A pin commit with FLUSH discards the queue and pairing history and drives SAFE. -/
def execTioFlush (n : Nat) (s : State) : Host.Outcome State Fault Refusal :=
  run (pinOk n) (fun w => w.commitIf (.tio n) (wbit ((w.cm (.tio n)).get (tioReg n)) 11)) s

/-- TIO_PUSH (R475): An owner pushes an edge entry into a pin queue, pairing it under dual commit. -/
def execTioPush (r : By) (n : Nat) (side level : Bool) (tag : Nat) (s : State) :
    Host.Outcome State Fault Refusal :=
  run (byOk r && pinOk n && decide (tag < 256))
    (fun w => w.cmdWrite (reqOf r) (tioReg n + (if side then 0x34 else 0x28)) (w32 (b01 level * 2 ^ 31 + tag))) s

/-- TIO_WITHDRAW (R478): An owner withdraws its side of a pin. -/
def execTioWithdraw (r : By) (n : Nat) (side : Bool) (s : State) : Host.Outcome State Fault Refusal :=
  run (byOk r && pinOk n)
    (fun w => w.cmdWrite (reqOf r) (tioReg n + (if side then 0x34 else 0x28)) (w32 (2 ^ 30))) s

/-- EDGE_FIRE (R475): A queued entry's time arrives and the pin takes its level. -/
def execEdgeFire (n : Nat) (s : State) : Host.Outcome State Fault Refusal :=
  run (pinOk n) (fun w => w.edgeFire n) s

/-- SAFE_DRIVE (R479): SAFEDELAY expires on a held pin and it drives SAFE. -/
def execSafeDrive (n : Nat) (s : State) : Host.Outcome State Fault Refusal :=
  run (pinOk n) (fun w => w.safeDrive n) s

/-- CAPTURE_EDGE (R481): A filtered input edge is stamped into the capture FIFO and raises a record. -/
def execCaptureEdge (n : Nat) (ball : Bool) (at' frac : Nat) (s : State) : Host.Outcome State Fault Refusal :=
  run (pinOk n && decide (frac < 4)) (fun w => w.captureEdge n ball at' (0x4000 * frac)) s

/-- CAP_POP (R486): A read of TIO_CAP_LO pops the capture FIFO head. -/
def execCapPop (r : By) (n : Nat) (s : State) : Host.Outcome State Fault Refusal :=
  run (byOk r && pinOk n) (fun w => w.cmdRead (reqOf r) (tioReg n + 0x38) true) s

/-- ENCODER_COUNT (R482): A quadrature or step input change updates the pair's count. -/
def execEncoderCount (n : Nat) (a b : Bool) (s : State) : Host.Outcome State Fault Refusal :=
  run (pinOk n) (fun w => w.encCount n a b) s

/-- ENCODER_SAMPLE (R482): At each multiple of SAMPLE the count is raised as a record. -/
def execEncoderSample (n at' : Nat) (s : State) : Host.Outcome State Fault Refusal :=
  run (pinOk n) (fun w => w.encSample n at') s

/-- PWM_PERIOD (R483): A PWM period begins on the tide grid. -/
def execPwmPeriod (n at' : Nat) (s : State) : Host.Outcome State Fault Refusal :=
  run (pinOk n) (fun w => w.pwmPeriod n at') s

/-- SSI_FRAME (R484): At each multiple of SAMPLE the SSI master reads a position. -/
def execSsiFrame (n at' : Nat) (ready : Bool) (bits : Nat) (s : State) : Host.Outcome State Fault Refusal :=
  run (pinOk n) (fun w => w.ssiFrame n at' ready bits) s

/-- DLK_START (R500): A link commit starts a stopped drive link. -/
def execDlkStart (n : Nat) (s : State) : Host.Outcome State Fault Refusal :=
  run (linkOk n) (fun w => w.commitIf (.dlk n) (decide (w.dlkAction n = 1))) s

/-- DLK_TABLES (R496): A link commit installs or arms transmit and receive tables. -/
def execDlkTables (n : Nat) (s : State) : Host.Outcome State Fault Refusal :=
  run (linkOk n) (fun w => w.commitIf (.dlk n) (decide (w.dlkAction n = 2))) s

/-- DLK_STOP (R500): A link commit stops the link after the current exchange. -/
def execDlkStop (n : Nat) (s : State) : Host.Outcome State Fault Refusal :=
  run (linkOk n) (fun w => w.commitIf (.dlk n) (decide (w.dlkAction n = 3))) s

/-- DLK_DISARM (R500): A link commit removes armed tables. -/
def execDlkDisarm (n : Nat) (s : State) : Host.Outcome State Fault Refusal :=
  run (linkOk n) (fun w => w.commitIf (.dlk n) (decide (w.dlkAction n = 4))) s

/-- DLK_JOIN (R494): A link commit rejoins withdrawn sides. -/
def execDlkJoin (n : Nat) (s : State) : Host.Outcome State Fault Refusal :=
  run (linkOk n) (fun w => w.commitIf (.dlk n) (decide (w.dlkAction n = 5))) s

/-- DLK_PUSH (R492): An owner pushes a data set for a cycle. -/
def execDlkPush (r : By) (n : Nat) (side : Bool) (tag : Nat) (s : State) : Host.Outcome State Fault Refusal :=
  run (byOk r && linkOk n && decide (tag < 65536))
    (fun w => w.cmdWrite (reqOf r) (dlkReg n + (if side then 0x44 else 0x40)) (w32 tag)) s

/-- DLK_WITHDRAW (R494): An owner withdraws its side of a link. -/
def execDlkWithdraw (r : By) (n : Nat) (side : Bool) (s : State) : Host.Outcome State Fault Refusal :=
  run (byOk r && linkOk n)
    (fun w => w.cmdWrite (reqOf r) (dlkReg n + (if side then 0x44 else 0x40)) (w32 (2 ^ 30))) s

/-- DLK_EXCHANGE (R491): At t_c - LEAD the link selects a set, sends its frame and opens the receive
window. -/
def execDlkExchange (n : Nat) (s : State) : Host.Outcome State Fault Refusal :=
  run (linkOk n) (fun w => w.dlkExchange n) s

/-- DLK_FRAME_RECEIVED (R495): A reply frame is decoded by the receive table or rejected. -/
def execDlkFrameReceived (n at' : Nat) (bits : List Bool) (coded : Bool) (s : State) :
    Host.Outcome State Fault Refusal :=
  run (linkOk n) (fun w => w.dlkReceive n at' bits coded) s

/-- DLK_RX_TIMEOUT (R495): A receive window closes with no frame and TIMEOUT is raised. -/
def execDlkRxTimeout (n : Nat) (s : State) : Host.Outcome State Fault Refusal :=
  run (linkOk n) (fun w => w.dlkTimeout n) s

end Sys2Proof.Machine
end

