-- ==== Sys2Proof/Machine/CmdRegs.lean ====
section
/-! DEFINITION. Meanings of the commands of device registers, commits and the tide frame (00 R8 to R20, R680; 01 R27). -/

namespace Sys2Proof.Machine

/-- REGISTER_WRITE (R9): A write to a device register with no behaviour of its own sets its fields or
receives an error response. -/
def execRegisterWrite (r : By) (a : Nat) (v : Word) (s : State) : Host.Outcome State Fault Refusal :=
  run (byOk r) (fun w => w.cmdWrite (reqOf r) a v) s

/-- RCLR_READ (R9): A read of an RCLR register returns and clears the field. -/
def execRclrRead (r : By) (a : Nat) (s : State) : Host.Outcome State Fault Refusal :=
  run (byOk r) (fun w => w.cmdRead (reqOf r) a (clearsAt a)) s

/-- LATCHED_READ (R209): A read of a LO half latches the HI half of a 64-bit register. -/
def execLatchedRead (r : By) (a : Nat) (s : State) : Host.Outcome State Fault Refusal :=
  run (byOk r) (fun w => w.cmdRead (reqOf r) a (latched a || !(latches a).isEmpty)) s

/-- COMMIT_COMPLETE (R680): A commit ends BUSY, makes its live-state checks and applies, arms or fails.
-/
def execCommitComplete (b : Blk) (m : Med) (fs : List (Nat × Nat × List Nat × Nat)) (s : State) :
    Host.Outcome State Fault Refusal :=
  run (blkOk b) (fun w => w.commitDone b m (defectsOf fs)) s

/-- TIDE_FRAME_BOUNDARY (R27): A tide frame begins at every multiple of 1,024 ns. -/
def execTideFrameBoundary (f : Nat) (s : State) : Host.Outcome State Fault Refusal :=
  run true (fun w => W.raiseFloors (w.frameBoundary f)) s

end Sys2Proof.Machine
end

