-- ==== Sys2Proof/Machine/CmdStack.lean ====
section
/-! DEFINITION. Meanings of the commands of stack mode (02 R86 to R92; 03 R123 to R128). -/

namespace Sys2Proof.Machine

/-- STK_PUSHS (R123): Stack mode pushes a small signed constant. -/
def execStkPushs (e t : Nat) (s : State) : Host.Outcome State Fault Refusal :=
  run (thrOk e t) (fun w => w.stkCmd (tkey e t) (some fun i => match i with | .pushs _ => true | _ => false)) s

/-- STK_PUSHW (R123): Stack mode pushes the word in the next two halves. -/
def execStkPushw (e t : Nat) (s : State) : Host.Outcome State Fault Refusal :=
  run (thrOk e t) (fun w => w.stkCmd (tkey e t) (some fun i => decide (i = StkOp.pushw))) s

/-- STK_LDB (R123): Stack mode loads a sign-extended byte. -/
def execStkLdb (e t : Nat) (s : State) : Host.Outcome State Fault Refusal :=
  run (thrOk e t)
    (fun w => w.stkCmd (tkey e t) (some fun i => match i with | .load .ldb _ => true | _ => false)) s

/-- STK_LDBU (R123): Stack mode loads a zero-extended byte. -/
def execStkLdbu (e t : Nat) (s : State) : Host.Outcome State Fault Refusal :=
  run (thrOk e t)
    (fun w => w.stkCmd (tkey e t) (some fun i => match i with | .load .ldbu _ => true | _ => false)) s

/-- STK_LDH (R123): Stack mode loads a sign-extended half. -/
def execStkLdh (e t : Nat) (s : State) : Host.Outcome State Fault Refusal :=
  run (thrOk e t)
    (fun w => w.stkCmd (tkey e t) (some fun i => match i with | .load .ldh _ => true | _ => false)) s

/-- STK_LDHU (R123): Stack mode loads a zero-extended half. -/
def execStkLdhu (e t : Nat) (s : State) : Host.Outcome State Fault Refusal :=
  run (thrOk e t)
    (fun w => w.stkCmd (tkey e t) (some fun i => match i with | .load .ldhu _ => true | _ => false)) s

/-- STK_LDW (R123): Stack mode loads a word. -/
def execStkLdw (e t : Nat) (s : State) : Host.Outcome State Fault Refusal :=
  run (thrOk e t)
    (fun w => w.stkCmd (tkey e t) (some fun i => match i with | .load .ldw _ => true | _ => false)) s

/-- STK_STB (R123): Stack mode stores a byte. -/
def execStkStb (e t : Nat) (s : State) : Host.Outcome State Fault Refusal :=
  run (thrOk e t)
    (fun w => w.stkCmd (tkey e t) (some fun i => match i with | .store .stb _ => true | _ => false)) s

/-- STK_STH (R123): Stack mode stores a half. -/
def execStkSth (e t : Nat) (s : State) : Host.Outcome State Fault Refusal :=
  run (thrOk e t)
    (fun w => w.stkCmd (tkey e t) (some fun i => match i with | .store .sth _ => true | _ => false)) s

/-- STK_STW (R123): Stack mode stores a word. -/
def execStkStw (e t : Nat) (s : State) : Host.Outcome State Fault Refusal :=
  run (thrOk e t)
    (fun w => w.stkCmd (tkey e t) (some fun i => match i with | .store .stw _ => true | _ => false)) s

/-- STK_ADD (R123): Stack mode adds the top two entries. -/
def execStkAdd (e t : Nat) (s : State) : Host.Outcome State Fault Refusal :=
  run (thrOk e t) (fun w => w.stkCmd (tkey e t) (some fun i => decide (i = StkOp.alu .add))) s

/-- STK_SUB (R123): Stack mode subtracts. -/
def execStkSub (e t : Nat) (s : State) : Host.Outcome State Fault Refusal :=
  run (thrOk e t) (fun w => w.stkCmd (tkey e t) (some fun i => decide (i = StkOp.alu .sub))) s

/-- STK_AND (R123): Stack mode bitwise AND. -/
def execStkAnd (e t : Nat) (s : State) : Host.Outcome State Fault Refusal :=
  run (thrOk e t) (fun w => w.stkCmd (tkey e t) (some fun i => decide (i = StkOp.alu .and))) s

/-- STK_OR (R123): Stack mode bitwise OR. -/
def execStkOr (e t : Nat) (s : State) : Host.Outcome State Fault Refusal :=
  run (thrOk e t) (fun w => w.stkCmd (tkey e t) (some fun i => decide (i = StkOp.alu .or))) s

/-- STK_XOR (R123): Stack mode bitwise XOR. -/
def execStkXor (e t : Nat) (s : State) : Host.Outcome State Fault Refusal :=
  run (thrOk e t) (fun w => w.stkCmd (tkey e t) (some fun i => decide (i = StkOp.alu .xor))) s

/-- STK_SHL (R123): Stack mode shift left. -/
def execStkShl (e t : Nat) (s : State) : Host.Outcome State Fault Refusal :=
  run (thrOk e t) (fun w => w.stkCmd (tkey e t) (some fun i => decide (i = StkOp.alu .shl))) s

/-- STK_SHR (R123): Stack mode logical shift right. -/
def execStkShr (e t : Nat) (s : State) : Host.Outcome State Fault Refusal :=
  run (thrOk e t) (fun w => w.stkCmd (tkey e t) (some fun i => decide (i = StkOp.alu .shr))) s

/-- STK_SAR (R123): Stack mode arithmetic shift right. -/
def execStkSar (e t : Nat) (s : State) : Host.Outcome State Fault Refusal :=
  run (thrOk e t) (fun w => w.stkCmd (tkey e t) (some fun i => decide (i = StkOp.alu .sar))) s

/-- STK_ROL (R123): Stack mode rotate left. -/
def execStkRol (e t : Nat) (s : State) : Host.Outcome State Fault Refusal :=
  run (thrOk e t) (fun w => w.stkCmd (tkey e t) (some fun i => decide (i = StkOp.alu .rol))) s

/-- STK_MIN (R136): Stack mode signed minimum. -/
def execStkMin (e t : Nat) (s : State) : Host.Outcome State Fault Refusal :=
  run (thrOk e t) (fun w => w.stkCmd (tkey e t) (some fun i => decide (i = StkOp.alu .min))) s

/-- STK_MAX (R136): Stack mode signed maximum. -/
def execStkMax (e t : Nat) (s : State) : Host.Outcome State Fault Refusal :=
  run (thrOk e t) (fun w => w.stkCmd (tkey e t) (some fun i => decide (i = StkOp.alu .max))) s

/-- STK_EQ (R136): Stack mode equality compare giving 1 or 0. -/
def execStkEq (e t : Nat) (s : State) : Host.Outcome State Fault Refusal :=
  run (thrOk e t) (fun w => w.stkCmd (tkey e t) (some fun i => decide (i = StkOp.alu .cmpeq))) s

/-- STK_NE (R136): Stack mode inequality compare. -/
def execStkNe (e t : Nat) (s : State) : Host.Outcome State Fault Refusal :=
  run (thrOk e t) (fun w => w.stkCmd (tkey e t) (some fun i => decide (i = StkOp.alu .cmpne))) s

/-- STK_LT (R136): Stack mode signed less-than compare. -/
def execStkLt (e t : Nat) (s : State) : Host.Outcome State Fault Refusal :=
  run (thrOk e t) (fun w => w.stkCmd (tkey e t) (some fun i => decide (i = StkOp.alu .cmplt))) s

/-- STK_LTU (R136): Stack mode unsigned less-than compare. -/
def execStkLtu (e t : Nat) (s : State) : Host.Outcome State Fault Refusal :=
  run (thrOk e t) (fun w => w.stkCmd (tkey e t) (some fun i => decide (i = StkOp.alu .cmpltu))) s

/-- STK_NOT (R123): Stack mode bitwise complement. -/
def execStkNot (e t : Nat) (s : State) : Host.Outcome State Fault Refusal :=
  run (thrOk e t) (fun w => w.stkCmd (tkey e t) (some fun i => decide (i = StkOp.not))) s

/-- STK_NEG (R123): Stack mode negation. -/
def execStkNeg (e t : Nat) (s : State) : Host.Outcome State Fault Refusal :=
  run (thrOk e t) (fun w => w.stkCmd (tkey e t) (some fun i => decide (i = StkOp.neg))) s

/-- STK_NOP (R123): Stack mode no-operation. -/
def execStkNop (e t : Nat) (s : State) : Host.Outcome State Fault Refusal :=
  run (thrOk e t) (fun w => w.stkCmd (tkey e t) (some fun i => decide (i = StkOp.nop))) s

/-- STK_DUP (R123): Stack mode duplicates the top entry. -/
def execStkDup (e t : Nat) (s : State) : Host.Outcome State Fault Refusal :=
  run (thrOk e t) (fun w => w.stkCmd (tkey e t) (some fun i => decide (i = StkOp.dup))) s

/-- STK_DROP (R123): Stack mode drops the top entry. -/
def execStkDrop (e t : Nat) (s : State) : Host.Outcome State Fault Refusal :=
  run (thrOk e t) (fun w => w.stkCmd (tkey e t) (some fun i => decide (i = StkOp.drop))) s

/-- STK_SWAP (R123): Stack mode swaps the top two entries. -/
def execStkSwap (e t : Nat) (s : State) : Host.Outcome State Fault Refusal :=
  run (thrOk e t) (fun w => w.stkCmd (tkey e t) (some fun i => decide (i = StkOp.swap))) s

/-- STK_OVER (R123): Stack mode copies the second entry to the top. -/
def execStkOver (e t : Nat) (s : State) : Host.Outcome State Fault Refusal :=
  run (thrOk e t) (fun w => w.stkCmd (tkey e t) (some fun i => decide (i = StkOp.over))) s

/-- STK_ROT (R123): Stack mode rotates the top three entries. -/
def execStkRot (e t : Nat) (s : State) : Host.Outcome State Fault Refusal :=
  run (thrOk e t) (fun w => w.stkCmd (tkey e t) (some fun i => decide (i = StkOp.rot))) s

/-- STK_SRC (R127): Stack mode pushes a source socket. -/
def execStkSrc (e t : Nat) (s : State) : Host.Outcome State Fault Refusal :=
  run (thrOk e t) (fun w => w.stkCmd (tkey e t) (some fun i => match i with | .src _ => true | _ => false)) s

/-- STK_DST (R127): Stack mode moves the top entry to a destination socket, possibly triggering a unit.
-/
def execStkDst (e t : Nat) (s : State) : Host.Outcome State Fault Refusal :=
  run (thrOk e t) (fun w => w.stkCmd (tkey e t) (some fun i => match i with | .dst _ => true | _ => false)) s

/-- STK_MFC (R123): Stack mode pushes a control register. -/
def execStkMfc (e t : Nat) (s : State) : Host.Outcome State Fault Refusal :=
  run (thrOk e t) (fun w => w.stkCmd (tkey e t) (some fun i => match i with | .mfc _ => true | _ => false)) s

/-- STK_MTC (R123): Stack mode writes a control register. -/
def execStkMtc (e t : Nat) (s : State) : Host.Outcome State Fault Refusal :=
  run (thrOk e t) (fun w => w.stkCmd (tkey e t) (some fun i => match i with | .mtc _ => true | _ => false)) s

/-- STK_CBR_AL (R126): Stack mode branches always by a stack offset. -/
def execStkCbrAl (e t : Nat) (s : State) : Host.Outcome State Fault Refusal :=
  run (thrOk e t) (fun w => w.stkCmd (tkey e t) (some fun i => decide (i = StkOp.cbrAl))) s

/-- STK_CBR_COND (R126): Stack mode conditional compare-and-branch on the top entries. -/
def execStkCbrCond (e t : Nat) (s : State) : Host.Outcome State Fault Refusal :=
  run (thrOk e t) (fun w => w.stkCmd (tkey e t) (some fun i => match i with | .cbr _ => true | _ => false)) s

/-- STK_CALL (R126): Stack mode call writing LK. -/
def execStkCall (e t : Nat) (s : State) : Host.Outcome State Fault Refusal :=
  run (thrOk e t) (fun w => w.stkCmd (tkey e t) (some fun i => decide (i = StkOp.call))) s

/-- STK_RET (R123): Stack mode branch to LK. -/
def execStkRet (e t : Nat) (s : State) : Host.Outcome State Fault Refusal :=
  run (thrOk e t) (fun w => w.stkCmd (tkey e t) (some fun i => decide (i = StkOp.ret))) s

/-- STK_LEAVE (R91): Stack mode leaves to move mode at a popped target. -/
def execStkLeave (e t : Nat) (s : State) : Host.Outcome State Fault Refusal :=
  run (thrOk e t) (fun w => w.stkCmd (tkey e t) (some fun i => decide (i = StkOp.leave))) s

/-- STK_HALT (R123): Stack mode thread stops itself. -/
def execStkHalt (e t : Nat) (s : State) : Host.Outcome State Fault Refusal :=
  run (thrOk e t) (fun w => w.stkCmd (tkey e t) (some fun i => decide (i = StkOp.halt))) s

/-- STK_IFLUSH (R123): Stack mode discards a fetch line. -/
def execStkIflush (e t : Nat) (s : State) : Host.Outcome State Fault Refusal :=
  run (thrOk e t) (fun w => w.stkCmd (tkey e t) (some fun i => decide (i = StkOp.iflush))) s

/-- STK_SYNC_M (R123): Stack mode memory fence. -/
def execStkSyncM (e t : Nat) (s : State) : Host.Outcome State Fault Refusal :=
  run (thrOk e t) (fun w => w.stkCmd (tkey e t) (some fun i => decide (i = StkOp.syncM))) s

/-- STK_FENCE_A (R123): Stack mode arithmetic fence. -/
def execStkFenceA (e t : Nat) (s : State) : Host.Outcome State Fault Refusal :=
  run (thrOk e t) (fun w => w.stkCmd (tkey e t) (some fun i => decide (i = StkOp.fenceA))) s

/-- STK_ILLEGAL_INSTRUCTION (R124): A thread in stack mode issues a 16-bit value that the stack-mode
opcode table does not list, and it raises the illegal-bundle fault. -/
def execStkIllegalInstruction (e t : Nat) (s : State) : Host.Outcome State Fault Refusal :=
  run (thrOk e t) (fun w => w.stkCmd (tkey e t) none) s

end Sys2Proof.Machine
end

