-- ==== Sys2Proof/Machine/CmdSystem.lean ====
section
/-! DEFINITION. Meanings of the commands of resets, boot, tests, debug and the test access port (17 R628 to R655). -/

namespace Sys2Proof.Machine

/-- POWER_ON_RESET (R628): The power-on detector resets the device and clears kept state. -/
def execPowerOnReset (also : Nat) (s : State) : Host.Outcome State Fault Refusal :=
  runAny (decide (also < 64)) (fun w => w.powerOn also) s

/-- PIN_RESET (R628): RST_N held low for 1 us resets the device. -/
def execPinReset (also : Nat) (s : State) : Host.Outcome State Fault Refusal :=
  runAny (decide (also < 64)) (fun w => w.deviceReset (kindPin ||| also)) s

/-- SOFTWARE_RESET (R628): A write of 0x0A5A to SYS_RESET at ring 0 resets the device. -/
def execSoftwareReset (r : By) (s : State) : Host.Outcome State Fault Refusal :=
  run (byOk r) (fun w => w.cmdWrite (reqOf r) 0x4000000C 0x0A5A) s

/-- DEBUG_RESET (R628): A write of 0x0A5A to DBG_RESET resets the device. -/
def execDebugReset (r : By) (s : State) : Host.Outcome State Fault Refusal :=
  run (byOk r) (fun w => w.cmdWrite (reqOf r) 0x404F0008 0x0A5A) s

/-- RESET_RELEASE (R630): Reset releases when supply, RST_N and TAP allow and the boot sequence begins.
-/
def execResetRelease (pins : Nat) (fs : List (Nat × Nat × List Nat × Nat)) (ce blocks good : List Nat) (s : State) :
    Host.Outcome State Fault Refusal :=
  runAny (decide (pins < 8)) (fun w => w.resetRelease pins (defectsOf fs) ce blocks good) s

/-- BOOT_FIRMWARE (R634): When repair and mount have ended the ROM reads, verifies and enters keeper
firmware. -/
def execBootFirmware (m1 m2 : Med) (s : State) : Host.Outcome State Fault Refusal :=
  run true (fun w => w.bootFirmware m1 m2) s

/-- PCIE_BOOT (R640): On doorbell 255 the ROM verifies host-written objects and writes them to the
vault. -/
def execPcieBoot (m : Med) (s : State) : Host.Outcome State Fault Refusal :=
  run true (fun w => w.pcieBoot m) s

/-- SYS_START_COMMIT (R641): A start commit names engines and a start tide time. -/
def execSysStartCommit (s : State) : Host.Outcome State Fault Refusal :=
  run true (fun w => w.commitIf .start true) s

/-- ENGINE_START (R642): At SYS_START_TIME the named engines start t0 at their ENTRY. -/
def execEngineStart (s : State) : Host.Outcome State Fault Refusal :=
  run true (fun w => w.engineStart) s

/-- BIST_ENGINE (R644): The Terp runs the ROM test program on an engine. -/
def execBistEngine (s : State) : Host.Outcome State Fault Refusal :=
  run true (fun w => w.commitIf .bist (decide (w.bistKind = 1))) s

/-- BIST_POLDER (R644): The Terp tests a polder's engines and patrols its domain. -/
def execBistPolder (fs : List (Nat × Nat × List Nat × Nat)) (s : State) : Host.Outcome State Fault Refusal :=
  run true (fun w => w.commitIf .bist (decide (w.bistKind = 2)) {} (defectsOf fs)) s

/-- BIST_SERDES (R644): An Ethernet port runs a PRBS31 loopback test. -/
def execBistSerdes (s : State) : Host.Outcome State Fault Refusal :=
  run true (fun w => w.commitIf .bist (decide (w.bistKind = 3))) s

/-- OTP_PROGRAM (R655): An OTP commit sets bits of a key or the configuration word in debug hold. -/
def execOtpProgram (s : State) : Host.Outcome State Fault Refusal :=
  run true (fun w => w.commitIf .otp true) s

/-- DBG_HALT (R649): The debug port halts a thread. -/
def execDbgHalt (s : State) : Host.Outcome State Fault Refusal :=
  run true (fun w => w.commitIf .thr (decide (w.thrAction = 1))) s

/-- DBG_RESUME (R649): The debug port resumes a halted thread. -/
def execDbgResume (s : State) : Host.Outcome State Fault Refusal :=
  run true (fun w => w.commitIf .thr (decide (w.thrAction = 2))) s

/-- DBG_STEP (R649): The debug port steps a halted thread by one bundle. -/
def execDbgStep (s : State) : Host.Outcome State Fault Refusal :=
  run true (fun w => w.commitIf .thr (decide (w.thrAction = 3))) s

/-- DBG_TSW_WRITE (R651): A write to the state window is held until the next resume or step. -/
def execDbgTswWrite (r : By) (o : Nat) (v : Word) (s : State) : Host.Outcome State Fault Refusal :=
  run (byOk r && decide (o < 512) && decide (o % 4 = 0)) (fun w => w.cmdWrite (reqOf r) (0x404F1000 + o) v) s

/-- DBG_UNLOCK (R648): A keeper write opens a closed debug access port. -/
def execDbgUnlock (r : By) (v : Word) (s : State) : Host.Outcome State Fault Refusal :=
  run (byOk r) (fun w => w.cmdWrite (reqOf r) 0x404F0004 v) s

/-- DBG_TRCCTRL_WRITE (R655): A trace control write, changing only EN while tracing. -/
def execDbgTrcctrlWrite (r : By) (p : Nat) (v : Word) (s : State) : Host.Outcome State Fault Refusal :=
  run (byOk r && polOk p) (fun w => w.cmdWrite (reqOf r) (trcReg p) v) s

/-- DAP_READ (R647): A DAP word read is made as master 57 at ring 0. -/
def execDapRead (a : Nat) (s : State) : Host.Outcome State Fault Refusal :=
  run (decide (a < 2 ^ 32)) (fun w => w.dapAccess a none) s

/-- DAP_WRITE (R647): A DAP word write is made as master 57 at ring 0. -/
def execDapWrite (a : Nat) (v : Word) (s : State) : Host.Outcome State Fault Refusal :=
  run (decide (a < 2 ^ 32)) (fun w => w.dapAccess a (some v)) s

/-- EXTEST (R646): TAP EXTEST drives the boundary register and holds DEBUG reset. -/
def execExtest (bits : List Bool) (s : State) : Host.Outcome State Fault Refusal :=
  runAny true (fun w => w.tapSelect .extest bits) s

/-- IDCODE (R646): TAP returns the device identification code. -/
def execIdcode (s : State) : Host.Outcome State Fault Refusal :=
  runAny true (fun w => w.tapSelect .idcode []) s

/-- SAMPLE_PRELOAD (R646): TAP samples or preloads the boundary register. -/
def execSamplePreload (bits : List Bool) (s : State) : Host.Outcome State Fault Refusal :=
  runAny true (fun w => w.tapSelect .sample bits) s

/-- CLAMP (R646): TAP clamps outputs and holds DEBUG reset. -/
def execClamp (s : State) : Host.Outcome State Fault Refusal :=
  runAny true (fun w => w.tapSelect .clamp []) s

/-- HIGHZ (R646): TAP floats outputs and holds DEBUG reset. -/
def execHighz (s : State) : Host.Outcome State Fault Refusal :=
  runAny true (fun w => w.tapSelect .highz []) s

/-- DAPACC (R646): TAP selects the DAP register. -/
def execDapacc (s : State) : Host.Outcome State Fault Refusal :=
  runAny true (fun w => w.tapSelect .dapacc []) s

/-- BYPASS (R646): TAP selects the bypass register. -/
def execBypass (s : State) : Host.Outcome State Fault Refusal :=
  runAny true (fun w => w.tapSelect .bypass []) s

/-- TAP_RESET (R646): TRST_N, or the TAP state machine, resets the TAP, which deselects EXTEST, CLAMP or
HIGHZ and ends the DEBUG reset that they hold. -/
def execTapReset (s : State) : Host.Outcome State Fault Refusal :=
  runAny true (fun w => w.tapReset) s

end Sys2Proof.Machine
end

