-- ==== Sys2Proof/Machine/CmdTables.lean ====
section
/-! DEFINITION. Meanings of the commands of curve, sequence and format tables, and ring tables (05 R203; 08 R322). -/

namespace Sys2Proof.Machine

/-- TBL_INSTALL (R203): A table commit installs a table into an empty slot or arms it. -/
def execTblInstall (e : Nat) (s : State) : Host.Outcome State Fault Refusal :=
  run (engOk e) (fun w => w.commitIf (.tbl e) (decide (w.tblAction e = 1))) s

/-- TBL_DISARM (R203): A table commit removes a slot's armed table. -/
def execTblDisarm (e : Nat) (s : State) : Host.Outcome State Fault Refusal :=
  run (engOk e) (fun w => w.commitIf (.tbl e) (decide (w.tblAction e = 2))) s

/-- TBL_REMOVE (R203): A table commit removes the live table and empties the slot. -/
def execTblRemove (e : Nat) (s : State) : Host.Outcome State Fault Refusal :=
  run (engOk e) (fun w => w.commitIf (.tbl e) (decide (w.tblAction e = 3))) s

/-- TBL_RELEASE (R203): A table commit schedules the held tables of a beat group to become pending at
TBL_REL. -/
def execTblRelease (e : Nat) (s : State) : Host.Outcome State Fault Refusal :=
  run (engOk e) (fun w => w.commitIf (.tbl e) (decide (w.tblAction e = 4))) s

/-- TBL_RELEASE_TIME (R203): At the release tide time held tables become pending. -/
def execTblReleaseTime (e : Nat) (s : State) : Host.Outcome State Fault Refusal :=
  run (engOk e) (fun w => w.tblReleaseTime e) s

/-- RNG_COMMIT (R322): A ring commit validates and installs windows, gate, range and stack tables. -/
def execRngCommit (e : Nat) (s : State) : Host.Outcome State Fault Refusal :=
  run (engOk e) (fun w => w.commitIf (.rng e) true) s

end Sys2Proof.Machine
end

