-- ==== Sys2Proof/Machine/CmdUnits.lean ====
section
/-! DEFINITION. Meanings of the commands of CRV, SEQ, NET, EVQ, HV and UX operations (03 R114 to R122; 05 R182 to R205; 10 R372 to R374; 12 R454 to R456). -/

namespace Sys2Proof.Machine

/-- EVAL (R185): CRV evaluates a cam table at a master position. -/
def execEval (e t cs : Nat) (x : Word) (s : State) : Host.Outcome State Fault Refusal :=
  run (thrOk e t && decide (cs < 16)) (fun w => w.unitCmd (tkey e t) .crv (.eval cs) none x) s

/-- BEAT (R204): CRV detects a beat-group wrap and performs the group's pending swaps. -/
def execBeat (e t bg : Nat) (x : Word) (s : State) : Host.Outcome State Fault Refusal :=
  run (thrOk e t && decide (bg < 16)) (fun w => w.unitCmd (tkey e t) .crv (.beat bg) none x) s

/-- STEP (R194): SEQ performs one state-machine transition from a sequence table. -/
def execStep (e t sl pd : Nat) (o x : Word) (s : State) : Host.Outcome State Fault Refusal :=
  run (thrOk e t && decide (sl < 16) && decide (pd < 8))
    (fun w => w.unitCmd (tkey e t) .seq (.seqStep sl pd) (some o) x) s

/-- TBLA (R193): SEQ returns the address of a slot's live table. -/
def execTbla (e t sl kd : Nat) (s : State) : Host.Outcome State Fault Refusal :=
  run (thrOk e t && decide (sl < 16) && decide (kd < 4))
    (fun w => w.unitCmd (tkey e t) .seq (.tbla sl kd) none 0) s

/-- SEND (R373): NET writes a quad as the next flit of a send channel. -/
def execSend (e t ch q : Nat) (x : Word) (s : State) : Host.Outcome State Fault Refusal :=
  run (thrOk e t && decide (ch < 4) && decide (q < 8))
    (fun w => w.unitCmd (tkey e t) .net (.net .send ch q) none x) s

/-- RECV (R374): NET takes the next flit of a receive channel. -/
def execRecv (e t ch pd : Nat) (s : State) : Host.Outcome State Fault Refusal :=
  run (thrOk e t && decide (ch < 4) && decide (pd < 8))
    (fun w => w.unitCmd (tkey e t) .net (.net .recv ch pd) none 0) s

/-- RPOLL (R373): NET tests whether a receive channel holds a complete message. -/
def execRpoll (e t ch pd : Nat) (s : State) : Host.Outcome State Fault Refusal :=
  run (thrOk e t && decide (ch < 4) && decide (pd < 8))
    (fun w => w.unitCmd (tkey e t) .net (.net .rpoll ch pd) none 0) s

/-- RSKIP (R373): NET discards the complete message at the head of a channel. -/
def execRskip (e t ch : Nat) (s : State) : Host.Outcome State Fault Refusal :=
  run (thrOk e t && decide (ch < 4)) (fun w => w.unitCmd (tkey e t) .net (.net .rskip ch 0) none 0) s

/-- TAKE (R455): EVQ removes the oldest record of the thread's queue. -/
def execTake (e t pd : Nat) (s : State) : Host.Outcome State Fault Refusal :=
  run (thrOk e t && decide (pd < 8)) (fun w => w.unitCmd (tkey e t) .evq (.evq .take 0 pd) none 0) s

/-- WAIT (R456): EVQ takes a record or waits for one with an optional timeout. -/
def execWait (e t pd : Nat) (x : Word) (s : State) : Host.Outcome State Fault Refusal :=
  run (thrOk e t && decide (pd < 8)) (fun w => w.unitCmd (tkey e t) .evq (.evq .wait 0 pd) none x) s

/-- EVQ_WAIT_TIMEOUT (R456): A WAIT timeout expires with no record and the wait completes with the
predicate 0. -/
def execEvqWaitTimeout (e t : Nat) (s : State) : Host.Outcome State Fault Refusal :=
  run (thrOk e t) (fun w => w.waitTimeout (tkey e t)) s

/-- POLL (R455): EVQ tests whether the queue holds a record. -/
def execPoll (e t pd : Nat) (s : State) : Host.Outcome State Fault Refusal :=
  run (thrOk e t && decide (pd < 8)) (fun w => w.unitCmd (tkey e t) .evq (.evq .poll 0 pd) none 0) s

/-- RING (R455): EVQ raises a doorbell record with a register payload. -/
def execRing (e t dr : Nat) (x : Word) (s : State) : Host.Outcome State Fault Refusal :=
  run (thrOk e t && decide (dr < 32)) (fun w => w.unitCmd (tkey e t) .evq (.evq .ring dr 0) none x) s

/-- HASH (R116): HV computes a SHA-256 digest of a block of data. -/
def execHash (e t : Nat) (block : Word) (s : State) : Host.Outcome State Fault Refusal :=
  run (thrOk e t) (fun w => w.hvCmd (tkey e t) 1 block) s

/-- VERIFY (R116): HV verifies an ECDSA P-256 signature over a digest. -/
def execVerify (e t : Nat) (block : Word) (s : State) : Host.Outcome State Fault Refusal :=
  run (thrOk e t) (fun w => w.hvCmd (tkey e t) 2 block) s

/-- HASH_VERIFY (R116): HV hashes and then verifies. -/
def execHashVerify (e t : Nat) (block : Word) (s : State) : Host.Outcome State Fault Refusal :=
  run (thrOk e t) (fun w => w.hvCmd (tkey e t) 3 block) s

/-- HV_JOB_COMPLETE (R118): An HV job ends and its status appears in HV.R. -/
def execHvJobComplete (p : Nat) (s : State) : Host.Outcome State Fault Refusal :=
  run (decide (p ≤ 24)) (fun w => w.hvComplete p) s

/-- UX_OPERATION (R120): Moves to UXk send words to an external unit and the W-th word sends the OP
packet. -/
def execUxOperation (e t u : Nat) (ws : List Word) (s : State) : Host.Outcome State Fault Refusal :=
  run (thrOk e t && decide (u < 6) && decide (ws.length ≤ 4)) (fun w => w.uxCmd (tkey e t) u ws) s

end Sys2Proof.Machine
end

