-- ==== Sys2Proof/Machine/CmdVault.lean ====
section
/-! DEFINITION. Meanings of the commands of the recipe vault (16 R600 to R627). -/

namespace Sys2Proof.Machine

/-- VLT_WRITE (R606): The vault stores a new version of an object. -/
def execVltWrite (m : Med) (s : State) : Host.Outcome State Fault Refusal :=
  run true (fun w => w.vltCommit 1 m) s

/-- VLT_READ (R606): The vault copies a range of an object's current version. -/
def execVltRead (m : Med) (s : State) : Host.Outcome State Fault Refusal :=
  run true (fun w => w.vltCommit 2 m) s

/-- VLT_DELETE (R606): The vault removes an object. -/
def execVltDelete (m : Med) (s : State) : Host.Outcome State Fault Refusal :=
  run true (fun w => w.vltCommit 3 m) s

/-- VLT_APPEND (R606): The vault adds a record to a log. -/
def execVltAppend (m : Med) (s : State) : Host.Outcome State Fault Refusal :=
  run true (fun w => w.vltCommit 4 m) s

/-- VLT_STAT (R607): The vault writes an object's information. -/
def execVltStat (m : Med) (s : State) : Host.Outcome State Fault Refusal :=
  run true (fun w => w.vltCommit 5 m) s

/-- VLT_LOAD (R620): The vault fetches, verifies, validates, stages, arms and releases a recipe. -/
def execVltLoad (m : Med) (s : State) : Host.Outcome State Fault Refusal :=
  run true (fun w => w.vltCommit 6 m) s

/-- VLT_TABLE (R604): The vault installs a NAND sequence table. -/
def execVltTable (m : Med) (s : State) : Host.Outcome State Fault Refusal :=
  run true (fun w => w.vltCommit 7 m) s

/-- VLT_FORMAT (R615): The vault erases good blocks and writes an empty system area. -/
def execVltFormat (m : Med) (s : State) : Host.Outcome State Fault Refusal :=
  run true (fun w => w.vltCommit 8 m) s

/-- VLT_SCRUB (R612): The vault starts a scrub pass at once. -/
def execVltScrub (m : Med) (s : State) : Host.Outcome State Fault Refusal :=
  run true (fun w => w.vltCommit 9 m) s

/-- VLT_CONFIG (R606): The vault applies its configuration registers. -/
def execVltConfig (m : Med) (s : State) : Host.Outcome State Fault Refusal :=
  run true (fun w => w.vltCommit 10 m) s

/-- SCRUB_PERIOD (R612): The scrub period expires and blocks are read in full. -/
def execScrubPeriod (m : Med) (s : State) : Host.Outcome State Fault Refusal :=
  run true (fun w => w.scrubPeriod m) s

/-- VAULT_BACKGROUND_MOVE (R611): Between actions the vault relocates, levels wear or refreshes a block.
-/
def execVaultBackgroundMove (m : Med) (s : State) : Host.Outcome State Fault Refusal :=
  run true (fun w => w.vltMove m) s

end Sys2Proof.Machine
end

