-- ==== Sys2Proof/Machine/CmdWeir.lean ====
section
/-! DEFINITION. Meanings of the commands of the Weir and its dispatchers (13 R502 to R534; 14 R539). -/

namespace Sys2Proof.Machine

/-- WEIR_PERIOD_BOUNDARY (R510): At each Weir period the policy processor reads sensors and computes
grants and targets. -/
def execWeirPeriodBoundary (n : Nat) (temps : List Int) (pols : List (Nat × Nat × Nat)) (s : State) :
    Host.Outcome State Fault Refusal :=
  run (decide (temps.length = 32) && decide (pols.length = 24)) (fun w => w.weirBoundary n temps pols) s

/-- WEIR_GRANT_APPLY (R510): 2,048 ns after the boundary the new grants, balances and targets take
effect. -/
def execWeirGrantApply (s : State) : Host.Outcome State Fault Refusal :=
  run true (fun w => w.grantApply) s

/-- THERMAL_TRIP (R511): 31 periods at LIMIT + 10 C reset the device. -/
def execThermalTrip (also : Nat) (s : State) : Host.Outcome State Fault Refusal :=
  run (decide (also < 64)) (fun w => w.thermalTrip also) s

/-- SCALE_UPDATE (R513): Every 256 periods the Weir corrects each polder's SCALE from the meter. -/
def execScaleUpdate (s : State) : Host.Outcome State Fault Refusal :=
  run true (fun w => w.scaleUpdate) s

/-- DISPATCH_ENTRY_WRITE (R515): A write to a dispatch entry, refused while EN = 1 except clearing EN.
-/
def execDispatchEntryWrite (r : By) (p j o : Nat) (v : Word) (s : State) : Host.Outcome State Fault Refusal :=
  run (byOk r && polOk p && decide (j < 256) && decide (o < 64))
    (fun w => w.cmdWrite (reqOf r) (pldReg p + 0x4000 + 0x40 * j + o) v) s

/-- JOB_RELEASE (R516): A record of RELSRC releases a dispatch entry, charging HARD entries. -/
def execJobRelease (p j : Nat) (s : State) : Host.Outcome State Fault Refusal :=
  run (polOk p && decide (j < 256)) (fun w => w.jobRelease p j) s

/-- JOB_ADMIT (R519): The dispatcher admits a released FIRM or SOFT job when tokens, thread and banks
allow. -/
def execJobAdmit (p : Nat) (s : State) : Host.Outcome State Fault Refusal :=
  run (polOk p) (fun w => w.jobAdmit p) s

/-- JOB_START (R520): The Weir writes D0-D3 and starts the held thread at ENTRYPC. -/
def execJobStart (p j : Nat) (s : State) : Host.Outcome State Fault Refusal :=
  run (polOk p && decide (j < 256)) (fun w => w.jobStart p j) s

/-- JOB_DEADLINE (R521): A FIRM job still RELEASED at its deadline is discarded with MISSED. -/
def execJobDeadline (p j : Nat) (s : State) : Host.Outcome State Fault Refusal :=
  run (polOk p && decide (j < 256)) (fun w => w.jobDeadline p j) s

/-- REGULATOR_SETTLED (R504): A polder regulator finishes its slew and the raise waits for the next
frame boundary. -/
def execRegulatorSettled (p : Nat) (s : State) : Host.Outcome State Fault Refusal :=
  run (polOk p) (fun w => w.settled p) s

/-- WEIR_COMMIT (R534): A Weir commit validates budget and per-polder settings for the next period. -/
def execWeirCommit (s : State) : Host.Outcome State Fault Refusal :=
  run true (fun w => w.commitIf .weir true) s

/-- SUPPLY_WARNING (R526): The core input falls below 855 mV or PWR_WARN goes low and polders drop to
OP1. -/
def execSupplyWarning (s : State) : Host.Outcome State Fault Refusal :=
  run true (fun w => w.supplyWarning) s

/-- SUPPLY_WARNING_END (R527): After 10 us stable the warning ends, the dip is recorded and polders
resume. -/
def execSupplyWarningEnd (minMv lastLow : Nat) (s : State) : Host.Outcome State Fault Refusal :=
  run (decide (minMv < 65536)) (fun w => W.raiseFloors (w.supplyWarningEnd minMv lastLow)) s

/-- SUPPLY_RESET (R528): An input below 810 mV for 2 us resets the device. -/
def execSupplyReset (minMv also : Nat) (s : State) : Host.Outcome State Fault Refusal :=
  run (decide (minMv < 65536) && decide (also < 64)) (fun w => w.supplyReset minMv also) s

/-- POWER_FAULT (R539): A polder power monitor signals a POWER fault. -/
def execPowerFault (p detail : Nat) (s : State) : Host.Outcome State Fault Refusal :=
  run (polOk p) (fun w => w.signal 6 (256 + p) detail) s

end Sys2Proof.Machine
end

