-- ==== Sys2Proof/Machine/Dispatch.lean ====
section
/-! DEFINITION. The meaning of every command: one direct call per constructor. -/

namespace Sys2Proof.Machine

/-- The effect of a command on everything but the queue. -/
def exec (i : Instr) (s : State) : Host.Outcome State Fault Refusal :=
  match i with
  | .bundleIssue e t parity late => Sys2Proof.Machine.execBundleIssue e t parity late s
  | .rep e t => Sys2Proof.Machine.execRep e t s
  | .operationResult e t unit lost => Sys2Proof.Machine.execOperationResult e t unit lost s
  | .loadResponse e t k upset lost => Sys2Proof.Machine.execLoadResponse e t k upset lost s
  | .eccWriteback pa => Sys2Proof.Machine.execEccWriteback pa s
  | .storeDrain e t k lost clash => Sys2Proof.Machine.execStoreDrain e t k lost clash s
  | .add e t u pd o x => Sys2Proof.Machine.execAdd e t u pd o x s
  | .sub e t u pd o x => Sys2Proof.Machine.execSub e t u pd o x s
  | .addc e t u pd o x => Sys2Proof.Machine.execAddc e t u pd o x s
  | .subb e t u pd o x => Sys2Proof.Machine.execSubb e t u pd o x s
  | .adds e t u o x => Sys2Proof.Machine.execAdds e t u o x s
  | .subs e t u o x => Sys2Proof.Machine.execSubs e t u o x s
  | .neg e t u o x => Sys2Proof.Machine.execNeg e t u o x s
  | .abs e t u o x => Sys2Proof.Machine.execAbs e t u o x s
  | .and e t u o x => Sys2Proof.Machine.execAnd e t u o x s
  | .or e t u o x => Sys2Proof.Machine.execOr e t u o x s
  | .xor e t u o x => Sys2Proof.Machine.execXor e t u o x s
  | .andn e t u o x => Sys2Proof.Machine.execAndn e t u o x s
  | .not e t u o x => Sys2Proof.Machine.execNot e t u o x s
  | .shl e t u o x => Sys2Proof.Machine.execShl e t u o x s
  | .shr e t u o x => Sys2Proof.Machine.execShr e t u o x s
  | .sar e t u o x => Sys2Proof.Machine.execSar e t u o x s
  | .rol e t u o x => Sys2Proof.Machine.execRol e t u o x s
  | .ror e t u o x => Sys2Proof.Machine.execRor e t u o x s
  | .min e t u o x => Sys2Proof.Machine.execMin e t u o x s
  | .max e t u o x => Sys2Proof.Machine.execMax e t u o x s
  | .minu e t u o x => Sys2Proof.Machine.execMinu e t u o x s
  | .maxu e t u o x => Sys2Proof.Machine.execMaxu e t u o x s
  | .sats e t u o x => Sys2Proof.Machine.execSats e t u o x s
  | .satu e t u o x => Sys2Proof.Machine.execSatu e t u o x s
  | .sextb e t u o x => Sys2Proof.Machine.execSextb e t u o x s
  | .sexth e t u o x => Sys2Proof.Machine.execSexth e t u o x s
  | .zextb e t u o x => Sys2Proof.Machine.execZextb e t u o x s
  | .zexth e t u o x => Sys2Proof.Machine.execZexth e t u o x s
  | .clz e t u o x => Sys2Proof.Machine.execClz e t u o x s
  | .popc e t u o x => Sys2Proof.Machine.execPopc e t u o x s
  | .cmpeq e t u pd o x => Sys2Proof.Machine.execCmpeq e t u pd o x s
  | .cmpne e t u pd o x => Sys2Proof.Machine.execCmpne e t u pd o x s
  | .cmplt e t u pd o x => Sys2Proof.Machine.execCmplt e t u pd o x s
  | .cmple e t u pd o x => Sys2Proof.Machine.execCmple e t u pd o x s
  | .cmpgt e t u pd o x => Sys2Proof.Machine.execCmpgt e t u pd o x s
  | .cmpge e t u pd o x => Sys2Proof.Machine.execCmpge e t u pd o x s
  | .cmpltu e t u pd o x => Sys2Proof.Machine.execCmpltu e t u pd o x s
  | .cmpleu e t u pd o x => Sys2Proof.Machine.execCmpleu e t u pd o x s
  | .cmpgtu e t u pd o x => Sys2Proof.Machine.execCmpgtu e t u pd o x s
  | .cmpgeu e t u pd o x => Sys2Proof.Machine.execCmpgeu e t u pd o x s
  | .tstz e t u pd o x => Sys2Proof.Machine.execTstz e t u pd o x s
  | .tstnz e t u pd o x => Sys2Proof.Machine.execTstnz e t u pd o x s
  | .lea e t ar x => Sys2Proof.Machine.execLea e t ar x s
  | .aadd e t ar x => Sys2Proof.Machine.execAadd e t ar x s
  | .amod e t ar ab o x => Sys2Proof.Machine.execAmod e t ar ab o x s
  | .muls e t o x => Sys2Proof.Machine.execMuls e t o x s
  | .mulu e t o x => Sys2Proof.Machine.execMulu e t o x s
  | .mulsu e t o x => Sys2Proof.Machine.execMulsu e t o x s
  | .mulq e t sh o x => Sys2Proof.Machine.execMulq e t sh o x s
  | .divs e t o x => Sys2Proof.Machine.execDivs e t o x s
  | .divu e t o x => Sys2Proof.Machine.execDivu e t o x s
  | .mac16 e t xa qa qb x => Sys2Proof.Machine.execMac16 e t xa qa qb x s
  | .mac8ss e t xa qa qb x => Sys2Proof.Machine.execMac8ss e t xa qa qb x s
  | .mac8us e t xa qa qb x => Sys2Proof.Machine.execMac8us e t xa qa qb x s
  | .mac8uu e t xa qa qb x => Sys2Proof.Machine.execMac8uu e t xa qa qb x s
  | .nars16 e t xa qd x => Sys2Proof.Machine.execNars16 e t xa qd x s
  | .nars8 e t xa qd x => Sys2Proof.Machine.execNars8 e t xa qd x s
  | .naru8 e t xa qd x => Sys2Proof.Machine.execNaru8 e t xa qd x s
  | .packs8 e t qa qb qd => Sys2Proof.Machine.execPacks8 e t qa qb qd s
  | .packu8 e t qa qb qd => Sys2Proof.Machine.execPacku8 e t qa qb qd s
  | .unpkl8 e t qa qd => Sys2Proof.Machine.execUnpkl8 e t qa qd s
  | .unpkh8 e t qa qd => Sys2Proof.Machine.execUnpkh8 e t qa qd s
  | .unpklu8 e t qa qd => Sys2Proof.Machine.execUnpklu8 e t qa qd s
  | .unpkhu8 e t qa qd => Sys2Proof.Machine.execUnpkhu8 e t qa qd s
  | .xlane e t xa x => Sys2Proof.Machine.execXlane e t xa x s
  | .dadd e t pd o x => Sys2Proof.Machine.execDadd e t pd o x s
  | .dsub e t pd o x => Sys2Proof.Machine.execDsub e t pd o x s
  | .dadj e t pd o x => Sys2Proof.Machine.execDadj e t pd o x s
  | .b2d e t o x => Sys2Proof.Machine.execB2d e t o x s
  | .d2b e t o x => Sys2Proof.Machine.execD2b e t o x s
  | .dshl e t o x => Sys2Proof.Machine.execDshl e t o x s
  | .dshr e t o x => Sys2Proof.Machine.execDshr e t o x s
  | .ldb e t u ar upd x => Sys2Proof.Machine.execLdb e t u ar upd x s
  | .ldbu e t u ar upd x => Sys2Proof.Machine.execLdbu e t u ar upd x s
  | .ldh e t u ar upd x => Sys2Proof.Machine.execLdh e t u ar upd x s
  | .ldhu e t u ar upd x => Sys2Proof.Machine.execLdhu e t u ar upd x s
  | .ldw e t u ar upd x => Sys2Proof.Machine.execLdw e t u ar upd x s
  | .ldd e t u dr ar upd x => Sys2Proof.Machine.execLdd e t u dr ar upd x s
  | .stb e t u ar upd o x => Sys2Proof.Machine.execStb e t u ar upd o x s
  | .sth e t u ar upd o x => Sys2Proof.Machine.execSth e t u ar upd o x s
  | .stw e t u ar upd o x => Sys2Proof.Machine.execStw e t u ar upd o x s
  | .std e t u dr ar upd x => Sys2Proof.Machine.execStd e t u dr ar upd x s
  | .afadd e t u ar o x => Sys2Proof.Machine.execAfadd e t u ar o x s
  | .aswap e t u ar o x => Sys2Proof.Machine.execAswap e t u ar o x s
  | .acas e t u dr ar o x => Sys2Proof.Machine.execAcas e t u dr ar o x s
  | .br e t hint x wide => Sys2Proof.Machine.execBr e t hint x wide s
  | .jl e t hint x wide => Sys2Proof.Machine.execJl e t hint x wide s
  | .cbrEq e t hint o x imm => Sys2Proof.Machine.execCbrEq e t hint o x imm s
  | .cbrNe e t hint o x imm => Sys2Proof.Machine.execCbrNe e t hint o x imm s
  | .cbrLt e t hint o x imm => Sys2Proof.Machine.execCbrLt e t hint o x imm s
  | .cbrGe e t hint o x imm => Sys2Proof.Machine.execCbrGe e t hint o x imm s
  | .cbrLtu e t hint o x imm => Sys2Proof.Machine.execCbrLtu e t hint o x imm s
  | .cbrGeu e t hint o x imm => Sys2Proof.Machine.execCbrGeu e t hint o x imm s
  | .enterS e t x wide => Sys2Proof.Machine.execEnterS e t x wide s
  | .mfc e t n wide => Sys2Proof.Machine.execMfc e t n wide s
  | .mtc e t n x wide => Sys2Proof.Machine.execMtc e t n x wide s
  | .tstart e t o x wide => Sys2Proof.Machine.execTstart e t o x wide s
  | .tstop e t x wide => Sys2Proof.Machine.execTstop e t x wide s
  | .gate e t n wide => Sys2Proof.Machine.execGate e t n wide s
  | .retg e t wide => Sys2Proof.Machine.execRetg e t wide s
  | .retx e t wide => Sys2Proof.Machine.execRetx e t wide s
  | .iflush e t x wide => Sys2Proof.Machine.execIflush e t x wide s
  | .syncM e t wide => Sys2Proof.Machine.execSyncM e t wide s
  | .fenceA e t wide => Sys2Proof.Machine.execFenceA e t wide s
  | .eval e t cs x => Sys2Proof.Machine.execEval e t cs x s
  | .beat e t bg x => Sys2Proof.Machine.execBeat e t bg x s
  | .step e t sl pd o x => Sys2Proof.Machine.execStep e t sl pd o x s
  | .tbla e t sl kd => Sys2Proof.Machine.execTbla e t sl kd s
  | .send e t ch q x => Sys2Proof.Machine.execSend e t ch q x s
  | .recv e t ch pd => Sys2Proof.Machine.execRecv e t ch pd s
  | .rpoll e t ch pd => Sys2Proof.Machine.execRpoll e t ch pd s
  | .rskip e t ch => Sys2Proof.Machine.execRskip e t ch s
  | .take e t pd => Sys2Proof.Machine.execTake e t pd s
  | .wait e t pd x => Sys2Proof.Machine.execWait e t pd x s
  | .evqWaitTimeout e t => Sys2Proof.Machine.execEvqWaitTimeout e t s
  | .poll e t pd => Sys2Proof.Machine.execPoll e t pd s
  | .ring e t dr x => Sys2Proof.Machine.execRing e t dr x s
  | .hash e t block => Sys2Proof.Machine.execHash e t block s
  | .verify e t block => Sys2Proof.Machine.execVerify e t block s
  | .hashVerify e t block => Sys2Proof.Machine.execHashVerify e t block s
  | .hvJobComplete p => Sys2Proof.Machine.execHvJobComplete p s
  | .uxOperation e t u ws => Sys2Proof.Machine.execUxOperation e t u ws s
  | .stkPushs e t => Sys2Proof.Machine.execStkPushs e t s
  | .stkPushw e t => Sys2Proof.Machine.execStkPushw e t s
  | .stkLdb e t => Sys2Proof.Machine.execStkLdb e t s
  | .stkLdbu e t => Sys2Proof.Machine.execStkLdbu e t s
  | .stkLdh e t => Sys2Proof.Machine.execStkLdh e t s
  | .stkLdhu e t => Sys2Proof.Machine.execStkLdhu e t s
  | .stkLdw e t => Sys2Proof.Machine.execStkLdw e t s
  | .stkStb e t => Sys2Proof.Machine.execStkStb e t s
  | .stkSth e t => Sys2Proof.Machine.execStkSth e t s
  | .stkStw e t => Sys2Proof.Machine.execStkStw e t s
  | .stkAdd e t => Sys2Proof.Machine.execStkAdd e t s
  | .stkSub e t => Sys2Proof.Machine.execStkSub e t s
  | .stkAnd e t => Sys2Proof.Machine.execStkAnd e t s
  | .stkOr e t => Sys2Proof.Machine.execStkOr e t s
  | .stkXor e t => Sys2Proof.Machine.execStkXor e t s
  | .stkShl e t => Sys2Proof.Machine.execStkShl e t s
  | .stkShr e t => Sys2Proof.Machine.execStkShr e t s
  | .stkSar e t => Sys2Proof.Machine.execStkSar e t s
  | .stkRol e t => Sys2Proof.Machine.execStkRol e t s
  | .stkMin e t => Sys2Proof.Machine.execStkMin e t s
  | .stkMax e t => Sys2Proof.Machine.execStkMax e t s
  | .stkEq e t => Sys2Proof.Machine.execStkEq e t s
  | .stkNe e t => Sys2Proof.Machine.execStkNe e t s
  | .stkLt e t => Sys2Proof.Machine.execStkLt e t s
  | .stkLtu e t => Sys2Proof.Machine.execStkLtu e t s
  | .stkNot e t => Sys2Proof.Machine.execStkNot e t s
  | .stkNeg e t => Sys2Proof.Machine.execStkNeg e t s
  | .stkNop e t => Sys2Proof.Machine.execStkNop e t s
  | .stkDup e t => Sys2Proof.Machine.execStkDup e t s
  | .stkDrop e t => Sys2Proof.Machine.execStkDrop e t s
  | .stkSwap e t => Sys2Proof.Machine.execStkSwap e t s
  | .stkOver e t => Sys2Proof.Machine.execStkOver e t s
  | .stkRot e t => Sys2Proof.Machine.execStkRot e t s
  | .stkSrc e t => Sys2Proof.Machine.execStkSrc e t s
  | .stkDst e t => Sys2Proof.Machine.execStkDst e t s
  | .stkMfc e t => Sys2Proof.Machine.execStkMfc e t s
  | .stkMtc e t => Sys2Proof.Machine.execStkMtc e t s
  | .stkCbrAl e t => Sys2Proof.Machine.execStkCbrAl e t s
  | .stkCbrCond e t => Sys2Proof.Machine.execStkCbrCond e t s
  | .stkCall e t => Sys2Proof.Machine.execStkCall e t s
  | .stkRet e t => Sys2Proof.Machine.execStkRet e t s
  | .stkLeave e t => Sys2Proof.Machine.execStkLeave e t s
  | .stkHalt e t => Sys2Proof.Machine.execStkHalt e t s
  | .stkIflush e t => Sys2Proof.Machine.execStkIflush e t s
  | .stkSyncM e t => Sys2Proof.Machine.execStkSyncM e t s
  | .stkFenceA e t => Sys2Proof.Machine.execStkFenceA e t s
  | .exceptionEntry e t => Sys2Proof.Machine.execExceptionEntry e t s
  | .watchdogExpiry e t => Sys2Proof.Machine.execWatchdogExpiry e t s
  | .registerWrite r a v => Sys2Proof.Machine.execRegisterWrite r a v s
  | .rclrRead r a => Sys2Proof.Machine.execRclrRead r a s
  | .latchedRead r a => Sys2Proof.Machine.execLatchedRead r a s
  | .commitComplete b m fs => Sys2Proof.Machine.execCommitComplete b m fs s
  | .tideFrameBoundary f => Sys2Proof.Machine.execTideFrameBoundary f s
  | .tblInstall e => Sys2Proof.Machine.execTblInstall e s
  | .tblDisarm e => Sys2Proof.Machine.execTblDisarm e s
  | .tblRemove e => Sys2Proof.Machine.execTblRemove e s
  | .tblRelease e => Sys2Proof.Machine.execTblRelease e s
  | .tblReleaseTime e => Sys2Proof.Machine.execTblReleaseTime e s
  | .rngCommit e => Sys2Proof.Machine.execRngCommit e s
  | .patrolStart d => Sys2Proof.Machine.execPatrolStart d s
  | .patrolStop d => Sys2Proof.Machine.execPatrolStop d s
  | .patrolBlock d n fs => Sys2Proof.Machine.execPatrolBlock d n fs s
  | .memCfgCommit d => Sys2Proof.Machine.execMemCfgCommit d s
  | .bankTransitionDone d b => Sys2Proof.Machine.execBankTransitionDone d b s
  | .slotLoad => Sys2Proof.Machine.execSlotLoad s
  | .slotCheck => Sys2Proof.Machine.execSlotCheck s
  | .slotDisarm => Sys2Proof.Machine.execSlotDisarm s
  | .reservationOccurrence n f => Sys2Proof.Machine.execReservationOccurrence n f s
  | .messageArrival n ch src sch corrupt => Sys2Proof.Machine.execMessageArrival n ch src sch corrupt s
  | .bestEffortMessage n ch => Sys2Proof.Machine.execBestEffortMessage n ch s
  | .matrixRequest r a len data => Sys2Proof.Machine.execMatrixRequest r a len data s
  | .matrixResponse r target beats upset host refused => Sys2Proof.Machine.execMatrixResponse r target beats upset host refused s
  | .mtxCommit => Sys2Proof.Machine.execMtxCommit s
  | .culStart c n => Sys2Proof.Machine.execCulStart c n s
  | .culChain c n => Sys2Proof.Machine.execCulChain c n s
  | .culHalt c n => Sys2Proof.Machine.execCulHalt c n s
  | .culResume c n => Sys2Proof.Machine.execCulResume c n s
  | .culDoorbell r c v => Sys2Proof.Machine.execCulDoorbell r c v s
  | .culDisable r c v => Sys2Proof.Machine.execCulDisable r c v s
  | .descriptorFetch c n => Sys2Proof.Machine.execDescriptorFetch c n s
  | .descriptorStart c upset => Sys2Proof.Machine.execDescriptorStart c upset s
  | .portionStart c => Sys2Proof.Machine.execPortionStart c s
  | .culvertRequestChange c n active => Sys2Proof.Machine.execCulvertRequestChange c n active s
  | .descriptorComplete c => Sys2Proof.Machine.execDescriptorComplete c s
  | .eventDelivery src e t => Sys2Proof.Machine.execEventDelivery src e t s
  | .evrRouteCommit => Sys2Proof.Machine.execEvrRouteCommit s
  | .evrDoorbellWrite r n v => Sys2Proof.Machine.execEvrDoorbellWrite r n v s
  | .tideSource => Sys2Proof.Machine.execTideSource s
  | .tideAdjust => Sys2Proof.Machine.execTideAdjust s
  | .tideStep => Sys2Proof.Machine.execTideStep s
  | .tideState => Sys2Proof.Machine.execTideState s
  | .tideComparatorEnable => Sys2Proof.Machine.execTideComparatorEnable s
  | .tideComparatorDisable => Sys2Proof.Machine.execTideComparatorDisable s
  | .comparatorFire c => Sys2Proof.Machine.execComparatorFire c s
  | .ppsEdge frac => Sys2Proof.Machine.execPpsEdge frac s
  | .holdoverTimeout => Sys2Proof.Machine.execHoldoverTimeout s
  | .tioConfigure n => Sys2Proof.Machine.execTioConfigure n s
  | .tioJoin n => Sys2Proof.Machine.execTioJoin n s
  | .tioFlush n => Sys2Proof.Machine.execTioFlush n s
  | .tioPush r n side level tag => Sys2Proof.Machine.execTioPush r n side level tag s
  | .tioWithdraw r n side => Sys2Proof.Machine.execTioWithdraw r n side s
  | .edgeFire n => Sys2Proof.Machine.execEdgeFire n s
  | .safeDrive n => Sys2Proof.Machine.execSafeDrive n s
  | .captureEdge n ball at' frac => Sys2Proof.Machine.execCaptureEdge n ball at' frac s
  | .capPop r n => Sys2Proof.Machine.execCapPop r n s
  | .encoderCount n a b => Sys2Proof.Machine.execEncoderCount n a b s
  | .encoderSample n at' => Sys2Proof.Machine.execEncoderSample n at' s
  | .pwmPeriod n at' => Sys2Proof.Machine.execPwmPeriod n at' s
  | .ssiFrame n at' ready bits => Sys2Proof.Machine.execSsiFrame n at' ready bits s
  | .dlkStart n => Sys2Proof.Machine.execDlkStart n s
  | .dlkTables n => Sys2Proof.Machine.execDlkTables n s
  | .dlkStop n => Sys2Proof.Machine.execDlkStop n s
  | .dlkDisarm n => Sys2Proof.Machine.execDlkDisarm n s
  | .dlkJoin n => Sys2Proof.Machine.execDlkJoin n s
  | .dlkPush r n side tag => Sys2Proof.Machine.execDlkPush r n side tag s
  | .dlkWithdraw r n side => Sys2Proof.Machine.execDlkWithdraw r n side s
  | .dlkExchange n => Sys2Proof.Machine.execDlkExchange n s
  | .dlkFrameReceived n at' bits coded => Sys2Proof.Machine.execDlkFrameReceived n at' bits coded s
  | .dlkRxTimeout n => Sys2Proof.Machine.execDlkRxTimeout n s
  | .weirPeriodBoundary n temps pols => Sys2Proof.Machine.execWeirPeriodBoundary n temps pols s
  | .weirGrantApply => Sys2Proof.Machine.execWeirGrantApply s
  | .thermalTrip also => Sys2Proof.Machine.execThermalTrip also s
  | .scaleUpdate => Sys2Proof.Machine.execScaleUpdate s
  | .dispatchEntryWrite r p j o v => Sys2Proof.Machine.execDispatchEntryWrite r p j o v s
  | .jobRelease p j => Sys2Proof.Machine.execJobRelease p j s
  | .jobAdmit p => Sys2Proof.Machine.execJobAdmit p s
  | .jobStart p j => Sys2Proof.Machine.execJobStart p j s
  | .jobDeadline p j => Sys2Proof.Machine.execJobDeadline p j s
  | .regulatorSettled p => Sys2Proof.Machine.execRegulatorSettled p s
  | .weirCommit => Sys2Proof.Machine.execWeirCommit s
  | .supplyWarning => Sys2Proof.Machine.execSupplyWarning s
  | .supplyWarningEnd minMv lastLow => Sys2Proof.Machine.execSupplyWarningEnd minMv lastLow s
  | .supplyReset minMv also => Sys2Proof.Machine.execSupplyReset minMv also s
  | .powerFault p detail => Sys2Proof.Machine.execPowerFault p detail s
  | .closureComplete u => Sys2Proof.Machine.execClosureComplete u s
  | .pldWdtWrite r e t v => Sys2Proof.Machine.execPldWdtWrite r e t v s
  | .keeperMismatch pc => Sys2Proof.Machine.execKeeperMismatch pc s
  | .keeperResyncDone => Sys2Proof.Machine.execKeeperResyncDone s
  | .fltClose => Sys2Proof.Machine.execFltClose s
  | .fltReset => Sys2Proof.Machine.execFltReset s
  | .fltReadmit => Sys2Proof.Machine.execFltReadmit s
  | .fltJoin => Sys2Proof.Machine.execFltJoin s
  | .fltDisarm => Sys2Proof.Machine.execFltDisarm s
  | .fltConfig => Sys2Proof.Machine.execFltConfig s
  | .ethConfig n => Sys2Proof.Machine.execEthConfig n s
  | .ethDisarm n => Sys2Proof.Machine.execEthDisarm n s
  | .ethLinkreset n => Sys2Proof.Machine.execEthLinkreset n s
  | .ethConfigSwap n => Sys2Proof.Machine.execEthConfigSwap n s
  | .ethDbWrite r n v => Sys2Proof.Machine.execEthDbWrite r n v s
  | .ethFrameReceived n f fcsOk at' => Sys2Proof.Machine.execEthFrameReceived n f fcsOk at' s
  | .ethFrameSent n q at' cyclic => Sys2Proof.Machine.execEthFrameSent n q at' cyclic s
  | .cyclicBuild n j c => Sys2Proof.Machine.execCyclicBuild n j c s
  | .cyclicEnqueue n j => Sys2Proof.Machine.execCyclicEnqueue n j s
  | .ethLinkChange n kind => Sys2Proof.Machine.execEthLinkChange n kind s
  | .strCommit => Sys2Proof.Machine.execStrCommit s
  | .csiCommit n => Sys2Proof.Machine.execCsiCommit n s
  | .frameStart n v num at' corrected => Sys2Proof.Machine.execFrameStart n v num at' corrected s
  | .frameEnd n v num at' corrected => Sys2Proof.Machine.execFrameEnd n v num at' corrected s
  | .csiLine n v dt bs crcOk corrected => Sys2Proof.Machine.execCsiLine n v dt bs crcOk corrected s
  | .pcieInbound bar off len data poisoned correctable => Sys2Proof.Machine.execPcieInbound bar off len data poisoned correctable s
  | .outboundTimeout => Sys2Proof.Machine.execOutboundTimeout s
  | .pcieEventForward v => Sys2Proof.Machine.execPcieEventForward v s
  | .pcieLinkChange width speed => Sys2Proof.Machine.execPcieLinkChange width speed s
  | .desc u ws => Sys2Proof.Machine.execDesc u ws s
  | .ready => Sys2Proof.Machine.execReady s
  | .res u e t shadow ws late => Sys2Proof.Machine.execRes u e t shadow ws late s
  | .cred u n => Sys2Proof.Machine.execCred u n s
  | .rdresp tag bytes err => Sys2Proof.Machine.execRdresp tag bytes err s
  | .wrack tag err => Sys2Proof.Machine.execWrack tag err s
  | .annexRequestTimeout => Sys2Proof.Machine.execAnnexRequestTimeout s
  | .anxCtrlWrite r v => Sys2Proof.Machine.execAnxCtrlWrite r v s
  | .vltWrite m => Sys2Proof.Machine.execVltWrite m s
  | .vltRead m => Sys2Proof.Machine.execVltRead m s
  | .vltDelete m => Sys2Proof.Machine.execVltDelete m s
  | .vltAppend m => Sys2Proof.Machine.execVltAppend m s
  | .vltStat m => Sys2Proof.Machine.execVltStat m s
  | .vltLoad m => Sys2Proof.Machine.execVltLoad m s
  | .vltTable m => Sys2Proof.Machine.execVltTable m s
  | .vltFormat m => Sys2Proof.Machine.execVltFormat m s
  | .vltScrub m => Sys2Proof.Machine.execVltScrub m s
  | .vltConfig m => Sys2Proof.Machine.execVltConfig m s
  | .scrubPeriod m => Sys2Proof.Machine.execScrubPeriod m s
  | .vaultBackgroundMove m => Sys2Proof.Machine.execVaultBackgroundMove m s
  | .powerOnReset also => Sys2Proof.Machine.execPowerOnReset also s
  | .pinReset also => Sys2Proof.Machine.execPinReset also s
  | .softwareReset r => Sys2Proof.Machine.execSoftwareReset r s
  | .debugReset r => Sys2Proof.Machine.execDebugReset r s
  | .resetRelease pins fs ce blocks good => Sys2Proof.Machine.execResetRelease pins fs ce blocks good s
  | .bootFirmware m1 m2 => Sys2Proof.Machine.execBootFirmware m1 m2 s
  | .pcieBoot m => Sys2Proof.Machine.execPcieBoot m s
  | .sysStartCommit => Sys2Proof.Machine.execSysStartCommit s
  | .engineStart => Sys2Proof.Machine.execEngineStart s
  | .bistEngine => Sys2Proof.Machine.execBistEngine s
  | .bistPolder fs => Sys2Proof.Machine.execBistPolder fs s
  | .bistSerdes => Sys2Proof.Machine.execBistSerdes s
  | .otpProgram => Sys2Proof.Machine.execOtpProgram s
  | .dbgHalt => Sys2Proof.Machine.execDbgHalt s
  | .dbgResume => Sys2Proof.Machine.execDbgResume s
  | .dbgStep => Sys2Proof.Machine.execDbgStep s
  | .dbgTswWrite r o v => Sys2Proof.Machine.execDbgTswWrite r o v s
  | .dbgUnlock r v => Sys2Proof.Machine.execDbgUnlock r v s
  | .dbgTrcctrlWrite r p v => Sys2Proof.Machine.execDbgTrcctrlWrite r p v s
  | .dapRead a => Sys2Proof.Machine.execDapRead a s
  | .dapWrite a v => Sys2Proof.Machine.execDapWrite a v s
  | .extest bits => Sys2Proof.Machine.execExtest bits s
  | .idcode => Sys2Proof.Machine.execIdcode s
  | .samplePreload bits => Sys2Proof.Machine.execSamplePreload bits s
  | .clamp => Sys2Proof.Machine.execClamp s
  | .highz => Sys2Proof.Machine.execHighz s
  | .dapacc => Sys2Proof.Machine.execDapacc s
  | .bypass => Sys2Proof.Machine.execBypass s
  | .stkIllegalInstruction e t => Sys2Proof.Machine.execStkIllegalInstruction e t s
  | .annexPacketError code => Sys2Proof.Machine.execAnnexPacketError code s
  | .csiPacketDrop n v header => Sys2Proof.Machine.execCsiPacketDrop n v header s
  | .csiPhyError n mask => Sys2Proof.Machine.execCsiPhyError n mask s
  | .gateControlListInterval n => Sys2Proof.Machine.execGateControlListInterval n s
  | .tapReset => Sys2Proof.Machine.execTapReset s

end Sys2Proof.Machine
end

