-- ==== Sys2Proof/Safety.lean ====
section
/-! DEFINITION. What counts as a safe run of the block, and the words in which statements speak of a state: its
threads, its registers, its memory. -/

namespace Sys2Proof

/-- The invariant of the block: its memory is in canonical form, so that equal memories are equal data. -/
def Machine.State.inv (s : Machine.State) : Prop := s.mem.wf = true

/-- A step that neither faults nor refuses, to a state with the invariant. -/
def safeStep (s : Machine.State) : Prop :=
  ∃ t, Machine.step s = .next t ∧ t.inv

namespace Machine

/-! ### Threads -/

/-- Thread `t` of engine `e`. -/
def State.thread (s : State) (e t : Nat) : Thread := s.open.th (tkey e t)

/-- The state with thread `t` of engine `e` replaced. -/
def State.withThread (s : State) (e t : Nat) (x : Thread) : State := { s with thr := tset s.thr (tkey e t) x }

/-- No reset is asserted, and thread `t` of engine `e` exists and issues next: its engine is in service, it is neither
STOPPED, WAITING nor halted, STRICT leaves it the issue slot in a cycle that is not frozen, no thread before it is able
to issue, and neither an exception, a fence nor PRECISE comes first (02 R80, R84, R85; 04 R161, R162, R168; 06 R219, R229;
14 R544; 17 R630). -/
abbrev State.issues (s : State) (e t : Nat) : Prop :=
  s.sys.held = false ∧ thrOk e t = true ∧ s.open.mayIssue (tkey e t) = true ∧ s.open.notTurn (tkey e t) = false ∧
  (s.thread e t).excDue = false ∧ s.open.nextHolds (tkey e t) = []

/-- The state after a trigger of unit group `u` by thread `t` of engine `e`: the sockets hold the code and the
operand, and the operation `f` is in flight (02 R43; 04 R131, R166). -/
def State.triggered (s : State) (e t u code : Nat) (o : Option Word) (f : Op) : State :=
  s.withThread e t (((s.thread e t).setOperands u code o).goes.launch f)

/-- Register `r` of thread `t` of engine `e` awaits no result (02 R50). -/
abbrev State.settled (s : State) (e t : Nat) (r : RegId) : Prop :=
  s.open.regHold (tkey e t) (s.thread e t).shadow r = []

/-- An operation of unit group `u` that the bundle at the thread's PC triggers, with its socket results: the
operation's number and bank are filled in when it starts (02 R77; 04 R166). -/
def State.opOf (s : State) (e t u : Nat) (rs : List (Nat × Word)) : Op :=
  { unit := u, seq := 0, pc := (s.thread e t).pc, shadow := false, srcs := rs }

/-- A carry or an outcome as a predicate write: none for PD = 0 (04 R135). -/
def predTo (pd : Nat) (c : Bool) : List (Nat × Bool) := if pd = 0 then [] else [(pd, c)]

/-- The carry in: P[PD], 0 for PD = 0 (04 R137). -/
def State.carryIn (s : State) (e t pd : Nat) : Nat :=
  if pd = 0 then 0 else b01 ((s.thread e t).getP (s.thread e t).shadow pd)

/-- Whether a value lies outside the signed range of `n` bits. -/
def outside (n : Nat) (x : Int) : Bool := decide (x < -(2 ^ (n - 1))) || decide (2 ^ (n - 1) ≤ x)

/-- A value clamped to the signed range of `n` bits; a width of no bits holds 0 alone (04 R137). -/
def clamp (n : Nat) (x : Int) : Int := if n = 0 then 0 else max (-(2 ^ (n - 1))) (min (2 ^ (n - 1) - 1) x)

/-- D, A and predicate registers of a thread as its bank shows them (02 R76). -/
def State.dreg (s : State) (e t n : Nat) : Word := (s.thread e t).getD (s.thread e t).shadow n
def State.areg (s : State) (e t n : Nat) : Word := (s.thread e t).getA (s.thread e t).shadow n
def State.preg (s : State) (e t n : Nat) : Bool := (s.thread e t).getP (s.thread e t).shadow n

/-- The four registers of quad `q` await no result. -/
abbrev State.quadSettled (s : State) (e t q : Nat) : Prop := ∀ i < 4, s.settled e t (0, 4 * q + i)

/-- Half `i` and byte `j` of quad `q`: the low ones in the lowest register (02 R55; 04, SIMD). -/
def State.dHalf (s : State) (e t q i : Nat) : BitVec 16 := (s.dreg e t (4 * q + i / 2) >>> (16 * (i % 2))).setWidth 16
def State.dByte (s : State) (e t q j : Nat) : BitVec 8 := (s.dreg e t (4 * q + j / 4) >>> (8 * (j % 4))).setWidth 8

/-- A quad as a 128-bit number, its lowest register lowest (02 R55). -/
def State.quadOf (s : State) (e t q : Nat) : Nat :=
  (s.dreg e t (4 * q + 3) ++ s.dreg e t (4 * q + 2) ++ s.dreg e t (4 * q + 1) ++ s.dreg e t (4 * q) : BitVec 128).toNat

/-- Half `i` of two quads in a row. -/
def State.halfOfTwo (s : State) (e t qa qb i : Nat) : BitVec 16 :=
  if i < 8 then s.dHalf e t qa i else s.dHalf e t qb (i - 8)

/-- The four words of quad `q` as register writes. -/
def quadTo (q : Nat) (f : Nat → Word) : List (Nat × Word) := (List.range 4).map fun k => (4 * q + k, f k)

/-- A pointer stepped by the signed `x` through the ring of `o` bytes at `base`, 2^32 bytes for 0 (04 R140). -/
def ringStep (base ptr o x : Word) : Word :=
  base + w32i (((ptr - base).toNat + x.toInt) % (if o = 0 then 2 ^ 32 else (o.toNat : Int)))

/-- A word of four byte lanes, and one of two half lanes, the first lowest; each lane wraps to its width. -/
def lanes4 (f : Nat → Int) : Word :=
  (BitVec.ofInt 8 (f 3) ++ BitVec.ofInt 8 (f 2) ++ BitVec.ofInt 8 (f 1) ++ BitVec.ofInt 8 (f 0) : BitVec 32)
def lanes2 (f : Nat → Int) : Word := (BitVec.ofInt 16 (f 1) ++ BitVec.ofInt 16 (f 0) : BitVec 32)

/-- The number that eight decimal digits stand for, and whether all are 0 to 9 (04 R150). -/
def bcd (x : Word) : Nat := ((List.range 8).map fun k => (x >>> (4 * k)).toNat % 16 * 10 ^ k).sum
def isBcd (x : Word) : Bool := (List.range 8).all fun k => decide ((x >>> (4 * k)).toNat % 16 < 10)

/-- A thread with one more exception pending: its vector, detail and FADDR; it belongs to the bank and the handler that
run, and to the old ring in the shadow of a ring change (04 R170; 08 R294, R295, R302, R310). -/
def Thread.raised (x : Thread) (vec detail : Nat) (faddr : Word) : Thread :=
  { x with
    excs := x.excs ++ [{ vec := vec, detail := detail, faddr := faddr, seq := x.seq, shadow := x.shadow
                         origin := x.charged, lvl := x.under.length }] }

/-- Whether a thread's ring may read, write or fetch `n` bytes at an address (08 R278, R279): `kind` is 1, 2 or 4. -/
def State.allows (s : State) (e t kind : Nat) (a : Word) (n : Nat) : Bool :=
  s.open.grants e (s.thread e t).ring kind a.toNat n

/-- The address that an LSU operation of a thread accesses: A[AR] + T modulo 2^32 (04, *LSU0 and LSU1*). -/
def State.ea (s : State) (e t ar : Nat) (x : Word) : Word := s.areg e t ar + x

/-- A thread whose LSU `u` takes a code and, where there is one, an operand, and with U = 1 starts to write the
effective address back (04 R152). -/
def State.lsuTriggered (s : State) (e t u code : Nat) (o : Option Word) (ar : Nat) (upd : Bool) (x : Word) : Thread :=
  let y := ((s.thread e t).setOperands (9 + u) code o).goes
  if upd then y.launch { s.opOf e t (9 + u) [] with as := [(ar, s.ea e t ar x)] } else y

/-- The access of a load or atomic as its trigger captures it (04 R151, R166). -/
def State.accOf (s : State) (e t u : Nat) (op : LsuOp) (ea : Word) : Acc :=
  { op := op, lsu := u, seq := 0, pc := (s.thread e t).pc, shadow := false, ring := 0, ea := ea }

/-- The sentinel makes no more of a deviation of class `c` by a thread than its count: it does not check the thread, or
neither traps nor tells that class (06 R232 to R236, R250). -/
abbrev State.unmarked (s : State) (e t c : Nat) : Prop :=
  s.open.checked (tkey e t) = false ∨
  ((s.open.stg (sntReg e)).getLsbD (8 + c) = false ∧ (s.open.stg (sntReg e)).getLsbD (16 + c) = false)

/-- The sentinel takes no notice of a waiting thread: it does not check it, and counts no shadow bank (06 R232, R233). -/
abbrev State.unwatched (s : State) (e t : Nat) : Prop :=
  s.open.checked (tkey e t) = false ∧ ((s.open.en e).strict = false ∨ (s.thread e t).shadow = false)

/-- A saturating counter register advanced by `n` (00 R9). -/
def State.countedBy (s : State) (a n : Nat) : State :=
  { s with regs := tset s.regs a (w32 (min ((s.open.rg a).toNat + n) 0xFFFFFFFF)) }

/-- The state after a cycle in which thread `x` waited: it is STALLED, and its engine idled unless another of its threads
was READY (06 R228, R248). -/
def State.waiting (s : State) (e t : Nat) (x : Thread) : State :=
  let z := s.withThread e t { x with run := .stalled }
  if s.open.soleIssuer (tkey e t) then z.countedBy (sntReg e + 0x44) 1 else z

/-- The address behind the delay slot of a thread that stands before it (02 R68). -/
def State.linkFrom (s : State) (e t : Nat) (y : Thread) : Word :=
  y.pc + w32 ((s.withThread e t y).open.widthAt (tkey e t) y.pc.toNat y.stk)

/-- The trap of vector `vec` that an operation raises in a thread: taken beneath the trap handler that runs, if one does
(04 R165 to R170; 08 R310). -/
def Thread.trapOf (x : Thread) (o : Op) (vec : Nat) : Exc :=
  { vec := vec, faddr := o.pc, seq := o.seq, trap := true, origin := o.origin, lvl := x.trapLvl, lat := trapLat o.unit }

/-- The pending exceptions of a thread after an operation completed with these overflow and zero-divide outcomes: its
enabled traps take their place (04 R165 to R170). -/
def Thread.afterTraps (x : Thread) (o : Op) (ov dz : Bool) : List Exc :=
  let l := if ov && o.ovt then putTrap (x.trapOf o 10) x.excs else x.excs
  if dz && o.dzt then putTrap (x.trapOf o 11) l else l

/-- The data-bus error of an access in flight, as a thread gets it: charged to the ring that its trigger was charged to
(04 R157; 08 R294, R310). -/
def Thread.busErrOf (x : Thread) (st : St) (ea : Word) (seq : Nat) (shadow : Bool) (origin : Option Nat) : List Exc :=
  x.excs ++ [{ vec := 8, status := st.code, faddr := ea, seq := seq, shadow := shadow, origin := origin, lvl := x.under.length }]

/-- The buffers of a thread without the line of an address (06 R243). -/
def Thread.unlined (x : Thread) (a : Word) : Thread :=
  { x with
    lineS := x.lineS.filter fun l => decide (l.addr ≠ a.toNat / 64 * 64)
    lineT := x.lineT.filter fun l => decide (l.addr ≠ a.toNat / 64 * 64) }

/-- A thread whose front end has read as far as that of `z`: its line buffers and the bundles it holds (06 R213, R217). -/
def Thread.frontOf (x z : Thread) : Thread := { x with lineS := z.lineS, lineT := z.lineT, front := z.front }

/-! ### Results and memory -/

/-- The value that a list of writes gives key `i`, the last write winning, or `d` where none does. -/
def lastOf {α : Type} (l : List (Nat × α)) (i : Nat) (d : α) : α :=
  ((l.reverse.find? fun c => decide (c.1 = i)).map (·.2)).getD d

/-- What a load puts in LSU.R from the `n` of its bytes (04 R151). -/
def loadResult (op : LsuOp) (v : Nat) : Word :=
  match op with
  | .ldb => (BitVec.ofNat 8 v).signExtend 32
  | .ldbu => (BitVec.ofNat 8 v).setWidth 32
  | .ldh => (BitVec.ofNat 16 v).signExtend 32
  | .ldhu => (BitVec.ofNat 16 v).setWidth 32
  | _ => BitVec.ofNat 32 v

/-- The `n` bytes of memory from a physical address on, as a little-endian number (00 R5). -/
def State.memNat (s : State) (pa n : Nat) : Nat := ((List.range n).map fun i => (s.mem.read (pa + i)).toNat * 256 ^ i).sum

/-- Memory of `n` is memory of `s` with the `len` low bytes of `v` at `pa`, the lowest first, and no other byte
changed. -/
abbrev State.stored (s n : State) (pa len v : Nat) : Prop :=
  ∀ a, n.mem.read a = if pa ≤ a ∧ a < pa + len then BitVec.ofNat 8 (v / 256 ^ (a - pa)) else s.mem.read a

/-- Two states that agree on everything but thread `t` of engine `e` and memory. -/
abbrev State.sameButThread (s n : State) (e t : Nat) : Prop :=
  n = { s.withThread e t (n.thread e t) with mem := n.mem }

/-- The double that holds `pa` has no ECC error, and no patrol has borrowed its block (09 R336, R349). -/
abbrev State.sound (s : State) (pa : Nat) : Prop := s.open.eccOf pa = 0 ∧ s.open.borrowOf pa = none

/-- The address of a thread leads to memory at `pa`, the thread's engine may access it there for reading or
writing, and its double is sound (09 R325, R344; 10 R400; 05 R176). -/
abbrev State.reaches (s : State) (e : Nat) (a : Word) (pa : Nat) (write : Bool) : Prop :=
  (engReq e 0).who.map a.toNat = .mem pa ∧ s.open.accErr (engReq e 0).who pa write = none ∧ s.sound pa

/-- Signed and unsigned byte and signed half of a quad held as a 128-bit number (04, *SIMD*). -/
def sByteOf (q j : Nat) : Int := (BitVec.ofNat 8 (q / 2 ^ (8 * j))).toInt
def uByteOf (q j : Nat) : Int := (BitVec.ofNat 8 (q / 2 ^ (8 * j))).toNat
def sHalfOf (q i : Nat) : Int := (BitVec.ofNat 16 (q / 2 ^ (16 * i))).toInt

/-- The exact sum of lane `i` that a MAC in flight makes from its thread's accumulator (04 R146). -/
def State.macAt (s : State) (e t : Nat) (j : SimdJob) (i : Nat) : Int :=
  (if j.t.getLsbD 0 then 0 else ((s.thread e t).lane j.xa i).toInt) +
  match j.op with
  | .mac16 => sHalfOf j.qa i * sHalfOf j.qb i
  | .mac8ss => sByteOf j.qa (2 * i) * sByteOf j.qb (2 * i) + sByteOf j.qa (2 * i + 1) * sByteOf j.qb (2 * i + 1)
  | .mac8us => uByteOf j.qa (2 * i) * sByteOf j.qb (2 * i) + uByteOf j.qa (2 * i + 1) * sByteOf j.qb (2 * i + 1)
  | _ => uByteOf j.qa (2 * i) * uByteOf j.qb (2 * i) + uByteOf j.qa (2 * i + 1) * uByteOf j.qb (2 * i + 1)

/-- Lane `i` of the accumulator of a narrow in flight, rounded half up at T bits 5:0 (04 R147). -/
def State.roundedLane (s : State) (e t : Nat) (j : SimdJob) (i : Nat) : Int :=
  let v := ((s.thread e t).lane j.xa i).toInt
  let n := j.t.toNat % 64
  if n = 0 then v else (v + 2 ^ (n - 1)) / 2 ^ n

/-! ### Bundles that trigger CTL -/

/-- Thread `t` of engine `e` stands before a plain bundle of move mode: it issues next, nothing holds or faults it before
the bundle, it is in no delay slot and no repetition, and its shadow bank is not counted (02 R67, R71; 04 R161,
R162, R168; 08 R281, R296). -/
abbrev State.plain (s : State) (e t : Nat) : Prop :=
  s.issues e t ∧ (s.thread e t).stk = false ∧
  ((s.thread e t).excs.any (·.waits)) = false ∧ (s.thread e t).rpt = 0 ∧
  (s.thread e t).br = none ∧ (s.thread e t).pc.toNat < 0x8000 ∧ (s.thread e t).pc.toNat % 4 = 0 ∧
  s.allows e t 4 (s.thread e t).pc 1 = true ∧ ((s.open.en e).strict = false ∨ (s.thread e t).shadow = false)

/-- The line of engine `e`'s instruction memory that holds an address can be read, and is sound (06 R242; 09 R338). -/
abbrev State.lineClean (s : State) (e a : Nat) : Prop :=
  ∀ i < 8, s.open.accErr (engReq e 0).who (imemBase e + a / 64 * 64 + 8 * i) false = none ∧
    s.sound (imemBase e + a / 64 * 64 + 8 * i)

/-- All of engine `e`'s instruction memory can be read, and is sound: the front end reads ahead (06 R213, R223). -/
abbrev State.codeClean (s : State) (e : Nat) : Prop := ∀ i < 512, s.lineClean e (64 * i)

/-- The bubbles of a branch that still wait after a bundle: a branch ahead of it owes its two once its delay slot has
issued (04 R159; 06 R223). -/
def bubLeft (n : Nat) : Nat := if n ≤ 1 then 0 else 1

/-- The thread after a bundle that makes one CTL trigger, short or long, but for what CTL does: its sockets hold the
code and the operand, its PC has moved on, and its front end keeps what starts there (02 R34, R67; 03 R95; 06 R217). -/
def State.ctlIssued (s : State) (e t code : Nat) (o : Option Word) (wide : Bool) : Thread :=
  let y := (s.thread e t).setOperands 11 code o
  let pc := y.pc + (if wide then 16 else 4)
  { y with
    run := .ready, oneMore := false, fence := none, hvSeen := false, rpt := 0, latch := none, pc := pc
    front := frontFrom y.front.tail pc, bub := bubLeft y.bub, rcLeft := y.rcLeft - 1, halted := y.stepReq, stepReq := false }

/-- A thread after a branch that goes to `tgt`, or to the bundle behind its delay slot: its target line is in a buffer of
`m`, the bundles that its front end read on another path are gone, and a wrong prediction owes two bubbles (02 R67; 04
R159; 06 R223). -/
def Thread.branched (y m : Thread) (tgt : Option Word) (stk wrong : Bool) : Thread :=
  { y with
    br := some { tgt := tgt, stk := stk }, front := resolveFront y.front tgt, bub := if wrong then 2 else y.bub
    lineT := m.lineT }

/-- The state after thread `t` of engine `e` took the issue slot: the branch bubbles of the engine's other threads have
passed (06 R224). -/
def State.slotTaken (s : State) (e t : Nat) : State :=
  (List.range 4).foldl (fun z i =>
    if i ≠ t ∧ (s.thread e i).bub = 1 then z.withThread e i { s.thread e i with bub := 0 } else z) s

/-- The frame of a bundle: memory and everything but the thread, its engine's last issuer, the engine's issue
counters, the bubbles that its other threads owe and its polder's trace (06 R224, R248; 17 R653) are unchanged. -/
abbrev State.issueFrame (s n : State) (e t : Nat) : Prop :=
  n = { (s.slotTaken e t).withThread e t (n.thread e t) with eng := n.eng, regs := n.regs, trace := n.trace } ∧
  n.eng = tset s.eng e { s.open.en e with last := t } ∧
  ∀ a, ¬ (sntReg e + 0x40 ≤ a ∧ a < sntReg e + 0x5C) → a ≠ trcReg (e / 8) → n.open.rg a = s.open.rg a

/-- A 16-bit offset in words, added to an address (03 R123). -/
def branchTo (pc : Word) (imm : Nat) : Word := pc + w32i ((BitVec.ofNat 16 imm).toInt * 4)

/-- The control registers as a bundle reads them, by index (02 R61, R63, R65): TS is RING, THREAD, SHADOW, STK, NEST,
PRECISE, IE, OVT, DZT from bit 31 on, and BI, DC, DZ, OV in bits 3:0. -/
def State.ctlReg (s : State) (e t n : Nat) : Word :=
  let x := s.thread e t
  let bit (b : Bool) : BitVec 1 := BitVec.ofBool b
  match n with
  | 0 => (BitVec.ofNat 2 x.ring ++ BitVec.ofNat 2 t ++ bit x.shadow ++ bit x.stk ++ bit x.nest ++ bit x.precise ++
      bit x.ie ++ bit x.ovt ++ bit x.dzt ++ (0 : BitVec 17) ++ bit x.bi ++ bit x.dc ++ bit x.dz ++ bit x.ov : BitVec 32)
  | 1 => x.pc
  | 2 => x.lk
  | 3 => x.rc
  | 4 => x.spc
  | 5 => x.sst
  | 6 => x.srpt
  | 7 => x.slim
  | 8 => x.gtbase
  | 9 => (bit x.ie).setWidth 32
  | 10 => (bit x.precise).setWidth 32
  | 11 => (bit x.nest).setWidth 32
  | _ => (bit (s.open.en e).exposed ++ bit (s.open.en e).strict : BitVec 2).setWidth 32

/-- A thread whose control register `n` takes `v` at ring `r`: TS by its fields, its sticky bits by W1C; the other
registers whole (02 R61, R63; 08 R299). GTBASE and MODE have rules of their own. -/
def ctlWritten (y : Thread) (r n : Nat) (v : Word) : Thread :=
  match n with
  | 0 => { y with
      nest := if r ≤ 1 then v.getLsbD 25 else y.nest, precise := v.getLsbD 24
      ie := if r ≤ 2 then v.getLsbD 23 else y.ie, ovt := v.getLsbD 22, dzt := v.getLsbD 21
      bi := y.bi && !v.getLsbD 3, dc := y.dc && !v.getLsbD 2, dz := y.dz && !v.getLsbD 1, ov := y.ov && !v.getLsbD 0 }
  | 2 => { y with lk := v }
  | 3 => { y with rc := v }
  | 4 => { y with spc := v }
  | 5 => { y with sst := v &&& 0xF7F8FFFE }
  | 6 => { y with srpt := v }
  | 7 => { y with slim := v }
  | 9 => { y with ie := v.getLsbD 0 }
  | 10 => { y with precise := v.getLsbD 0 }
  | 11 => { y with nest := v.getLsbD 0 }
  | _ => y

/-- No dispatch entry holds or runs the thread of key `k` for a job (13 R519, R520). -/
abbrev State.noJob (s : State) (k : Nat) : Prop :=
  ∀ c ∈ s.disp, c.2.eng (c.1 / 256) ≠ k / 4 ∨ c.2.thread ≠ k % 4 ∨ c.2.st < 2

/-- The `n` bytes from an address of engine `e` on lie in memory at `pa`, and the engine may read or write each, all
in sound doubles. -/
abbrev State.spans (s : State) (e : Nat) (a : Word) (n pa : Nat) (write : Bool) : Prop :=
  (∀ i < (n + 7) / 8, (engReq e 0).who.map (a + w32 (8 * i)).toNat = .mem (pa + 8 * i)) ∧
  ∀ i < n, s.open.accErr (engReq e 0).who (pa + i) write = none ∧ s.sound (pa + i)

/-- A word of memory. -/
def State.wordAt (s : State) (pa : Nat) : Word := w32 (s.memNat pa 4)

/-- The frame of a bundle that may write memory and count in its engine's ring registers (08 R319). -/
abbrev State.gateFrame (s n : State) (e t : Nat) : Prop :=
  n = { (s.slotTaken e t).withThread e t (n.thread e t) with eng := n.eng, regs := n.regs, trace := n.trace, mem := n.mem } ∧
  n.eng = tset s.eng e { s.open.en e with last := t } ∧
  ∀ a, ¬ (sntReg e + 0x40 ≤ a ∧ a < sntReg e + 0x5C) → a ≠ trcReg (e / 8) → a ≠ rngReg e + 0x108 →
    a ≠ rngReg e + 0x10C → n.open.rg a = s.open.rg a

/-- Argument `i` of a gate with entry words `c1` (CK) and `c2` (RIDX) passes its check: any value, a value in its
range of the range table, or bytes that the caller's windows grant (08 R287). -/
def State.gateArgPasses (s : State) (e t : Nat) (c1 c2 : Word) (ranges i : Nat) : Bool :=
  let ck := c1.toNat / 2 ^ (8 + 2 * i) % 4
  let v := (s.dreg e t i).toNat
  let n := (s.dreg e t (i + 1)).toNat
  let r := ranges + 8 * (c2.toNat / 2 ^ (8 * i) % 256)
  if ck = 0 then true
  else if ck = 1 then decide ((s.wordAt r).toNat ≤ v) && decide (v ≤ (s.wordAt (r + 4)).toNat)
  else decide (n = 0) || (decide (v + n ≤ 2 ^ 32) && s.open.grants e (s.thread e t).ring 1 v n &&
    (decide (ck = 2) || s.open.grants e (s.thread e t).ring 2 v n))

/-- A thread that returns from an exception to saved registers, with the width of the bundle at SPC: in a
repetition with RP = 1, as a delay slot with DP = 1, in stack mode with STK = 1 (08 R299, R305, R306, R308), and in the
shadow of the ring change that the exception interrupted (08 R309, R310). -/
def returned (y : Thread) (spc sst srpt : Word) (width : Nat) : Thread :=
  { y with
    ring := sst.toNat / 2 ^ 30, stk := sst.getLsbD 26, nest := sst.getLsbD 25, precise := sst.getLsbD 24
    ie := sst.getLsbD 23, ovt := sst.getLsbD 22, dzt := sst.getLsbD 21, shadow := false, dfault := false, tos := []
    pc := if sst.getLsbD 19 = true ∧ srpt = 0 then spc + w32 width else spc
    rpt := if sst.getLsbD 19 then srpt.toNat else 0
    latch := none
    br := if sst.getLsbD 20 then
        some { tgt := some ((sst.setWidth 16) &&& 0xFFFE |>.setWidth 32), stk := sst.getLsbD 26 != (y.under.headD {}).flip }
      else none
    under := y.under.tail, front := [], bub := 0, oneMore := true
    rcLeft := (y.under.headD {}).rcLeft, rcRing := (y.under.headD {}).rcRing }

/-! ### Tables, channels and events -/

/-- The thread after a trigger of unit group `u`, without an operation in flight. -/
def State.taken (s : State) (e t u code : Nat) (o : Option Word) : Thread := ((s.thread e t).setOperands u code o).goes

/-- Coefficient `k` of the segment record at `pa`, signed (05 R181). -/
def State.coef (s : State) (pa k : Nat) : Int := (s.wordAt (pa + 4 + 4 * k)).toInt

/-- A rational rounded half up and clamped to a signed word, and whether it had to be (05 R185). -/
def roundQ (x : Rat) : Int := (x + 1 / 2).floor
def roundW (x : Rat) : Word := w32i (clamp 32 (roundQ x))

/-- Position, velocity and acceleration of the segment at `pa`, of width `wd`, at offset `x` from its start, as exact
rationals (05 R185). -/
def State.curveP (s : State) (pa wd x : Nat) : Rat :=
  let f : Rat := (x * 2 ^ 32 / wd : Nat) / (2 ^ 32 : Nat)
  (s.coef pa 0 : Rat) + s.coef pa 1 * f + s.coef pa 2 * f ^ 2 + s.coef pa 3 * f ^ 3 + s.coef pa 4 * f ^ 4 + s.coef pa 5 * f ^ 5
def State.curveV (s : State) (pa wd x : Nat) : Rat :=
  let f : Rat := (x * 2 ^ 32 / wd : Nat) / (2 ^ 32 : Nat)
  ((s.coef pa 1 : Rat) + 2 * s.coef pa 2 * f + 3 * s.coef pa 3 * f ^ 2 + 4 * s.coef pa 4 * f ^ 3 + 5 * s.coef pa 5 * f ^ 4) *
    2 ^ 16 / wd
def State.curveA (s : State) (pa wd x : Nat) : Rat :=
  let f : Rat := (x * 2 ^ 32 / wd : Nat) / (2 ^ 32 : Nat)
  (2 * (s.coef pa 2 : Rat) + 6 * s.coef pa 3 * f + 12 * s.coef pa 4 * f ^ 2 + 20 * s.coef pa 5 * f ^ 3) * 2 ^ 32 / wd ^ 2

/-- Bytes of memory that engine `e` may read, all in sound doubles. -/
abbrev State.clean (s : State) (e pa n : Nat) : Prop :=
  ∀ i < n, s.open.accErr (.eng e) (pa + i) false = none ∧ s.sound (pa + i)

/-- The state after a source raised a record: the source's number advances, the record waits in the router for each
target enabled now, and dispatch entries and the PCIe endpoint take their copies (12 R442, R446, R448;
`EventsAreNumberedAndRouted` says what this changes). -/
def State.withEvent (s : State) (src payload time : Nat) : State := s.close (s.open.raise src payload time)

/-- The state after an EVQ operation of a thread completed: its watchdog restarts, EXP clears and a pending WATCHDOG
exception is withdrawn (14 R540). -/
def State.kicked (s : State) (e t : Nat) : State :=
  let n := s.withThread e t { s.thread e t with
    wdFrom := s.open.now, wdPend := false, excs := (s.thread e t).excs.filter fun x => x.vec != 13 }
  if tkey e t < 768 then
    { n with regs := tset s.regs (wdtReg (tkey e t)) (s.open.rg (wdtReg (tkey e t)) &&& 0xBFFFFFFF) }
  else n

/-- The key of channel `ch` of engine `e` among the buffers of its node (10 R366, R369). -/
def chanKey (e ch : Nat) : Nat := 32 * (engChan e ch).1 + (engChan e ch).2

/-- The flits in a receive and a send channel of an engine. -/
def State.rxOf (s : State) (e ch : Nat) : List Flit := tget [] s.net.rx (chanKey e ch)
def State.txOf (s : State) (e ch : Nat) : List Flit := tget [] s.net.tx (chanKey e ch)

/-- `n` bytes of memory. -/
def State.bytesAt (s : State) (pa n : Nat) : List Byte := (List.range n).map fun i => s.mem.read (pa + i)

/-- A job of an HV may read (`kind` 1) or write (2) `n` bytes at address `a`, and they lie in memory at `pa`, each
sound (03 R116; 08 R282). No bytes are always seen. -/
abbrev State.jobSees (s : State) (j : HvJob) (kind a n pa : Nat) : Prop :=
  n = 0 ∨ (a + n ≤ 2 ^ 32 ∧ s.open.grants (j.key / 4) j.ring kind a n = true ∧
    (engReq (j.key / 4) j.ring).who.map a = .mem pa ∧
    ∀ i < n, s.open.accErr (engReq (j.key / 4) j.ring).who (pa + i) (kind = 2) = none ∧ s.sound (pa + i))

/-- The state after the oldest job of HV `p` ended, `r` waiting behind it: HV.R of the bank that triggered it holds the
code (03 R114, R118). -/
def State.hvDone (s : State) (p : Nat) (j : HvJob) (r : List HvJob) (st : St) : State :=
  { s.withThread (j.key / 4) (j.key % 4) ((s.thread (j.key / 4) (j.key % 4)).setSrc j.shadow 112 (w32 st.code)) with
    hv := tset s.hv p r }

/-! ### Stack mode -/

/-- The line that a thread executes from: in a buffer, or read from instruction memory (06 R242). -/
def State.lineFor (s : State) (e t : Nat) : Line :=
  let a := (s.thread e t).pc.toNat / 64 * 64
  ((s.thread e t).line (s.thread e t).pc.toNat).getD
    { addr := a, words := (List.range 16).map fun i => some (s.wordAt (imemBase e + a + 4 * i)) }

/-- The half of that line at an address. -/
def State.halfAt (s : State) (e t a : Nat) : Option Nat :=
  ((s.lineFor e t).words.getD (a % 64 / 4) none).map fun v => v.toNat / 2 ^ (16 * (a / 2 % 2)) % 2 ^ 16

/-- Thread `t` of engine `e` stands before the stack-mode instruction `h`: it may issue, nothing holds or faults it
before the instruction (02 R86; 03 R94, R123; 04 R163; 08 R281, R296). -/
abbrev State.stacked (s : State) (e t h : Nat) : Prop :=
  s.issues e t ∧ (s.thread e t).stk = true ∧ ((s.thread e t).excs.any (·.waits)) = false ∧ (s.thread e t).rpt = 0 ∧
  (s.thread e t).pc.toNat < 0x8000 ∧ (s.thread e t).pc.toNat % 2 = 0 ∧ s.allows e t 4 (s.thread e t).pc 1 = true ∧
  ((s.open.en e).strict = false ∨ (s.thread e t).shadow = false) ∧
  ((s.thread e t).line (s.thread e t).pc.toNat = none → s.lineClean e (s.thread e t).pc.toNat) ∧
  s.halfAt e t (s.thread e t).pc.toNat = some h

/-- The thread `y` after an instruction of `width` bytes: its line is in a buffer, and its PC has moved on, or to the
target of the branch whose delay slot this was (02 R67, R91, R92). -/
def State.stkIssued (s : State) (e t width : Nat) (y : Thread) : Thread :=
  let x := s.thread e t
  let z := { y with
    run := .ready, oneMore := false, fence := none, hvSeen := false, rpt := 0, latch := none, pc := x.pc + w32 width
    lineS := if (x.line x.pc.toNat).isNone then some (s.lineFor e t) else x.lineS
    bub := bubLeft x.bub, rcLeft := x.rcLeft - 1, halted := x.stepReq, stepReq := false }
  match x.br with
  | none => { z with front := frontFrom x.front.tail z.pc }
  | some b =>
    let pc := b.tgt.getD z.pc
    { z with pc := pc, stk := b.stk, br := none, tos := if b.stk then z.tos else []
             front := if b.stk then [] else frontFrom x.front.tail pc }

/-- The top `n` entries of a thread's stack, the top first: in the cache, and from memory at `pa` below it (02 R87). -/
def State.entries (s : State) (e t n pa : Nat) : List Word :=
  ((s.thread e t).tos ++ (List.range n).map fun i => s.wordAt (pa + 4 * i)).take n

/-- The thread after `n` entries were popped and `outs` pushed, the first on top: A15 moves with each entry that the
cache takes from memory or spills there (02 R87). -/
def restacked (y : Thread) (n : Nat) (outs : List Word) : Thread :=
  let l := outs ++ y.tos.drop n
  let z := { y with tos := l.take 8 }
  if n ≤ y.tos.length ∧ l.length ≤ 8 then z
  else z.setA y.shadow 15 (y.getA y.shadow 15 + w32 (4 * (n - y.tos.length)) - (if 8 < l.length then 4 else 0))

/-- The entries below the cache that `n` pops need lie in memory at `pa` and may be read; where `outs` does not fit, the
word below them at `pa` may be written; no older store or pointer update is outstanding then (02 R87, R92). -/
abbrev State.stackReady (s : State) (e t n : Nat) (outs : List Word) (pa : Nat) : Prop :=
  let sp := s.areg e t 15
  let len := (s.thread e t).tos.length
  len ≤ 8 ∧
  (n ≤ len ∨ (s.settled e t (1, 15) ∧ (s.thread e t).sbuf = [] ∧ ∀ i < n - len, (sp + w32 (4 * i)).toNat % 4 = 0 ∧
    s.allows e t 1 (sp + w32 (4 * i)) 4 = true ∧ s.reaches e (sp + w32 (4 * i)) (pa + 4 * i) false)) ∧
  (outs.length + (len - n) ≤ 8 ∨ (outs.length + (len - n) = 9 ∧ s.settled e t (1, 15) ∧ (s.thread e t).sbuf = [] ∧
    (sp - 4).toNat % 4 = 0 ∧ s.allows e t 2 (sp - 4) 4 = true ∧ s.reaches e (sp - 4) pa true))

/-- The frame of a stack-mode instruction: everything but the thread, its engine's last issuer and issue counters, its
polder's trace, and the word that the cache spills (02 R87; 06 R248; 17 R653). -/
abbrev State.stackFrame (s n : State) (e t : Nat) (pops : Nat) (outs : List Word) (pa : Nat) : Prop :=
  n = { (s.slotTaken e t).withThread e t (n.thread e t) with eng := n.eng, regs := n.regs, trace := n.trace, mem := n.mem } ∧
  n.eng = tset s.eng e { s.open.en e with last := t } ∧
  (∀ a, ¬ (sntReg e + 0x40 ≤ a ∧ a < sntReg e + 0x5C) → a ≠ trcReg (e / 8) → n.open.rg a = s.open.rg a) ∧
  ∀ a, n.mem.read a =
    if 8 < outs.length + ((s.thread e t).tos.length - pops) ∧ pa ≤ a ∧ a < pa + 4 then
      BitVec.ofNat 8 ((((s.thread e t).tos).getLastD 0).toNat / 256 ^ (a - pa))
    else s.mem.read a

/-- Command `i` runs the instruction `h`: it pops `n` entries, pushes `outs` of them, changes the thread by `f` of them
besides, and nothing else. -/
abbrev State.stackRuns (s : State) (e t pa : Nat) (i : Instr) (h n : Nat) (outs : List Word → List Word)
    (f : List Word → Thread → Thread := fun _ y => y) : Prop :=
  s.stacked e t h → s.stackReady e t n (outs (s.entries e t n pa)) pa →
    ∃ m : State, exec i s = .next m ∧ s.stackFrame m e t n (outs (s.entries e t n pa)) pa ∧
      m.thread e t = s.stkIssued e t 2 (f (s.entries e t n pa) (restacked (s.thread e t) n (outs (s.entries e t n pa))))

/-- A stack-mode ALU result: in ALU0.R too, with its sticky bit and, where it is enabled, its trap (03 R123; 04 R165 to
R171). -/
def stkResult (pc : Word) (r : Word) (ov : Bool) (y : Thread) : Thread :=
  { y.setSrc y.shadow 48 r with
    ov := y.ov || ov, seq := y.seq + 1
    excs := if ov && y.ovt && !y.shadow then
        putTrap { vec := 10, faddr := pc, seq := y.seq, trap := true, origin := y.charged, lvl := y.trapLvl, lat := 1 } y.excs
      else y.excs }

/-- A stack-mode operation of the two top entries: the deeper `a`, then `b`, as `g a b`, with an overflow `ov a b`. -/
abbrev State.stackAlu (s : State) (e t pa : Nat) (i : Instr) (h : Nat) (g : Word → Word → Word)
    (ov : Word → Word → Bool := fun _ _ => false) : Prop :=
  s.stackRuns e t pa i h 2 (fun l => [g (l.getD 1 0) (l.getD 0 0)])
    fun l => stkResult (s.thread e t).pc (g (l.getD 1 0) (l.getD 0 0)) (ov (l.getD 1 0) (l.getD 0 0))

/-- A stack-mode load of `size` bytes at the top entry plus `size` times `oo` (03 R123): no older store waits, and the
bytes lie in memory at `pm`. -/
abbrev State.stackLoads (s : State) (e t pa pm : Nat) (i : Instr) (h oo size : Nat) (op : LsuOp) : Prop :=
  let ea := (s.entries e t 1 pa).getD 0 0 + w32 (size * oo)
  ea.toNat % size = 0 → s.allows e t 1 ea size = true → s.reaches e ea pm false → (s.thread e t).sbuf = [] →
    s.stackRuns e t pa i (2 ^ 8 * h + oo) 1 (fun _ => [loadResult op (s.memNat pm size)])
      fun _ y => y.setSrc y.shadow 61 (loadResult op (s.memNat pm size))

/-- A stack-mode store of the deeper entry at the top one plus `size` times `oo` (03 R123; 06 R237). -/
abbrev State.stackStores (s : State) (e t pa : Nat) (i : Instr) (h oo size : Nat) : Prop :=
  let ea := (s.entries e t 2 pa).getD 0 0 + w32 (size * oo)
  let v := (s.entries e t 2 pa).getD 1 0
  (s.thread e t).sbUsed < 8 →
    (ea.toNat % size = 0 → s.allows e t 2 ea size = true →
      s.stackRuns e t pa i (2 ^ 8 * h + oo) 2 (fun _ => [])
        fun _ y => y.buffer 0 ea size (v.toNat % 256 ^ size) (s.thread e t).pc) ∧
    (ea.toNat % size ≠ 0 →
      s.stackRuns e t pa i (2 ^ 8 * h + oo) 2 (fun _ => []) fun _ y => y.raised 7 size ea)

/-- A stack-mode branch `h` that pops `n` entries, taken to `tgt` in the given mode where `taken` (02 R67, R90, R91; 03
R126): the delay slot follows, or a bad target of a taken branch raises INSTR_ADDR. -/
abbrev State.stackBranches (s : State) (e t pa : Nat) (i : Instr) (h n : Nat) (taken : Bool) (tgt : Word) (stk : Bool)
    (align : Nat) (link : Bool := false) : Prop :=
  s.stacked e t h → s.stackReady e t n [] pa → (s.thread e t).br = none → (tgt.toNat < 0x8000 → s.lineClean e tgt.toNat) →
    ∃ m : State, exec i s = .next m ∧ s.stackFrame m e t n [] pa ∧
      let z := s.stkIssued e t 2 (restacked (s.thread e t) n [])
      let y := if link then { z with lk := s.linkFrom e t z } else z
      m.thread e t =
        if taken && (decide (tgt.toNat % align ≠ 0) || decide (0x8000 ≤ tgt.toNat)) then
          { y with excs := ((s.thread e t).raised 4 0 tgt).excs }
        else y.branched (m.thread e t) (if taken then some tgt else none) (if taken then stk else true) taken

/-- The halves that stand for a stack-mode instruction (03 R123). -/
def stackListed (h : Nat) : Bool :=
  [(0, 0x1000), (0x2000, 0x24FF), (0x2800, 0x2AFF), (0x3001, 0x300F), (0x3010, 0x3011), (0x4000, 0x4005),
   (0x5000, 0x507F), (0x5100, 0x517F), (0x5200, 0x521F), (0x5300, 0x531F), (0x6000, 0x6006), (0x6100, 0x6103),
   (0x7000, 0x7002)].any fun r => decide (r.1 ≤ h) && decide (h ≤ r.2)

/-! ### Bundles -/

/-- Thread `t` of engine `e` stands before the bundle `ws` in move mode: it issues next, nothing holds or faults it before
the bundle, and the words are latched for repetition, or held by the front end as they were when the bundle entered BD,
or else lie in its line (02 R71; 03 R94, R95; 06 R217, R242). -/
abbrev State.bundled (s : State) (e t : Nat) (ws : List Word) : Prop :=
  s.issues e t ∧ (s.thread e t).stk = false ∧ ((s.thread e t).excs.any (·.waits)) = false ∧
  (s.thread e t).pc.toNat < 0x8000 ∧ (s.thread e t).pc.toNat % 4 = 0 ∧
  s.allows e t 4 (s.thread e t).pc 1 = true ∧ ((s.open.en e).strict = false ∨ (s.thread e t).shadow = false) ∧
  ((s.thread e t).latch = some ws ∨
    ((s.thread e t).latch = none ∧ s.codeClean e ∧
      if (s.thread e t).front.head?.any (fun z => decide (z.addr = (s.thread e t).pc)) then
        ((s.thread e t).front.headD { addr := 0, words := [], next := 0 }).words = ws
      else (((s.lineFor e t).words.drop ((s.thread e t).pc.toNat % 64 / 4)).take ws.length) = ws.map some))

/-- The thread `y` after its bundle `ws`: the next iteration of a repeated one, the target of the branch whose delay slot
it was, or the next bundle (02 R67, R71). What its front end has read ahead is that of `m`. -/
def State.bundleIssued (s m : State) (e t : Nat) (ws : List Word) (y : Thread) : Thread :=
  let x := s.thread e t
  let z := { y.frontOf (m.thread e t) with
    run := .ready, oneMore := false, fence := none, hvSeen := false, bub := bubLeft x.bub
    rcLeft := x.rcLeft - 1, halted := x.stepReq, stepReq := false }
  if 1 < x.rpt then { z with rpt := x.rpt - 1, latch := some ws }
  else
    let z := { z with rpt := 0, latch := none, pc := x.pc + w32 (4 * ws.length) }
    match x.br with
    | none => z
    | some b => { z with pc := b.tgt.getD z.pc, stk := b.stk, br := none, tos := if b.stk then [] else z.tos }

/-- What a short source code reads (03 R113): D, a result socket, A8 to A15, a constant, LK or the predicates. -/
def State.shortSource (s : State) (e t c : Nat) : Word :=
  let x := s.thread e t
  if c < 32 then s.dreg e t c else if c < 48 then x.srcSock x.shadow (c + 16) else if c < 56 then s.areg e t (c - 40)
  else ([0, 1, 0xFFFFFFFF, 2, 4, 8, x.lk, x.pw x.shadow] : List Word).getD (c - 56) 0

/-- A short move as its 15 bits: guard sense, guard, source and destination (03 R99). -/
def shortMoveBits (inv : Bool) (p c d : Nat) : Nat := 2 ^ 14 * b01 inv + 2 ^ 12 * p + 2 ^ 6 * c + d

/-! ### Commits -/

/-- No reset is asserted, and block `b` has a commit under way (00 R16, R19). -/
abbrev State.committing (s : State) (b : Blk) : Prop := s.sys.held = false ∧ (s.open.cm b).busy = true

/-- The word at an address in the staging copy of the commit under way on block `b` (00 R16). -/
def State.snap (s : State) (b : Blk) (a : Nat) : Word := (s.open.cm b).get a

/-- The state after the commit of block `b` ended with a status, CHECK and INDEX: BUSY is 0 (00 R19, R680). -/
def State.finished (s : State) (b : Blk) (st : St) (check : Nat := 0) (index : Nat := 0) : State :=
  { s with
    com := tset s.com (blkCommit b)
      { s.open.cm b with busy := false, status := st.code, check := check, index := index } }

/-- TBL_CMD of an action on a slot of a kind, with its group and HOLD (05 R210). -/
def tblCmd (act kind bg sl : Nat) (hold : Bool) : Word :=
  w32 (2 ^ 24 * act + 2 ^ 20 * kind + 2 ^ 16 * bg + 2 ^ 8 * b01 hold + sl)

/-- A sequence table of `ns` states and `nc` classes that passes every check of R200 at `pa` (05 R191, R192, R200). -/
abbrev State.goodSeq (s : State) (pa ns nc : Nat) : Prop :=
  s.memNat pa 4 = 0x153 ∧ s.memNat (pa + 4) 2 = ns ∧ s.memNat (pa + 6) 2 = nc ∧ 1 ≤ ns ∧ ns ≤ 256 ∧ 1 ≤ nc ∧ nc ≤ 64 ∧
  s.memNat (pa + 8) 4 = 32 + 8 * ns * nc ∧ s.memNat (pa + 16) 2 < ns ∧ s.memNat (pa + 18) 14 = 0 ∧
  ∀ i < ns * nc,
    let lo := s.memNat (pa + 32 + 8 * i) 4
    if lo / 2 ^ 31 = 1 then lo / 2 ^ 12 % 2 ^ 19 = 0 ∧ lo % 256 < ns else lo = 0 ∧ s.memNat (pa + 36 + 8 * i) 4 = 0

/-- A curve table of `n` segments without continuity checks that passes every check of R200 at `pa`, with room in the
segment index (05 R180, R181, R190, R200). -/
abbrev State.goodCurve (s : State) (e pa n span : Nat) : Prop :=
  s.memNat pa 2 = 0x143 ∧ (s.memNat (pa + 2) 2 = 0 ∨ s.memNat (pa + 2) 2 = 4) ∧ s.memNat (pa + 4) 4 = n ∧ 1 ≤ n ∧ n ≤ 4096 ∧
  s.memNat (pa + 8) 4 = 64 + 32 * n ∧ s.memNat (pa + 16) 4 = span ∧ span ≠ 0 ∧ s.memNat (pa + 36) 28 = 0 ∧
  s.memNat (pa + 64) 4 = 0 ∧ n + (s.open.en e).idxUse ≤ 8192 ∧
  ∀ i < n, s.memNat (pa + 64 + 32 * i + 28) 4 = 0 ∧
    s.memNat (pa + 64 + 32 * i) 4 < if i + 1 < n then s.memNat (pa + 64 + 32 * (i + 1)) 4 else span

/-- The staged window of ring `r` and number `i` is well formed (08 R320, R322). -/
abbrev State.goodWindow (s : State) (e r i : Nat) : Prop :=
  let b := (s.snap (.rng e) (rngReg e + 0x20 * (r - 1) + 8 * i)).toNat
  let l := (s.snap (.rng e) (rngReg e + 0x20 * (r - 1) + 8 * i + 4)).toNat
  b / 8 % 8 = 0 ∧ l % 64 = 0 ∧ if b % 8 = 0 then b = 0 ∧ l = 0 else b / 64 * 64 < l

/-- Bytes of engine `e`'s address `a` lie in memory at `pa`, readable by the engine and clean. -/
abbrev State.tableAt (s : State) (e : Nat) (a : Word) (pa n : Nat) : Prop :=
  (Who.eng e).map a.toNat = .mem pa ∧ s.clean e pa n

/-! ### The slot network -/

/-- The state with a saturating counter register advanced (00 R9). -/
def State.counted (s : State) (a : Nat) : State :=
  { s with regs := tset s.regs a (w32 (min ((s.open.rg a).toNat + 1) 0xFFFFFFFF)) }

/-- A discard of the slot network: its counter advances, and a record of source 0x5F0 names the channel (10 R380,
R403). -/
def State.netLost (s : State) (reg kind node ch : Nat) (index : Nat := 0) : State :=
  (s.counted reg).withEvent 0x5F0 (2 ^ 28 * kind + 2 ^ 22 * node + 2 ^ 16 * ch + index) s.open.now

/-- The tide carried to a time that is not past. -/
def State.atTime (s : State) (t : Nat) : State := { s with tide := { s.tide with count := t } }

/-- Bytes of memory that a block's master may read, all in sound doubles. -/
abbrev State.cleanFor (s : State) (who : Who) (pa n : Nat) : Prop :=
  ∀ i < n, s.open.accErr who (pa + i) false = none ∧ s.sound (pa + i)

/-- Reservation `i` and best-effort binding `k` of the plan of `nr` reservations at `a` (10 R383, R384). -/
def State.resvOf (s : State) (a i : Nat) : Resv :=
  let b (o : Nat) : Nat := s.memNat (a + 0x40 + 16 * i + o) 1
  { src := b 0, dst := b 1, sch := b 2, dch := b 3, start := b 4 + 256 * b 5, len := b 6, yx := b 7 % 2 = 1
    req := b 7 / 2 % 2 = 1, plog := b 8, phase := b 9 }
def State.bindingOf (s : State) (a nr k : Nat) : Bind :=
  let b (o : Nat) : Nat := s.memNat (a + 0x40 + 16 * nr + 4 * k + o) 1
  { src := b 0, sch := b 1, dst := b 2, dch := b 3 }

/-- The plan of `nr` reservations and `nb` bindings at `a` (10 R382). -/
def State.planAt (s : State) (a nr nb : Nat) : Plan :=
  { id := s.wordAt (a + 0x10), addr := a, len := 64 + 16 * nr + 4 * nb, fallback := s.memNat (a + 10) 1 = 1
    lost := s.memNat (a + 11) 1, spare := s.memNat (a + 12) 1
    floor := (List.range 24).map fun p => s.memNat (a + 0x14 + p) 1
    res := (List.range nr).map (s.resvOf a), be := (List.range nb).map (s.bindingOf a nr) }

/-- The plan at `a` passes checks 3 to 7 of R391 (10 R382 to R384). -/
abbrev State.goodPlan (s : State) (a nr nb : Nat) : Prop :=
  a % 64 = 0 ∧ 0x10000000 ≤ a ∧ a + 64 + 16 * nr + 4 * nb ≤ 0x11000000 ∧ nr ≤ 1024 ∧ nb ≤ 960 ∧
  s.cleanFor .weir a (64 + 16 * nr + 4 * nb) ∧ s.memNat a 4 = 0x314E4C50 ∧ s.memNat (a + 4) 2 = 1 ∧
  s.memNat (a + 6) 2 = nr ∧ s.memNat (a + 8) 2 = nb ∧
  ((s.memNat (a + 10) 1 = 0 ∧ s.memNat (a + 11) 1 = 0xFF) ∨ (s.memNat (a + 10) 1 = 1 ∧ s.memNat (a + 11) 1 < 24)) ∧
  (s.memNat (a + 12) 1 < 24 ∨ s.memNat (a + 12) 1 = 0xFF) ∧ s.memNat (a + 13) 3 = 0 ∧
  (∀ p < 24, s.memNat (a + 0x14 + p) 1 ≤ 5 ∨ s.memNat (a + 0x14 + p) 1 = 0xFF) ∧
  s.memNat (a + 0x2C) 4 = 64 + 16 * nr + 4 * nb ∧ s.memNat (a + 0x30) 16 = 0 ∧
  (∀ i < nr,
    let r := s.resvOf a i
    r.src < 30 ∧ r.dst < 30 ∧ r.src ≠ r.dst ∧ r.sch < 32 ∧ r.dch < 32 ∧ r.start < 1024 ∧ 1 ≤ r.len ∧ r.len ≤ 16 ∧
    s.memNat (a + 0x40 + 16 * i + 7) 1 < 4 ∧ r.plog ≤ 8 ∧ r.phase < 2 ^ r.plog ∧
    s.memNat (a + 0x40 + 16 * i + 10) 2 = 0 ∧
    ∀ j < i, (s.resvOf a j).src = r.src → (s.resvOf a j).sch = r.sch →
      (s.resvOf a j).dst = r.dst ∧ (s.resvOf a j).dch = r.dch) ∧
  ∀ k < nb,
    let b := s.bindingOf a nr k
    b.src < 30 ∧ b.dst < 30 ∧ b.src ≠ b.dst ∧ b.sch < 32 ∧ b.dch < 32 ∧
    (∀ i < nr, ¬ ((s.resvOf a i).src = b.src ∧ (s.resvOf a i).sch = b.sch)) ∧
    ∀ j < k, ¬ ((s.bindingOf a nr j).src = b.src ∧ (s.bindingOf a nr j).sch = b.sch)

/-- A polder that the Weir starts towards operating point `f`: a raise brings the regulator up first (13 R504). -/
def Pol.towards (x : Pol) (f : Nat) : Pol :=
  if f = x.cur then { x with goal := none }
  else if x.cur < f ∧ (x.volt < f ∨ x.vgo.any fun v => decide (v < f)) then { x with goal := some f, vgo := some f }
  else { x with goal := some f }

/-- A polder whose floor-to-be is `f`: outside a supply warning it is raised at once (13 R505, R506). -/
def Pol.floored (x : Pol) (dip : Bool) (f : Nat) : Pol :=
  if dip = false ∧ x.resume = none ∧ x.goal.getD x.cur < f then x.towards f else x

/-- The higher of the floors that the live and the armed plan give a polder (13 R505, R506). -/
def State.planFloor (s : State) (p : Nat) : Nat :=
  (s.net.live.toList ++ s.net.armed.toList.map (·.1)).foldl (fun f q => max f (floorByte (q.floor.getD p 0xFF))) 0

/-- No polder runs, or is about to run, below the floor that is or will be its own (13 R505, R506). -/
abbrev State.floorsMet (s : State) : Prop :=
  ∀ p < 24, s.open.floorAhead p ≤ (s.open.pol p).goal.getD (s.open.pol p).cur

/-- A polder at the start of a frame without a supply warning: it returns to the point that a warning took it from, or
takes the point it waits for once the voltage allows, a lowering no further than the floor `fl` in effect; after a lowering
the regulator goes down to the higher of that point and VHOLD `vh`. An image's floor counts once it is reached (01 R31; 13
R504 to R506, R527). -/
def Pol.switched (x : Pol) (vh fl : Nat) : Pol :=
  let y : Pol := match x.resume, x.goal with
    | some b, _ => { x with resume := none, goal := none, cur := b }
    | none, some b =>
      if b < x.cur then
        let c := max b (min fl x.cur)
        { x with goal := none, cur := c, vgo := if c < x.cur ∧ max c vh < x.volt then some (max c vh) else x.vgo }
      else if b ≤ x.volt ∧ x.vgo.all (fun v => decide (b ≤ v)) then { x with goal := none, cur := b }
      else x
    | none, none => x
  match x.imgPend with
  | some f => if f ≤ y.cur then { y with img := f, imgPend := none } else y
  | none => y

/-! ### Culverts -/

/-- Channel `n` of culvert `c` replaced. -/
def State.withChan (s : State) (c n : Nat) (x : Chan) : State := { s with cul := tset s.cul (16 * c + n) x }

/-- An event of a channel about the descriptor at an address: kind 1 DONE, 2 BAD, 3 ABORTED, 4 HALTED, 5 FAULT (11
R429). -/
def State.culTells (s : State) (c n kind : Nat) (st : St) (a : Nat) : State :=
  s.withEvent (0x240 + 16 * c + n) (2 ^ 16 * st.code + 2 ^ 12 * kind + a / 64 % 2 ^ 12) s.open.now

/-- A descriptor that passes the checks of R415 (11) on channel `n` of culvert `c`: reserved bits, loop counts, network
and APPEND options; on a strict channel, alignment of each memory side. -/
abbrev Chan.good (x : Chan) (c n : Nat) : Prop :=
  let word := fun (o : Nat) => (x.dw o).toNat
  let bit := fun (i : Nat) => word 8 / 2 ^ i % 2 = 1
  let e := 2 ^ (word 8 / 2 ^ 24 % 4)
  let n0 := word 0x14 % 2 ^ 16
  let n1 := word 0x14 / 2 ^ 16
  let n2 := word 0x18
  word 4 / 2 % 32 = 0 ∧ word 8 % 2 ^ 16 = 0 ∧ word 8 / 2 ^ 20 % 4 = 0 ∧ n2 < 2 ^ 16 ∧
  0 < n0 ∧ 0 < n1 ∧ 0 < n2 ∧ e * (n0 * n1 * n2) < 2 ^ 32 ∧
  (bit 23 ∨ bit 22 → 24 ≤ c ∧ e * (n0 * n1 * n2) % 16 = 0) ∧ ¬ (bit 23 ∧ bit 22) ∧
  (bit 28 → word 8 / 2 ^ 26 % 4 ≠ 0 ∧ ¬ bit 22) ∧
  (14 ≤ n →
    (bit 23 ∨ (word 0xC % e = 0 ∧ ∀ i < 3, word (0x1C + 4 * i) % e = 0)) ∧
    (bit 22 ∨ (word 0x10 % e = 0 ∧ ∀ i < 3, word (0x28 + 4 * i) % e = 0)) ∧
    (bit 23 ∨ bit 22 ∨ word 0xC % 32 = word 0x10 % 32))

/-- The channel after it took the descriptor of these words at `a`: READY, or PARKED where OWN = 0 (11 R415, R436). -/
def Chan.took (x : Chan) (ws : List Word) (a : Nat) : Chan :=
  if (ws.getD 0 0).getLsbD 31 then { x with desc := ws, nxt := a, atNext := false, st := 1 }
  else { x with desc := ws, nxt := a, atNext := false, st := 4, cur := a }

/-- A descriptor lies in memory at `pa`, as culvert `c` reads it. -/
abbrev State.descAt (s : State) (c a pa : Nat) : Prop :=
  mtxMap a = .mem pa ∧ s.cleanFor (.cul c) pa 64

/-- The sixteen words at `pa`. -/
def State.descWords (s : State) (pa : Nat) : List Word := (List.range 16).map fun i => s.wordAt (pa + 4 * i)

/-- The registers of channel `n` after its descriptor ended: CHECK where given, DONE, LASTSTAT, COUNT, and BADCNT of a
failed one, with its event (11 R426 to R430, R437). `a` is the descriptor's address, 0 in direct mode. -/
def State.culEnded (s : State) (c n a : Nat) (st : St) (ev : Bool) (len : Nat) (check : Option Word) : State :=
  let b := culReg c n
  let z := match check with | some v => { s with regs := tset s.regs (b + 0x60) v } | none => s
  let z := { z with regs := tset (tset z.regs (b + 0x64) (w32 len)) (b + 0x5C) (w32 (if st = St.ok then 0 else 2 ^ 30 + st.code)) }
  let z := z.counted (b + 0x68)
  if st = .ok then (if ev then z.culTells c n 1 .ok a else z) else (z.counted (b + 0x6C)).culTells c n 2 st a

/-- Memory with the word `v` at `pa`. -/
def State.poked (s : State) (pa : Nat) (v : Word) : State :=
  { s with mem := (List.range 4).foldl (fun m i => m.write (pa + i) (BitVec.ofNat 8 (v.toNat / 256 ^ i))) s.mem }

/-! ### Timed pins -/

/-- T-pin `n` replaced. -/
def State.withPin (s : State) (n : Nat) (p : Pin) : State := { s with tio := tset s.tio n p }

/-- A status record of a pin (12 R485). -/
def State.pinTells (s : State) (n kind : Nat) (b : Bool := false) (tag : Nat := 0) : State :=
  s.withEvent (2 * n + 1) (2 ^ 28 * kind + 2 ^ 24 * b01 b + 2 ^ 16 * tag + (s.open.pin n).depth) s.open.now

/-- The parameters that R472 (12) lets a mode have. -/
abbrev goodParams (mode : Nat) (dual : Bool) (p0 p1 : Nat) : Prop :=
  let a := p1 % 2 ^ 8
  let b := p1 / 2 ^ 16 % 2 ^ 8
  let owner := fun (x : Nat) => x < 192 ∨ x = 0xFE ∨ x = 0xFF
  let bits := p1 % 2 ^ 6
  let half := p1 / 2 ^ 8 % 2 ^ 12
  (mode = 0 → p0 = 0 ∧ p1 = 0) ∧
  (mode = 1 → p1 < 2 ^ 24 ∧ p1 / 2 ^ 8 % 2 ^ 8 = 0 ∧ owner a ∧ owner b ∧
    if dual then a ≠ b ∧ a ≠ 0xFF ∧ b ≠ 0xFF else b = 0xFF) ∧
  (mode = 2 → p0 < 2 ^ 16 ∧ p1 = 0) ∧
  (mode = 3 → 16 ≤ p0 ∧ p1 ≤ p0) ∧
  (mode = 4 ∨ mode = 5 → p1 < 2 ^ 16) ∧
  (mode = 6 → 1 ≤ bits ∧ bits ≤ 32 ∧ p1 / 2 ^ 7 % 2 = 0 ∧ 50 ≤ half ∧ 1 ≤ p1 / 2 ^ 20 ∧
    2 * half * (bits + 1) + 64 * (p1 / 2 ^ 20) ≤ p0)

/-- A request may push or withdraw side `b` of a pin (12 R474). -/
abbrev State.pushes (s : State) (r : By) (n : Nat) (b : Bool) : Prop :=
  let p := s.open.pin n
  s.sys.held = false ∧ byOk r = true ∧ s.open.diked (reqOf r).who 0 = false ∧ n < 192 ∧ p.mode = 1 ∧ (b = true → p.dual = true) ∧
  p.owner b ≠ 0xFF ∧ (reqOf r).ring ≤ 2 ∧ (reqOf r).owner = p.owner b

/-- An entry that pairs with nothing any more, and one that has its partner (12 R477, R478). -/
def Edge.alone (e : Edge) : Edge := { e with nopair := true }
def Edge.done (e : Edge) : Edge := { e with paired := true }

/-- The state after an entry entered a pin's queue through side `b`: 64 ns from now with LATE where its time is nearer
(12 R475). -/
def State.queued (s : State) (n : Nat) (e : Edge) (b : Bool) : State :=
  let p := s.open.pin n
  if s.open.now + 64 ≤ e.time then s.withPin n { p with queue := p.queue ++ [{ e with late := none }] }
  else (s.withPin n { p with queue := p.queue ++ [{ e with late := some (s.open.now + 64) }] }).pinTells n 2 b e.tag

/-- A pin that drives SAFE (12 R479). -/
def State.safePin (s : State) (n : Nat) : State :=
  (s.withPin n { s.open.pin n with level := (s.open.pin n).cfg.getLsbD 22, safed := true }).pinTells n 8

/-! ### Drive links -/

/-- Registers written in a row. -/
def State.wrote (s : State) (l : List (Nat × Word)) : State := { s with regs := l.foldl (fun r c => tset r c.1 c.2) s.regs }

/-- Drive link `n` replaced. -/
def State.withLink (s : State) (n : Nat) (l : Link) : State := { s with dlk := tset s.dlk n l }

/-- A record of a link about a cycle, at the cycle's exchange time: source 0x180 + 4n + `k` (12 R443, R497). -/
def State.linkTells (s : State) (n k kind c : Nat) (b : Bool := false) (elem : Nat := 0) : State :=
  s.withEvent (0x180 + 4 * n + k) (2 ^ 28 * kind + 2 ^ 24 * b01 b + 2 ^ 16 * elem + c % 2 ^ 16)
    (c * (s.open.link n).period + (s.open.link n).phase)

/-- A request may push or withdraw side `b` of a link (12 R492). -/
abbrev State.feeds (s : State) (r : By) (n : Nat) (b : Bool) : Prop :=
  let l := s.open.link n
  s.sys.held = false ∧ byOk r = true ∧ s.open.diked (reqOf r).who 0 = false ∧ n < 48 ∧ l.st ≠ 0 ∧ (b = true → l.dual = true) ∧
  l.owner b ≠ 0xFF ∧ (reqOf r).ring ≤ 2 ∧ (reqOf r).owner = l.owner b

/-- The table at a staged address as a link keeps it: none at 0, else a format table of the class that passes R200, of at
most 64 elements and 16 source words (12 R496, R501). -/
abbrev State.keepsTable (s : State) (a : Word) (cls : Nat) (t : Option Fmt) : Prop :=
  (t = none ↔ a = 0) ∧
  ∀ f ∈ t.toList, (s.open.readFmt .weir a.toNat).1 = s.open ∧ (s.open.readFmt .weir a.toNat).2.toOption = some f ∧ f.cls = cls ∧ f.els.length ≤ 64 ∧ f.srclen ≤ 16

/-- OUTLEN of a table, 0 where there is none. -/
def outOf (t : Option Fmt) : Nat := match t with | some f => f.outlen | none => 0

/-- The set pending on a side for a cycle (12 R492, R493). -/
def Link.setFor (l : Link) (c : Nat) (b : Bool) : Option (List Word) :=
  (l.sets.find? fun s => decide (s.cycle = c) && s.b == b).map (·.words)

/-- A side of a link is configured and live. -/
def Link.runs (l : Link) (b : Bool) : Bool := l.has b && l.alive b

/-- A stopped link: DE stays asserted to the end of a frame under way (12 R491, R494, R500). -/
def Link.stopped (l : Link) : Link :=
  { l with st := 0, sets := [], live := (false, false), window := none, stopReq := false }

/-- A link after the exchange of cycle `c`, in which it sent a set or nothing: with a frame, DE is asserted to TRAIL after
its end (12 R491, R493). -/
def Link.sent (l : Link) (c : Nat) (set : Option (List Word)) : Link :=
  let fr := match l.tx, set with | some t, some ws => frameOf t ws | _, _ => []
  let e := c * l.period + l.phase + outOf l.tx * l.bit + l.rxdelay
  { l with
    next := l.next + 1, sets := l.sets.filter fun s => decide (c < s.cycle), lastSet := if set.isSome then set else l.lastSet
    frame := fr, deEnd := if fr = [] then l.deEnd else c * l.period + l.phase + outOf l.tx * l.bit + l.trail
    window := if l.rx.isSome then some (e, e + l.rxwin) else none }

/-! ### The Weir -/

/-- Live words of the Weir and of polder `p` (13 R530, R532). -/
def State.weirWord (s : State) (i : Nat) : Word := s.open.stg (weirReg + 0x100 + 4 * i)
def State.polWord (s : State) (p i : Nat) : Word := s.open.stg (pldReg p + 0x10 + 4 * i)

/-- THROT and LIMIT (13 R531). -/
def State.throt (s : State) : Int := ((s.weirWord 2).setWidth 16).toInt
def State.limit (s : State) : Int := ((s.weirWord 2 >>> 16).setWidth 16).toInt

/-- MIN and CAP of a polder, and its OPSET, OPLO and OPHI: field 0, 1 and 2 of OPCTRL (13 R532, R533). -/
def State.minOf (s : State) (p : Nat) : Nat := (s.polWord p 0).toNat / 2 ^ 16
def State.capOf (s : State) (p : Nat) : Nat := (s.polWord p 0).toNat % 2 ^ 16
def State.opField (s : State) (p i : Nat) : Nat := (s.polWord p 1).toNat / 2 ^ (4 * i) % 8

/-- BMIN (13 R510). -/
def State.bmin (s : State) : Nat := (s.weirWord 1).toNat % 2 ^ 16 + ((List.range 24).map s.minOf).sum

/-- BEFF at a TMAX (13 R510). -/
def State.beffAt (s : State) (tmax : Int) : Int :=
  let budget : Int := (s.weirWord 0).toNat % 2 ^ 16
  if tmax ≤ s.throt then budget
  else if s.limit ≤ tmax then s.bmin
  else budget - (budget - s.bmin) * (tmax - s.throt) / (s.limit - s.throt)

/-- The grant of a polder at a TMAX (13 R510). -/
def State.grantAt (s : State) (tmax : Int) (p : Nat) : Int :=
  let extra := s.beffAt tmax - s.bmin
  let span : Int := ((List.range 24).map s.capOf).sum - ((List.range 24).map s.minOf).sum
  if span ≤ extra then s.capOf p * 2048
  else s.minOf p * 2048 + extra * 2048 * (s.capOf p - s.minOf p) / span

/-- The balance of a polder after its grant (13 R512). -/
def State.balAt (s : State) (tmax : Int) (p : Nat) : Int :=
  let g := s.grantAt tmax p
  max (-(2 ^ 31)) (min ((s.open.pol p).bal + g) ((s.polWord p 2).toNat % 2 ^ 16 * g))

/-- The floor in effect, and the one that also armed plans and loaded images ask for (13 R505, R506). -/
def State.floorNow (s : State) (p : Nat) : Nat :=
  max (s.net.live.elim 0 fun q => floorByte (q.floor.getD p 0xFF)) (s.open.pol p).img
def State.floorSoon (s : State) (p : Nat) : Nat :=
  max (s.planFloor p) (max (s.open.pol p).img ((s.open.pol p).imgPend.getD 0))

/-- An operating point as a supply warning bounds it (13 R523, R526). -/
def State.inDip (s : State) (o : Nat) : Nat := if s.weir.dip = none then o else min o 1

/-- The target of a polder at a TMAX after `busy` of `all` busy cycles (13 R523, R526). -/
def State.targetAt (s : State) (tmax : Int) (p busy all : Nat) : Nat :=
  let x := s.open.pol p
  let lo := max (s.floorSoon p) (s.opField p 1)
  let step : Int :=
    if s.balAt tmax p < 0 then x.cur - 1
    else if 7 * all ≤ 8 * busy ∧ s.grantAt tmax p ≤ s.balAt tmax p then x.cur + 1
    else if 4 * busy < all then x.cur - 1
    else x.cur
  let auto := (max (lo : Int) (min (s.opField p 2 : Int) step)).toNat
  let capped := (x.ceil.toList ++ x.ceilRun.toList).foldl (fun g c => min g c.1) auto
  let t := if s.limit ≤ tmax then lo else if (s.polWord p 1).getLsbD 15 then capped else max (s.opField p 0) (s.floorSoon p)
  s.inDip t

/-- Whether a polder is still: its threads are STOPPED or halted and its entries IDLE (13 R524; 17 R650); whether it has
been so in all of the period just ended; and whether it falls asleep at the boundary. -/
def State.stillAt (s : State) (p : Nat) : Bool :=
  ((List.range 32).all fun i => decide ((s.open.th (32 * p + i)).run = .stopped) || (s.open.th (32 * p + i)).halted) &&
  s.disp.all fun c => decide (c.1 / 256 ≠ p) || decide (c.2.st = 0)
def State.restsAt (s : State) (p : Nat) : Bool :=
  decide ((s.polWord p 3).toNat / 2 ^ 24 ≠ 0) && s.stillAt p && !(s.open.pol p).awake &&
  decide ((s.open.pol p).relIn < s.weir.period) &&
  (List.range 32).all fun i => decide ((s.open.th (32 * p + i)).startIn < s.weir.period)
def State.sleepsAt (s : State) (p : Nat) : Bool :=
  s.restsAt p && !(s.open.pol p).sleep && decide ((s.polWord p 3).toNat / 2 ^ 24 ≤ (s.open.pol p).quiet + 1)

/-- A polder after boundary `n`, with its energy, its count of quiet periods, and whether it is still (13 R508, R513,
R524). -/
def Pol.metered (x : Pol) (n energy quiet : Nat) (still : Bool) : Pol :=
  if n % 256 = 0 then { x with scaled := some (x.m256 + energy, x.s256), m256 := 0, s256 := 0, quiet := quiet, awake := !still }
  else { x with m256 := x.m256 + energy, quiet := quiet, awake := !still }
def State.quietAt (s : State) (p : Nat) : Nat :=
  if s.restsAt p = false then 0 else if (s.open.pol p).sleep then (s.open.pol p).quiet else (s.open.pol p).quiet + 1

/-! ### Dispatchers -/

/-- Two states that differ at most in the trace of polder `p`: its records, and the EN that a full one clears (17
R652, R653). -/
abbrev State.tracedFrom (n s : State) (p : Nat) : Prop :=
  n = { s with trace := n.trace, regs := n.regs } ∧ ∀ a, a ≠ trcReg p → n.open.rg a = s.open.rg a

/-- Dispatch entry `j` of polder `p`, and the state with it replaced (13 R514). -/
def State.entry (s : State) (p j : Nat) : Disp := s.open.dsp (256 * p + j)
def State.withEntry (s : State) (p j : Nat) (x : Disp) : State := { s with disp := tset s.disp (256 * p + j) x }

/-- Polder `p` replaced. -/
def State.withPol (s : State) (p : Nat) (x : Pol) : State := { s with weir := { s.weir with pols := tset s.weir.pols p x } }

/-- The charge C(o) of an entry at a scale: ENERGY × 125 × SCALE / 512, rounded up (13 R518). -/
def Disp.charged (x : Disp) (scale o : Nat) : Nat := ((x.energy.getD o 0).toNat * 125 * scale + 511) / 512

/-- Engine of an entry of polder `p`, its class, its absolute deadline, and bit `t` of its THREADS (13 R514). -/
def Disp.engine (x : Disp) (p : Nat) : Nat := 8 * p + x.ctrl.toNat / 2 ^ 20 % 8
def Disp.kind (x : Disp) : Nat := x.ctrl.toNat / 2 ^ 28 % 4
def Disp.due (x : Disp) : Nat := x.rel + x.deadline.toNat

/-- Thread `t` may take a job of an entry: THREADS names it, it is STOPPED, not halted, and held for no other admitted
job (13 R520). -/
def State.freeFor (s : State) (p : Nat) (x : Disp) (t : Nat) : Bool :=
  x.ctrl.getLsbD (16 + t) && decide ((s.thread (x.engine p) t).run = .stopped) && !(s.thread (x.engine p) t).halted &&
  s.disp.all fun c => !(decide (c.2.st = 2) && decide (c.2.engine (c.1 / 256) = x.engine p) && decide (c.2.thread = t))

/-- The state after an entry was charged at a point (13 R512, R513, R518). -/
def State.chargedFor (s : State) (p j o : Nat) : State :=
  let x := s.entry p j
  let q := s.open.pol p
  let c := x.charged q.scale o
  (s.withPol p { q with bal := max (-(2 ^ 31)) (q.bal - c), s256 := q.s256 + (x.energy.getD o 0).toNat * 125 }).withEntry p j { x with charge := c }

/-- The state after an entry was admitted at a point on a thread (13 R519). -/
def State.admitted (s : State) (p j o t : Nat) : State :=
  (s.withEntry p j { s.entry p j with st := 2, thread := t, op := o, wait := 0 }).chargedFor p j o

/-- The state after an outcome of an entry: 1 MISSED, 2 LATE, 3 OVERRUN, 4 ABORTED (13 R521, R529). -/
def State.outcomeOf (s : State) (p j kind : Nat) : State :=
  (s.withEntry p j { s.entry p j with misses := (s.entry p j).misses + 1 }).withEvent (0x590 + p) (2 ^ 28 * kind + j) s.open.now

/-! ### Fault continuity -/

/-- A record of the fault controller about a unit: an engine, or 256 + a polder (14 R550). -/
def State.fltTells (s : State) (kind cause u : Nat) : State :=
  s.withEvent 0x5E8 (2 ^ 28 * kind + 2 ^ 24 * cause + 2 ^ 23 * b01 (decide (256 ≤ u)) + u % 256) s.open.now

/-- The state after a fault-log record of a type, with its words A to D: the log grows by it, or counts it lost when it
is full (14 R548, R549). -/
def State.logged (s : State) (type cause u a b c d : Nat) : State :=
  let h := s.flt.head
  let at' := fltReg + 0x2000 + 32 * (h % 256)
  if (h + 2 ^ 32 - (s.open.rg (fltReg + 0xA4)).toNat) % 2 ^ 32 = 256 then (s.counted (fltReg + 0xA8)).fltTells 9 0 0
  else
    { s.wrote [(at', w32 (2 ^ 24 * type + 2 ^ 20 * cause + 2 ^ 19 * b01 (decide (256 ≤ u)) + u % 256)), (at' + 4, w32 h),
        (at' + 8, w32 s.open.now), (at' + 12, w32 (s.open.now / 2 ^ 32)), (at' + 16, w32 a), (at' + 20, w32 b),
        (at' + 24, w32 c), (at' + 28, w32 d)] with
      flt := { s.flt with head := (h + 1) % 2 ^ 32 } }

/-- A unit replaced. -/
def State.withUnit (s : State) (u : Nat) (x : FUnit) : State := { s with flt := { s.flt with units := tset s.flt.units u x } }

/-- An engine belongs to a unit. -/
def inUnit (u e : Nat) : Bool := if 256 ≤ u then decide (e / 8 = u - 256) else decide (e = u)

/-- The dike of a unit, by its key. -/
def dikeOf (u : Nat) : Nat := if 256 ≤ u then u - 256 else 256 + u

/-- A closure of a unit up to its fence and dike (14 R544, R546, R551): the unit is FENCED and behind its dike; its
threads have nothing in flight, buffered, queued or awaited; the pin and link sides that its engines own are withdrawn.
Other threads, other owners' sides, memory, banks and the tide are as before. -/
abbrev State.closesInto (s n : State) (u cause : Nat) (byCommit : Bool) : Prop :=
  n.open.unit u = { st := 1, cause := cause, closes := ((s.open.unit u).closes + 1) % 65536
                    byCommit := byCommit || (decide (256 ≤ u) && (List.range 192).any fun e => inUnit u e && (s.open.unit e).byCommit)
                    cnt := (n.open.unit u).cnt } ∧
  tget false n.dike (dikeOf u) = true ∧
  (∀ k < 772, n.open.th k =
    if inUnit u (k / 4) then { s.open.th k with ops := [], accs := [], sbuf := [], evq := [], wait := none, fence := none }
    else s.open.th k) ∧
  (∀ i < 192, ∀ b, (n.open.pin i).alive b =
    ((s.open.pin i).alive b && !(decide ((s.open.pin i).mode = 1) && (s.open.pin i).has b && inUnit u ((s.open.pin i).owner b)))) ∧
  (∀ i < 48, ∀ b, (n.open.link i).alive b =
    ((s.open.link i).alive b && !(decide ((s.open.link i).st ≠ 0) && (s.open.link i).has b && inUnit u ((s.open.link i).owner b)))) ∧
  (∀ v < 280, v ≠ u → inUnit u v = false → n.open.unit v = s.open.unit v) ∧
  n.mem = s.mem ∧ n.bank = s.bank ∧ n.tide = s.tide ∧ n.vault = s.vault ∧ n.annex = s.annex

/-- A detector's signal is logged with the action that the policy names, and raised (14 R542, R549). -/
def State.faulted (s : State) (cause u detail act : Nat) : State := (s.logged 1 cause u detail act 0 0).fltTells 1 cause u

/-- A thread after its engine's reset: its register file, and the control registers without a reset value, are kept; A15
of t0 is back at the top of its stack (02 R63, R80, R88; 08 R315). -/
def Thread.restarted (x : Thread) (k now : Nat) : Thread :=
  { resetThread k with
    d := x.d, a := if k % 4 = 0 then tset x.a 15 0x1FF00 else x.a, x := x.x, p := x.p, lk := x.lk, rc := x.rc, spc := x.spc
    sst := x.sst, srpt := x.srpt, slim := x.slim, gtbase := x.gtbase, wdFrom := now, startIn := x.startIn }

/-- Entry `i` of the join list at `pa` (14 R563). -/
def State.joinOf (s : State) (pa i : Nat) : Join :=
  let v := (s.wordAt (pa + 8 * i)).toNat
  { link := decide (v / 2 ^ 30 = 1), b := decide (v / 2 ^ 29 % 2 = 1), owner := v / 2 ^ 8 % 2 ^ 8, num := v % 2 ^ 8 }

/-- Entry `i` of the join list at `pa` passes check 7 of R567 (14). -/
abbrev State.goodJoin (s : State) (pa i : Nat) : Prop :=
  let v := (s.wordAt (pa + 8 * i)).toNat
  let e := s.joinOf pa i
  v / 2 ^ 30 < 2 ∧ v / 2 ^ 16 % 2 ^ 13 = 0 ∧ s.wordAt (pa + 8 * i + 4) = 0 ∧ (e.owner < 192 ∨ e.owner = 0xFE) ∧
  (e.owner < 192 → s.open.inService e.owner = true) ∧
  (∀ j < i, (s.joinOf pa j).link ≠ e.link ∨ (s.joinOf pa j).num ≠ e.num) ∧
  if e.link then
    e.num < 48 ∧ (s.open.link e.num).dual = true ∧ (s.open.link e.num).alive e.b = false ∧ (s.open.link e.num).owner (!e.b) ≠ e.owner
  else
    e.num < 192 ∧ (s.open.pin e.num).mode = 1 ∧ (s.open.pin e.num).dual = true ∧ (s.open.pin e.num).alive e.b = false ∧
      (s.open.pin e.num).owner (!e.b) ≠ e.owner

/-! ### Ethernet -/

/-- A port replaced, and a queue (0 to 7) or ring (8 to 11) of it. -/
def State.withPort (s : State) (n : Nat) (x : EthPort) : State := { s with eth := tset s.eth n x }
def State.withQueue (s : State) (n i : Nat) (q : EthQ) : State :=
  s.withPort n { s.open.port n with q := tset (s.open.port n).q i q }

/-- A record of port `n` (15 R577). -/
def State.ethTells (s : State) (n k kind : Nat) (rest : Nat := 0) : State :=
  s.withEvent (0x400 + 32 * n + k) (2 ^ 28 * kind + rest) s.open.now

/-- BASE and COUNT of queue or ring `i` of a port (15 R576). -/
def EthPort.base (x : EthPort) (i : Nat) : Nat := wdAt x.cfg (64 + 16 * i)
def EthPort.count (x : EthPort) (i : Nat) : Nat := wdAt x.cfg (64 + 16 * i + 4)

/-- Descriptor `idx` of queue or ring `i` lies in memory at `pa`, where the port reads and writes it. -/
abbrev State.ringSees (s : State) (x : EthPort) (i idx pa : Nat) : Prop :=
  mtxMap (x.base i + 32 * idx) = .mem pa ∧
  ∀ o < 32, s.open.accErr .eth (pa + o) false = none ∧ s.open.accErr .eth (pa + o) true = none ∧ s.sound (pa + o)

/-- The queue after it read descriptor `idx` at `pa`: it holds it, or parks on OWN = 0 (15 R572). -/
def State.pulled (s : State) (x : EthPort) (i idx pa : Nat) : EthQ :=
  let ws := (List.range 8).map fun k => s.wordAt (pa + 4 * k)
  if (ws.getD 0 0).getLsbD 31 then
    { idx := idx, desc := some { addr := x.base i + 32 * idx, idx := idx, words := ws, tag := wdAt x.cfg (64 + 16 * i + 8), corr := hfAt x.cfg 30 } }
  else { idx := idx, park := true }

/-- A descriptor at `pa` completed: LEN, INFO and stamp, then STAT, then its event, then the next one read at `pb` (15
R572, R577). -/
def State.completed (s : State) (n i : Nat) (d : EthDesc) (pa pb len info stamp : Nat) (bad : Option Nat := none) : State :=
  let ev := (d.words.getD 0 0).getLsbD 29
  let rest := (if i < 8 then 2 ^ 16 * i else 0) + d.idx
  let k := if i < 8 then 4 else i - 8
  let z := (((s.poked (pa + 8) (w32 len)).poked (pa + 12) (w32 info)).poked (pa + 16) (w32 stamp)).poked (pa + 20) (w32 (stamp / 2 ^ 32))
  let z := z.poked pa (w32 (2 ^ 29 * b01 ev + bad.elim 0 fun c => 2 ^ 30 + c))
  let z := if bad.isSome then z.ethTells n k 2 rest else if ev then z.ethTells n k 1 rest else z
  let x := s.open.port n
  z.withQueue n i (z.pulled x i (if d.old then (x.qu i).idx else ((x.qu i).idx + 1) % max (x.count i) 1) pb)

/-- The link of a port went down: a tide locked on the port enters HOLDOVER (12 R464; 15 R577). -/
def State.portDown (s : State) (n : Nat) : State :=
  let x := s.open.port n
  let z := (s.withPort n { x with link := false, verify := false }).ethTells n 5 2 (cfgMode x.cfg)
  if s.tide.st = 2 ∧ s.tide.src = 2 ∧ s.tide.port = n then
    ({ z with tide := { z.tide with st := 3 } }).withEvent 0x5CF 3 s.open.now
  else z

/-- A port on which a configuration block took effect, its descriptors lying at the given places: a link that is up goes
down where MODE changes (15 R576, R577). -/
def State.configured (s : State) (n : Nat) (b : List Byte) (at' : Nat → Nat) : State :=
  let s := if (s.open.port n).link ∧ cfgMode b ≠ cfgMode (s.open.port n).cfg then s.portDown n else s
  let x := s.open.port n
  let y := { x with
    cfg := b, armed := none, cyc := x.cyc.map fun (c : Nat × CycSt) => (c.1, { built := c.2.built })
    gcl := (gclAtTime b s.open.now).1, gclAt := (gclAtTime b s.open.now).2 }
  s.withPort n { y with
    q := (List.range 12).map fun i => (i, if i < 8 ∧ (x.qu i).desc.isSome then { desc := (x.qu i).desc.map fun d => { d with old := true } } else if cfgMode b = 0 then {} else s.pulled y i 0 (at' i)) }

/-- A port that is on, with a link. -/
abbrev State.portOn (s : State) (n : Nat) : Prop := s.sys.held = false ∧ n < 8 ∧ cfgMode (s.open.port n).cfg ≠ 0 ∧ (s.open.port n).link = true

/-- A frame on the wire of a port whose streams it is not (15 R569, R576): the C-tag inserted where the queue's tag word
enables it. -/
def tagged (q tag : Nat) (f : List Byte) : List Byte :=
  if tag / 2 ^ 12 % 2 = 1 then
    f.take 12 ++ [0x81, 0x00, BitVec.ofNat 8 ((2 ^ 13 * q + tag % 2 ^ 12) / 2 ^ 8), BitVec.ofNat 8 tag] ++ f.drop 12
  else f

/-! ### Cameras -/

/-- Context `v` of camera input `n`, replaced. -/
def State.withCtx (s : State) (n v : Nat) (x : CsiCtx) : State :=
  { s with csi := tset s.csi n { tget {} s.csi n with ctx := tset (tget {} s.csi n).ctx v x } }

/-- A field of the CTRL or PACE word of a context (15 R583, R584). -/
def CsiCtx.field (x : CsiCtx) (i lo n : Nat) : Nat := (x.words.getD i 0).toNat / 2 ^ lo % 2 ^ n

/-- Blocks ready of a context whose frame has so many lines written: block k is ready from line Y0 + (k + 1) L on, and
there are NBLK of them (15 R581). -/
def CsiCtx.blocks (x : CsiCtx) (lines : Nat) : Nat :=
  ((List.range (x.field 3 8 8)).filter fun k => decide (x.field 3 16 16 + (k + 1) * x.field 3 0 8 ≤ lines ∧ x.field 3 0 8 ≠ 0)).length

/-- The request of the channel that a context paces says whether ready blocks outnumber consumed ones; a portion in
progress whose request goes counts as withdrawn (15 R581; 11 R425). -/
def State.asked (s : State) (x : CsiCtx) : State :=
  let c := x.field 2 8 5
  let n := x.field 2 0 4
  let h := s.open.ch c n
  let on := decide (x.used < x.blocks x.lines)
  let mid := (decide (h.st = 2) || decide (h.st = 3) || decide (h.st = 5)) && (h.dw 8).getLsbD 30 && h.moved && !on && h.req &&
    h.fail.isNone
  let z := s.withChan c n { h with
    req := on, st := if mid && decide (h.st = 2) && decide (h.port < h.total) then 3 else h.st, moved := h.moved && !mid }
  if x.field 2 31 1 = 1 ∧ x.field 2 29 1 = 1 ∧ c < 24 then (if mid then z.counted (culReg c n + 0x70) else z) else s

/-- Pixels of a line as whole numbers: RAW8 byte by byte, RAW10 four in five bytes, RAW12 two in three (CSI-2; the
model's reading, notes/assumptions/16). -/
def pixelOf (dt : Nat) (b : List Byte) (k : Nat) : Nat :=
  let at' := fun (i : Nat) => (b.getD i 0).toNat
  if dt = 0x2A then at' k
  else if dt = 0x2B then 4 * at' (k / 4 * 5 + k % 4) + at' (k / 4 * 5 + 4) / 4 ^ (k % 4) % 4
  else 16 * at' (k / 2 * 3 + k % 2) + at' (k / 2 * 3 + 2) / 16 ^ (k % 2) % 16
def pixels (dt n : Nat) : Nat := if dt = 0x2A then n else if dt = 0x2B then n / 5 * 4 else n / 3 * 2

/-- The bytes of a line as a context keeps them (15 R580). -/
def CsiCtx.kept (x : CsiCtx) (dt : Nat) (b : List Byte) : List Byte :=
  (if x.field 2 30 1 = 1 ∧ dt ≠ 0x1E then
    (List.range (pixels dt b.length)).flatMap fun k => [BitVec.ofNat 8 (pixelOf dt b k), BitVec.ofNat 8 (pixelOf dt b k / 2 ^ 8)]
  else b).take (x.field 1 0 16)

/-! ### The annex link -/

/-- The presence mask of a set of unit descriptors (15 R592, R593). -/
def presence (d : Tbl (List Word)) : Nat := ((List.range 6).map fun k => if ((tget [] d k).getD 0 0).getLsbD 31 then 2 ^ k else 0).sum

/-- Every outstanding operation completes with results that fault when they are read, every outstanding request gets an
error, and each unit tells how many operations ended (15 R596, R598). -/
def State.abandoned (s : State) : State :=
  let hurt := s.annex.ops.foldl (fun (z : State) (j : UxJob) => { z with thr := tset z.thr j.key ((z.open.th j.key).setSrc j.shadow (200 + j.unit) 1) }) s
  let bare := { hurt with annex := { s.annex with ops := [], reqs := [] }, resp := if s.annex.reqs = [] then s.resp else { err := some .busError } }
  (List.range 6).foldl (fun (z : State) k =>
    let n := (s.annex.ops.filter fun j => decide (j.unit = k)).length
    if n = 0 then z else (z.countedBy (anxReg + 0xA4) n).withEvent 0x632 (2 ^ 21 * k + n) s.open.now) bare

/-- The link leaves its state for DOWN (0) or TRAIN (1), telling that it is no longer UP if it was (15 R593, R596, R598). -/
def State.linkLeft (s : State) (st : Nat) : State :=
  let z := { s.abandoned with annex := { s.abandoned.annex with st := st, got := [], bad := [] } }
  if s.annex.st = 2 then z.withEvent 0x630 0 s.open.now else z

/-- A link error: counted, told, and the link trains (15 R596, R598). -/
def State.annexFails (s : State) (code : Nat) : State :=
  if s.annex.st = 0 then s else ((s.counted (anxReg + 0xA0)).withEvent 0x631 code s.open.now).linkLeft 1

/-! ### The vault -/

/-- Bytes laid in memory from an address on. -/
def laid (mem : Memory) (pa : Nat) (bs : List Byte) : Memory := (List.range bs.length).foldl (fun q k => q.write (pa + k) (bs.getD k 0)) mem

/-- Bytes of memory that a block's master may write, all in sound doubles. -/
abbrev State.writableFor (s : State) (who : Who) (pa n : Nat) : Prop :=
  ∀ i < n, s.open.accErr who (pa + i) true = none ∧ s.sound (pa + i)

/-- A staged word of the vault's commit under way, by its offset, and a field of it (16 R625). -/
def State.vltWord (s : State) (o : Nat) : Nat := (s.snap .vlt (vltReg + o)).toNat
def State.vltField (s : State) (o lo n : Nat) : Nat := s.vltWord o / 2 ^ lo % 2 ^ n

/-- The checks of R627 (16) in order: the check's number, the status, and whether it fails. -/
def State.vltTests (s : State) : List (Nat × St × Bool) :=
  let act := s.vltField 0 24 4
  let v := s.vault
  let st := if v.st = 2 then v.prev else v.st
  let f := s.vltField
  let place := fun (a n : Nat) => decide (0x10000000 ≤ a ∧ a + n ≤ 0x11000000)
  let held := v.arms.any fun (a : Nat × Nat × Word) => ((s.open.en a.1).slot a.2.1).armed.any fun t => decide (t.addr = a.2.2)
  [(1, .badValue, decide (act = 0 ∨ 10 < act ∨ (act = 1 ∧ f 0 20 3 ∉ [1, 2, 3, 4]) ∨ f 0 28 4 ≠ 0 ∨ f 0 23 1 ≠ 0 ∨ f 0 9 11 ≠ 0 ∨ f 0 4 4 ≠ 0 ∨
     (act = 10 ∧ (f 0x48 10 6 ≠ 0 ∨ f 0x48 20 12 ≠ 0)))),
   (2, .badValue, decide (st = 0 ∧ act ∉ [7, 8, 10])), (2, .vaultWorn, decide (st = 3 ∧ act ∈ [1, 4])),
   (3, .badValue, decide (act = 10) && (held || !(place (s.vltWord 0x30) (s.vltWord 0x34) && place (s.vltWord 0x38) (2 ^ 20)) ||
     decide (s.vltWord 0x30 % 64 ≠ 0 ∨ s.vltWord 0x38 % 2 ^ 20 ≠ 0 ∨ f 0x3C 16 16 = 0 ∨ f 0x3C 0 16 = 0 ∨ f 0x40 16 16 = 0 ∨ f 0x40 0 16 < 16 ∨
       f 0x44 16 16 = 0 ∨ f 0x44 8 8 = 0 ∨ 120 < f 0x44 8 8 ∨ f 0x44 0 8 < 5 ∨ f 0x48 0 10 < 200 ∨ 800 < f 0x48 0 10 ∨ 8 < f 0x48 16 4))),
   (4, .badValue, decide ((act = 1 ∧ f 0 8 1 = 1 ∧ ∃ k ∈ [1, 3, 5], tfind v.slots k = none) ∨
     (act = 1 ∧ (s.vltWord 0xC = 0 ∨ 2 ^ 26 < s.vltWord 0xC)) ∨ (act = 4 ∧ (s.vltWord 0xC = 0 ∨ 4096 < s.vltWord 0xC))))]

/-- A commit of the vault for an action is under way. -/
abbrev State.vltAsked (s : State) (act : Nat) : Prop := s.committing .vlt ∧ s.vltField 0 24 4 = act
/-- It passes the checks, and the vault is not paused. -/
abbrev State.vltActs (s : State) (act : Nat) : Prop :=
  s.vltAsked act ∧ (∀ c ∈ s.vltTests, c.2.2 = false) ∧ (s.vault.st ≠ 2 ∨ act = 10)

/-- An action ends: its result, and DONE (16 R606, R617, R627). -/
def State.vltEnds (s : State) (act : Nat) (st : St) (check : Nat := 0) (index : Nat := if st = .ok then 0 else 0xFFFF) : State :=
  (s.finished .vlt st check index).withEvent 0x580 (2 ^ 28 + 2 ^ 24 * act + st.code) s.open.now

/-- What the medium did: counters, good free blocks, blocks retired and moved, and READONLY for a channel below RESERVE
(16 R609 to R612, R617). -/
def State.nandDid (s : State) (m : Med) : State :=
  let v := s.vault
  let z := ((s.countedBy (vltReg + 0x90) m.corr).countedBy (vltReg + 0x94) m.retries).countedBy (vltReg + 0x98) m.uncorr
  let good := (List.range 2).map fun c => min (m.good.getD c (v.good.getD c 0)) (v.blocks.getD c 0)
  let z := { z with vault := { v with good := good } }
  let z := m.retired.foldl (fun (y : State) c =>
    { y with vault := { y.vault with retired := (List.range 2).map fun k => y.vault.retired.getD k 0 + if k = c % 2 then 1 else 0 } }.withEvent 0x582 (2 ^ 28 + c % 2) s.open.now) z
  let z := m.moved.foldl (fun (y : State) c => (y.counted (vltReg + 0x9C)).withEvent 0x582 (2 ^ 29 + c % 2) s.open.now) z
  let low := (List.range 2).find? fun c => decide (0 < v.blocks.getD c 0 ∧ good.getD c 0 * 1000 < ((tget (stgReset (vltReg + 0x44)) s.live (vltReg + 0x44)).toNat % 2 ^ 8) * v.blocks.getD c 0)
  match low with
  | none => z
  | some c =>
    if v.st = 1 then { z with vault := { z.vault with st := 3 } }.withEvent 0x581 (2 ^ 30 + c) s.open.now
    else if v.st = 2 ∧ v.prev = 1 then { z with vault := { z.vault with prev := 3 } }.withEvent 0x581 (2 ^ 30 + c) s.open.now
    else z

/-- The status that a failure of the medium gives an action (16 R603, R608, R609). -/
def nandStatus (m : Med) : St := if m.fail = 1 then .eccUncorrectable else if m.fail = 2 then .vaultWorn else .busError

/-- An object stored under its number. -/
def State.withObj (s : State) (id : Nat) (o : VObj) : State := { s with vault := { s.vault with objs := tset s.vault.objs id o } }

/-- What an object holds: its bytes, or for a log its records in order. -/
def VObj.whole (o : VObj) : List Byte := if o.type = 3 then o.recs.flatten else o.data

/-- The 32 bytes of an object's information (16 R607). -/
def State.infoOf (s : State) (id : Nat) (o : VObj) : List Byte :=
  let single := ¬ (s.vault.ce.getD 0 0 = 0 ↔ s.vault.ce.getD 1 0 = 0)
  leBytes 4 id ++ leBytes 4 (o.type + 2 ^ 8 * o.cls + if o.type ≤ 2 ∧ ¬ single then 2 ^ 9 else 0) ++ leBytes 4 o.whole.length ++
    leBytes 4 o.ver ++ leBytes 8 o.time ++ leBytes 4 (crc32c o.whole) ++ leBytes 4 0

/-- A little-endian field of bytes. -/
def numAt (b : List Byte) (o n : Nat) : Nat := leNat ((b.drop o).take n)

/-- A recipe of `n` DATA sections that passes R618 and R619, whose DEST addresses lie in memory at `dest` (16 R618 to
R620). -/
abbrev State.dataRecipe (s : State) (b : List Byte) (n : Nat) (dest : Nat → Nat) : Prop :=
  let sec := numAt b 0x10 4
  128 ≤ b.length ∧ b.length % 64 = 0 ∧ b.length ≤ (tget (stgReset (vltReg + 0x34)) s.live (vltReg + 0x34)).toNat ∧
  numAt b 0 4 = 0x31434552 ∧ numAt b 4 2 = 1 ∧ numAt b 6 2 = n ∧ 1 ≤ n ∧ n ≤ 1024 ∧ numAt b 8 4 = b.length ∧ sec % 32 = 0 ∧
  sec + 32 * n + 64 ≤ b.length ∧ numAt b 0x14 44 = 0 ∧
  ∀ i < n,
    let o := sec + 32 * i
    let d := numAt b (o + 16) 4
    let len := numAt b (o + 12) 4
    numAt b o 4 = 5 ∧ numAt b (o + 4) 4 = 0xFFFF ∧ numAt b (o + 8) 4 % 64 = 0 ∧ len ≠ 0 ∧ numAt b (o + 8) 4 + len + 64 ≤ b.length ∧ numAt b (o + 20) 12 = 0 ∧
    mtxMap d = .mem (dest i) ∧ s.writableFor .vault (dest i) len

/-- The report of a LOAD (16 R624). -/
def loadTold (st : St) (step index recipe : Nat) : List Byte :=
  leBytes 4 (st.code + 2 ^ 16 * step) ++ leBytes 4 index ++ leBytes 4 recipe ++ List.replicate 52 0

/-! ### Reset and boot -/

/-- A device reset of some kinds: every register, memory and block at its Reset value but for the repair map, the dip
record, the fault log and its registers, SYS_RSTCAUSE, SYS_RSTINFO, the OTP store, what the flash holds and the test
access port (17 R628, R629, R655). -/
def State.resetBy (s : State) (kinds : Nat) : State :=
  { part := s.part, free := s.free, tap := s.tap, pending := s.pending
    bank := s.bank.map fun (c : Nat × MBank) => (c.1, ({ rows := c.2.rows, spent := c.2.spent, bad := c.2.bad, cols := c.2.cols } : MBank))
    regs := s.regs.filter fun (c : Nat × Word) => decide ((0x40010024 ≤ c.1 ∧ c.1 < 0x40010038) ∨ (0x40072000 ≤ c.1 ∧ c.1 < 0x40074000) ∨ c.1 = 0x400700A8)
    weir := { dipReset := s.weir.dipReset }
    flt := { head := s.flt.head }
    vault := { sys := s.vault.sys, objs := s.vault.objs, kept := s.vault.kept, retired := s.vault.retired }
    sys := { held := true, last := kinds, sticky := s.sys.sticky ||| kinds, count := (s.sys.count + 1) % 2 ^ 8
             info := s.sys.info, otp := s.sys.otp, pins := s.sys.pins } }

/-- Keeper firmware that passes R636 (17). -/
abbrev goodFirmware (b : List Byte) : Prop :=
  let w := fun (o : Nat) => numAt b o 4
  let part := fun (o hi : Nat) => w o % 4 = 0 ∧ w (o + 4) % 4 = 0 ∧ w (o + 4) ≤ hi ∧ w o + w (o + 4) + 64 ≤ b.length
  128 ≤ b.length ∧ w 0 = 0x314D524B ∧ w 4 = 1 ∧ w 8 = b.length ∧ b.length % 64 = 0 ∧ b.length ≤ 0x100000 ∧ w 0x10 % 4 = 0 ∧
  0x4000 ≤ w 0x10 ∧ w 0x10 ≤ 0x7FFC ∧ part 0x14 0x4000 ∧ part 0x1C 0xFB00 ∧ part 0x24 0x100000 ∧ numAt b 0x2C 20 = 0

/-- An object that serves as keeper firmware (17 R633, R636, R638). -/
def State.bootable (s : State) (id : Nat) (med : Med) : Bool :=
  match tfind s.vault.objs id with
  | some o => decide (med.fail = 0) && decide (o.type = 4) && decide (goodFirmware o.data) && s.open.signed o.data
  | none => false

/-- A part of firmware: offset and length stand at `o` and `o + 4` of its header. -/
def fwPart (b : List Byte) (o : Nat) : List Byte := (b.drop (numAt b o 4)).take (numAt b (o + 4) 4)

/-- Thread t0 of engine `e` may be started by SYS_START: STOPPED, not halted, its engine in service (14 R536; 17 R641,
R650). -/
def State.startable (s : State) (e : Nat) : Bool :=
  decide ((s.thread e 0).run = .stopped) && !(s.thread e 0).halted && decide ((tget {} s.flt.units e).st = 0) &&
    decide ((tget {} s.flt.units (256 + e / 8)).st = 0) && decide (4 ≤ s.sys.phase)

/-- The commands that act also while a reset is asserted: resets, their release, and the test access port (17 R628, R630,
R646). -/
def actsInReset (c : Instr) : Bool :=
  match c with
  | .powerOnReset _ | .pinReset _ | .resetRelease _ _ _ _ _ | .extest _ | .idcode | .samplePreload _ | .clamp | .highz
  | .dapacc | .bypass | .tapReset => true
  | _ => false

/-! ### Operation codes -/

/-- An operation of the unit, with every field in its range and 0 where the operation has none (04 R129, R130, R140,
R152, R154; 05 R183; 10 R373; 12 R455). -/
def UOp.fits (u : UnitId) (f : UOp) : Bool :=
  match u, f with
  | .alu0, .alu op pd | .alu1, .alu op pd => if op.usesPd then decide (pd < 8) else decide (pd = 0)
  | .agu, .agu op ar ab => decide (ar < 16) && if op = .amod then decide (ab < 16) else decide (ab = 0)
  | .mul, .mul op sh => if op = .mulq then decide (sh < 32) else decide (sh = 0)
  | .div, .div _ => true
  | .simd, .simd op xa qa qb qd =>
    decide (xa < if op.usesXa then 4 else 1) && decide (qa < if op.usesQa then 8 else 1) &&
      decide (qb < if op.usesQb then 8 else 1) && decide (qd < if op.usesQd then 8 else 1)
  | .dec, .dec op pd => if op.usesPd then decide (pd < 8) else decide (pd = 0)
  | .crv, .eval cs => decide (cs < 16)
  | .crv, .beat bg => decide (bg < 16)
  | .seq, .seqStep sl pd => decide (sl < 16) && decide (pd < 8)
  | .seq, .tbla sl kd => decide (kd < 3) && decide (sl < if kd = 2 then 8 else 16)
  | .lsu0, .lsu op dr ar upd | .lsu1, .lsu op dr ar upd =>
    decide (ar < 16) && decide (dr < if op.usesDr then 32 else 1) && (op.size ≠ 8 || decide (dr % 2 = 0)) &&
      !(op.isAtomic && upd)
  | .ctl, .ctl op n =>
    match op with
    | .gate => decide (n < 256)
    | .mfc | .mtc => decide (n < 32)
    | .br | .jl => decide (n < 2)
    | .cbr c => decide (c < 6) && decide (n < 2)
    | _ => decide (n = 0)
  | .net, .net op ch pd => decide (ch < 4) && if op = .rskip then decide (pd = 0) else decide (pd < 8)
  | .evq, .evq op dr pd =>
    if op = .ring then decide (dr < 32) && decide (pd = 0) else decide (dr = 0) && decide (pd < 8)
  | _, _ => false

end Machine

end Sys2Proof
end

