-- ==== Sys2Proof/Certificates/Slice0/Obligations.lean ====
section
/-! DEFINITION. The statements about the model, for the provers. -/

open Sys2Proof Sys2Proof.Machine

/-- ALU additions and subtractions (04 R135, R137): what each starts, and that it changes nothing else. Waiting for
a pending P[PD] is in `BundlesIssueOrWait`; delivery is in `ResultsLand`. -/
def Obligations.AluAddAndSubtract : Prop :=
  ∀ (s : State) (e t u pd : Nat) (o x : Word), s.issues e t → u < 2 → pd < 8 → s.settled e t (3, pd) →
    exec (.add e t u pd o x) s =
      .next (s.triggered e t u (0x01 + 256 * pd) (some o)
        { s.opOf e t u [(48 + u, o + x)] with
          preds := predTo pd (decide (2 ^ 32 ≤ o.toNat + x.toNat))
          ov := outside 32 (o.toInt + x.toInt)
          hold := (s.thread e t).precise && (s.thread e t).ovt }) ∧
    exec (.sub e t u pd o x) s =
      .next (s.triggered e t u (0x02 + 256 * pd) (some o)
        { s.opOf e t u [(48 + u, o - x)] with
          preds := predTo pd (decide (o.toNat < x.toNat))
          ov := outside 32 (o.toInt - x.toInt)
          hold := (s.thread e t).precise && (s.thread e t).ovt }) ∧
    exec (.addc e t u pd o x) s =
      .next (s.triggered e t u (0x03 + 256 * pd) (some o)
        { s.opOf e t u [(48 + u, o + x + w32 (s.carryIn e t pd))] with
          preds := predTo pd (decide (2 ^ 32 ≤ o.toNat + x.toNat + s.carryIn e t pd))
          ov := outside 32 (o.toInt + x.toInt + s.carryIn e t pd)
          hold := (s.thread e t).precise && (s.thread e t).ovt }) ∧
    exec (.subb e t u pd o x) s =
      .next (s.triggered e t u (0x04 + 256 * pd) (some o)
        { s.opOf e t u [(48 + u, o - x - w32 (s.carryIn e t pd))] with
          preds := predTo pd (decide (o.toNat < x.toNat + s.carryIn e t pd))
          ov := outside 32 (o.toInt - x.toInt - s.carryIn e t pd)
          hold := (s.thread e t).precise && (s.thread e t).ovt }) ∧
    exec (.adds e t u o x) s =
      .next (s.triggered e t u 0x05 (some o)
        (s.opOf e t u [(48 + u, w32i (clamp 32 (o.toInt + x.toInt)))])) ∧
    exec (.subs e t u o x) s =
      .next (s.triggered e t u 0x06 (some o)
        (s.opOf e t u [(48 + u, w32i (clamp 32 (o.toInt - x.toInt)))])) ∧
    exec (.neg e t u o x) s =
      .next (s.triggered e t u 0x07 (some o)
        { s.opOf e t u [(48 + u, 0 - x)] with
          ov := decide (x = 0x80000000)
          hold := (s.thread e t).precise && (s.thread e t).ovt }) ∧
    exec (.abs e t u o x) s =
      .next (s.triggered e t u 0x08 (some o)
        { s.opOf e t u [(48 + u, if x.toInt < 0 then 0 - x else x)] with
          ov := decide (x = 0x80000000)
          hold := (s.thread e t).precise && (s.thread e t).ovt })

/-- ALU logic, extensions, counts, shifts, rotates, minima, maxima and clamps (04 R135, R137). A width of 0 clamps to 0. -/
def Obligations.AluLogicShiftsAndClamps : Prop :=
  ∀ (s : State) (e t u : Nat) (o x : Word), s.issues e t → u < 2 →
    exec (.and e t u o x) s =
      .next (s.triggered e t u 0x10 (some o)
        (s.opOf e t u [(48 + u, o &&& x)])) ∧
    exec (.or e t u o x) s =
      .next (s.triggered e t u 0x11 (some o)
        (s.opOf e t u [(48 + u, o ||| x)])) ∧
    exec (.xor e t u o x) s =
      .next (s.triggered e t u 0x12 (some o)
        (s.opOf e t u [(48 + u, o ^^^ x)])) ∧
    exec (.andn e t u o x) s =
      .next (s.triggered e t u 0x13 (some o)
        (s.opOf e t u [(48 + u, o &&& ~~~x)])) ∧
    exec (.not e t u o x) s =
      .next (s.triggered e t u 0x14 (some o)
        (s.opOf e t u [(48 + u, ~~~x)])) ∧
    exec (.sextb e t u o x) s =
      .next (s.triggered e t u 0x28 (some o)
        (s.opOf e t u [(48 + u, (x.setWidth 8).signExtend 32)])) ∧
    exec (.sexth e t u o x) s =
      .next (s.triggered e t u 0x29 (some o)
        (s.opOf e t u [(48 + u, (x.setWidth 16).signExtend 32)])) ∧
    exec (.zextb e t u o x) s =
      .next (s.triggered e t u 0x2A (some o)
        (s.opOf e t u [(48 + u, (x.setWidth 8).setWidth 32)])) ∧
    exec (.zexth e t u o x) s =
      .next (s.triggered e t u 0x2B (some o)
        (s.opOf e t u [(48 + u, (x.setWidth 16).setWidth 32)])) ∧
    exec (.clz e t u o x) s =
      .next (s.triggered e t u 0x2C (some o)
        (s.opOf e t u [(48 + u, if x = 0 then 32 else w32 (31 - Nat.log2 x.toNat))])) ∧
    exec (.popc e t u o x) s =
      .next (s.triggered e t u 0x2D (some o)
        (s.opOf e t u [(48 + u, w32 ((List.range 32).countP fun i => x.getLsbD i))])) ∧
    exec (.shl e t u o x) s =
      .next (s.triggered e t u 0x18 (some o)
        (s.opOf e t u [(48 + u, o <<< (x.toNat % 256))])) ∧
    exec (.shr e t u o x) s =
      .next (s.triggered e t u 0x19 (some o)
        (s.opOf e t u [(48 + u, o >>> (x.toNat % 256))])) ∧
    exec (.sar e t u o x) s =
      .next (s.triggered e t u 0x1A (some o)
        (s.opOf e t u [(48 + u, o.sshiftRight (x.toNat % 256))])) ∧
    exec (.rol e t u o x) s =
      .next (s.triggered e t u 0x1B (some o)
        (s.opOf e t u [(48 + u, o.rotateLeft (x.toNat % 32))])) ∧
    exec (.ror e t u o x) s =
      .next (s.triggered e t u 0x1C (some o)
        (s.opOf e t u [(48 + u, o.rotateRight (x.toNat % 32))])) ∧
    exec (.min e t u o x) s =
      .next (s.triggered e t u 0x20 (some o)
        (s.opOf e t u [(48 + u, if o.slt x then o else x)])) ∧
    exec (.max e t u o x) s =
      .next (s.triggered e t u 0x21 (some o)
        (s.opOf e t u [(48 + u, if o.slt x then x else o)])) ∧
    exec (.minu e t u o x) s =
      .next (s.triggered e t u 0x22 (some o)
        (s.opOf e t u [(48 + u, if o < x then o else x)])) ∧
    exec (.maxu e t u o x) s =
      .next (s.triggered e t u 0x23 (some o)
        (s.opOf e t u [(48 + u, if o < x then x else o)])) ∧
    exec (.sats e t u o x) s =
      .next (s.triggered e t u 0x24 (some o)
        (s.opOf e t u [(48 + u, w32i (clamp (Nat.min (x.toNat % 256) 32) o.toInt))])) ∧
    exec (.satu e t u o x) s =
      .next (s.triggered e t u 0x25 (some o)
        (s.opOf e t u [(48 + u, w32i (max 0 (min (2 ^ Nat.min (x.toNat % 256) 32 - 1) o.toInt)))]))

/-- ALU compares and tests (04 R135, R137). -/
def Obligations.AluComparesWritePredicates : Prop :=
  ∀ (s : State) (e t u pd : Nat) (o x : Word), s.issues e t → u < 2 → pd < 8 →
    exec (.cmpeq e t u pd o x) s =
      .next (s.triggered e t u (0x30 + 256 * pd) (some o)
        { s.opOf e t u [(48 + u, w32 (b01 (decide (o = x))))] with
          preds := predTo pd (decide (o = x)) }) ∧
    exec (.cmpne e t u pd o x) s =
      .next (s.triggered e t u (0x31 + 256 * pd) (some o)
        { s.opOf e t u [(48 + u, w32 (b01 (decide (o ≠ x))))] with
          preds := predTo pd (decide (o ≠ x)) }) ∧
    exec (.cmplt e t u pd o x) s =
      .next (s.triggered e t u (0x32 + 256 * pd) (some o)
        { s.opOf e t u [(48 + u, w32 (b01 (o.slt x)))] with
          preds := predTo pd (o.slt x) }) ∧
    exec (.cmple e t u pd o x) s =
      .next (s.triggered e t u (0x33 + 256 * pd) (some o)
        { s.opOf e t u [(48 + u, w32 (b01 (o.sle x)))] with
          preds := predTo pd (o.sle x) }) ∧
    exec (.cmpgt e t u pd o x) s =
      .next (s.triggered e t u (0x34 + 256 * pd) (some o)
        { s.opOf e t u [(48 + u, w32 (b01 (x.slt o)))] with
          preds := predTo pd (x.slt o) }) ∧
    exec (.cmpge e t u pd o x) s =
      .next (s.triggered e t u (0x35 + 256 * pd) (some o)
        { s.opOf e t u [(48 + u, w32 (b01 (x.sle o)))] with
          preds := predTo pd (x.sle o) }) ∧
    exec (.cmpltu e t u pd o x) s =
      .next (s.triggered e t u (0x36 + 256 * pd) (some o)
        { s.opOf e t u [(48 + u, w32 (b01 (o.ult x)))] with
          preds := predTo pd (o.ult x) }) ∧
    exec (.cmpleu e t u pd o x) s =
      .next (s.triggered e t u (0x37 + 256 * pd) (some o)
        { s.opOf e t u [(48 + u, w32 (b01 (o.ule x)))] with
          preds := predTo pd (o.ule x) }) ∧
    exec (.cmpgtu e t u pd o x) s =
      .next (s.triggered e t u (0x38 + 256 * pd) (some o)
        { s.opOf e t u [(48 + u, w32 (b01 (x.ult o)))] with
          preds := predTo pd (x.ult o) }) ∧
    exec (.cmpgeu e t u pd o x) s =
      .next (s.triggered e t u (0x39 + 256 * pd) (some o)
        { s.opOf e t u [(48 + u, w32 (b01 (x.ule o)))] with
          preds := predTo pd (x.ule o) }) ∧
    exec (.tstz e t u pd o x) s =
      .next (s.triggered e t u (0x3A + 256 * pd) (some o)
        { s.opOf e t u [(48 + u, w32 (b01 (decide (o &&& x = 0))))] with
          preds := predTo pd (decide (o &&& x = 0)) }) ∧
    exec (.tstnz e t u pd o x) s =
      .next (s.triggered e t u (0x3B + 256 * pd) (some o)
        { s.opOf e t u [(48 + u, w32 (b01 (decide (o &&& x ≠ 0))))] with
          preds := predTo pd (decide (o &&& x ≠ 0)) })

/-- The AGU (04 R139, R140). -/
def Obligations.AguStepsPointers : Prop :=
  ∀ (s : State) (e t ar ab : Nat) (o x : Word), s.issues e t → ar < 16 → ab < 16 → s.settled e t (1, ar) →
    s.settled e t (1, ab) →
    exec (.lea e t ar x) s =
      .next (s.triggered e t 2 (0x01 + 2 ^ 12 * ar) none (s.opOf e t 2 [(50, s.areg e t ar + x)])) ∧
    exec (.aadd e t ar x) s =
      .next (s.triggered e t 2 (0x02 + 2 ^ 12 * ar) none
        { s.opOf e t 2 [(50, s.areg e t ar + x)] with as := [(ar, s.areg e t ar + x)] }) ∧
    exec (.amod e t ar ab o x) s =
      .next (s.triggered e t 2 (0x03 + 2 ^ 12 * ar + 2 ^ 16 * ab) (some o)
        { s.opOf e t 2 [(50, ringStep (s.areg e t ab) (s.areg e t ar) o x)] with
          as := [(ar, ringStep (s.areg e t ab) (s.areg e t ar) o x)] })

/-- MUL and DIV (04 R141 to R144). -/
def Obligations.MultiplyAndDivide : Prop :=
  ∀ (s : State) (e t sh : Nat) (o x : Word), s.issues e t → sh < 32 →
    exec (.muls e t o x) s = (let p := o.toInt * x.toInt
      .next (s.triggered e t 3 0x01 (some o) (s.opOf e t 3 [(51, w32i (p / 2 ^ 32)), (52, w32i p)]))) ∧
    exec (.mulu e t o x) s = (let p := o.toNat * x.toNat
      .next (s.triggered e t 3 0x02 (some o) (s.opOf e t 3 [(51, w32 (p / 2 ^ 32)), (52, w32 p)]))) ∧
    exec (.mulsu e t o x) s = (let p := o.toInt * (x.toNat : Int)
      .next (s.triggered e t 3 0x03 (some o) (s.opOf e t 3 [(51, w32i (p / 2 ^ 32)), (52, w32i p)]))) ∧
    exec (.mulq e t sh o x) s = (let p := o.toInt * x.toInt
      let q := if sh = 0 then p else (p + 2 ^ (sh - 1)) / 2 ^ sh
      .next (s.triggered e t 3 (0x04 + 256 * sh) (some o)
        (s.opOf e t 3 [(51, w32i (p / 2 ^ 32)), (52, w32i (clamp 32 q))]))) ∧
    ((∀ j < 4, ∀ f ∈ (s.thread e j).ops, f.unit ≠ 4) →
      exec (.divs e t o x) s =
        .next (s.triggered e t 4 0x01 (some o)
          { s.opOf e t 4
              (if x = 0 then [(53, if 0 ≤ o.toInt then 0x7FFFFFFF else 0x80000000), (54, o)]
               else if o = 0x80000000 ∧ x = 0xFFFFFFFF then [(53, 0x80000000), (54, 0)]
               else [(53, w32i (o.toInt.tdiv x.toInt)), (54, w32i (o.toInt.tmod x.toInt))]) with
            dz := decide (x = 0)
            ov := decide (o = 0x80000000 ∧ x = 0xFFFFFFFF)
            hold := (s.thread e t).precise && ((s.thread e t).dzt || (s.thread e t).ovt) }) ∧
      exec (.divu e t o x) s =
        .next (s.triggered e t 4 0x02 (some o)
          { s.opOf e t 4 (if x = 0 then [(53, 0xFFFFFFFF), (54, o)]
                          else [(53, w32 (o.toNat / x.toNat)), (54, w32 (o.toNat % x.toNat))]) with
            dz := decide (x = 0)
            hold := (s.thread e t).precise && (s.thread e t).dzt }))

/-- The SIMD packs and unpacks (04 R145). -/
def Obligations.PacksAndUnpacks : Prop :=
  ∀ (s : State) (e t qa qb qd : Nat), s.issues e t → qa < 8 → qb < 8 → qd < 8 → s.quadSettled e t qa →
    s.quadSettled e t qb →
    exec (.packs8 e t qa qb qd) s =
      .next (s.triggered e t 5 (0x10 + 2 ^ 12 * qa + 2 ^ 16 * qb + 2 ^ 20 * qd) none
        { s.opOf e t 5 [] with ds := quadTo qd fun k => lanes4 fun i => clamp 8 (s.halfOfTwo e t qa qb (4 * k + i)).toInt }) ∧
    exec (.packu8 e t qa qb qd) s =
      .next (s.triggered e t 5 (0x11 + 2 ^ 12 * qa + 2 ^ 16 * qb + 2 ^ 20 * qd) none
        { s.opOf e t 5 [] with ds := quadTo qd fun k => lanes4 fun i => max 0 (min 255 (s.halfOfTwo e t qa qb (4 * k + i)).toInt) }) ∧
    exec (.unpkl8 e t qa qd) s =
      .next (s.triggered e t 5 (0x12 + 2 ^ 12 * qa + 2 ^ 20 * qd) none
        { s.opOf e t 5 [] with ds := quadTo qd fun k => lanes2 fun i => (s.dByte e t qa (2 * k + i)).toInt }) ∧
    exec (.unpkh8 e t qa qd) s =
      .next (s.triggered e t 5 (0x13 + 2 ^ 12 * qa + 2 ^ 20 * qd) none
        { s.opOf e t 5 [] with ds := quadTo qd fun k => lanes2 fun i => (s.dByte e t qa (8 + 2 * k + i)).toInt }) ∧
    exec (.unpklu8 e t qa qd) s =
      .next (s.triggered e t 5 (0x14 + 2 ^ 12 * qa + 2 ^ 20 * qd) none
        { s.opOf e t 5 [] with ds := quadTo qd fun k => lanes2 fun i => (s.dByte e t qa (2 * k + i)).toNat }) ∧
    exec (.unpkhu8 e t qa qd) s =
      .next (s.triggered e t 5 (0x15 + 2 ^ 12 * qa + 2 ^ 20 * qd) none
        { s.opOf e t 5 [] with ds := quadTo qd fun k => lanes2 fun i => (s.dByte e t qa (8 + 2 * k + i)).toNat })

/-- The SIMD operations on accumulators, as they start (04 R145 to R148, R166). -/
def Obligations.SimdTriggersCaptureOperands : Prop :=
  ∀ (s : State) (e t xa qa qb qd : Nat) (x : Word), s.issues e t → xa < 4 → qa < 8 → qb < 8 → qd < 8 →
    s.quadSettled e t qa → s.quadSettled e t qb →
    exec (.mac16 e t xa qa qb x) s =
      .next (s.triggered e t 5 (0x01 + 2 ^ 8 * xa + 2 ^ 12 * qa + 2 ^ 16 * qb) none
        { s.opOf e t 5 [] with
          simd := some { op := .mac16, xa := xa, qd := 0, qa := s.quadOf e t qa, qb := s.quadOf e t qb, t := x }
          hold := (s.thread e t).precise && (s.thread e t).ovt }) ∧
    exec (.mac8ss e t xa qa qb x) s =
      .next (s.triggered e t 5 (0x02 + 2 ^ 8 * xa + 2 ^ 12 * qa + 2 ^ 16 * qb) none
        { s.opOf e t 5 [] with
          simd := some { op := .mac8ss, xa := xa, qd := 0, qa := s.quadOf e t qa, qb := s.quadOf e t qb, t := x }
          hold := (s.thread e t).precise && (s.thread e t).ovt }) ∧
    exec (.mac8us e t xa qa qb x) s =
      .next (s.triggered e t 5 (0x03 + 2 ^ 8 * xa + 2 ^ 12 * qa + 2 ^ 16 * qb) none
        { s.opOf e t 5 [] with
          simd := some { op := .mac8us, xa := xa, qd := 0, qa := s.quadOf e t qa, qb := s.quadOf e t qb, t := x }
          hold := (s.thread e t).precise && (s.thread e t).ovt }) ∧
    exec (.mac8uu e t xa qa qb x) s =
      .next (s.triggered e t 5 (0x04 + 2 ^ 8 * xa + 2 ^ 12 * qa + 2 ^ 16 * qb) none
        { s.opOf e t 5 [] with
          simd := some { op := .mac8uu, xa := xa, qd := 0, qa := s.quadOf e t qa, qb := s.quadOf e t qb, t := x }
          hold := (s.thread e t).precise && (s.thread e t).ovt }) ∧
    exec (.nars16 e t xa qd x) s =
      .next (s.triggered e t 5 (0x08 + 2 ^ 8 * xa + 2 ^ 20 * qd) none
        { s.opOf e t 5 [] with simd := some { op := .nars16, xa := xa, qd := qd, qa := 0, qb := 0, t := x } }) ∧
    exec (.nars8 e t xa qd x) s =
      .next (s.triggered e t 5 (0x09 + 2 ^ 8 * xa + 2 ^ 20 * qd) none
        { s.opOf e t 5 [] with simd := some { op := .nars8, xa := xa, qd := qd, qa := 0, qb := 0, t := x } }) ∧
    exec (.naru8 e t xa qd x) s =
      .next (s.triggered e t 5 (0x0A + 2 ^ 8 * xa + 2 ^ 20 * qd) none
        { s.opOf e t 5 [] with simd := some { op := .naru8, xa := xa, qd := qd, qa := 0, qb := 0, t := x } }) ∧
    exec (.xlane e t xa x) s =
      .next (s.triggered e t 5 (0x18 + 2 ^ 8 * xa) none
        { s.opOf e t 5 [] with simd := some { op := .xlane, xa := xa, qd := 0, qa := 0, qb := 0, t := x } })

/-- DEC (04 R149, R150). -/
def Obligations.DecimalOperations : Prop :=
  ∀ (s : State) (e t pd : Nat) (o x : Word), s.issues e t → pd < 8 → s.settled e t (3, pd) →
    let cin := s.carryIn e t pd
    exec (.dadd e t pd o x) s =
      .next (s.triggered e t 6 (0x01 + 256 * pd) (some o)
        { s.opOf e t 6 [(56, (decEval .dadd o x (cin == 1)).r)] with
          preds := predTo pd (decEval .dadd o x (cin == 1)).c
          bi := !isBcd o || !isBcd x }) ∧
    (isBcd o = true → isBcd x = true →
      isBcd (decEval .dadd o x (cin == 1)).r = true ∧
      bcd (decEval .dadd o x (cin == 1)).r = (bcd o + bcd x + cin) % 10 ^ 8 ∧
      (decEval .dadd o x (cin == 1)).c = decide (10 ^ 8 ≤ bcd o + bcd x + cin)) ∧
    exec (.dsub e t pd o x) s =
      .next (s.triggered e t 6 (0x02 + 256 * pd) (some o)
        { s.opOf e t 6 [(56, (decEval .dsub o x (cin == 1)).r)] with
          preds := predTo pd (decEval .dsub o x (cin == 1)).c
          bi := !isBcd o || !isBcd x }) ∧
    (isBcd o = true → isBcd x = true →
      isBcd (decEval .dsub o x (cin == 1)).r = true ∧
      (bcd (decEval .dsub o x (cin == 1)).r : Int) = ((bcd o : Int) - bcd x - cin) % 10 ^ 8 ∧
      (decEval .dsub o x (cin == 1)).c = decide (bcd o < bcd x + cin)) ∧
    exec (.dadj e t pd o x) s =
      .next (s.triggered e t 6 (0x03 + 256 * pd) (some o)
        { s.opOf e t 6 [(56, (decEval .dadj o x (cin == 1)).r)] with
          preds := predTo pd (decEval .dadj o x (cin == 1)).c }) ∧
    ((decEval .dadj o x (cin == 1)).r = (decEval .dadd 0 x (cin == 1)).r ∧
      (decEval .dadj o x (cin == 1)).c = (decEval .dadd 0 x (cin == 1)).c) ∧
    (∃ r : Word, exec (.b2d e t o x) s =
        .next (s.triggered e t 6 0x04 (some o) { s.opOf e t 6 [(56, r)] with
          ov := decide (10 ^ 8 ≤ x.toNat)
          hold := (s.thread e t).precise && (s.thread e t).ovt }) ∧
      isBcd r = true ∧ bcd r = x.toNat % 10 ^ 8) ∧
    exec (.d2b e t o x) s =
      .next (s.triggered e t 6 0x05 (some o)
        { s.opOf e t 6 [(56, w32 (bcd x))] with bi := !isBcd x }) ∧
    exec (.dshl e t o x) s =
      .next (s.triggered e t 6 0x06 (some o)
        (s.opOf e t 6 [(56, o <<< (4 * (x.toNat % 256)))])) ∧
    exec (.dshr e t o x) s =
      .next (s.triggered e t 6 0x07 (some o)
        (s.opOf e t 6 [(56, o >>> (4 * (x.toNat % 256)))]))

/-- LSU loads (04 R151 to R156; 06 R239; 08 R279, R294). -/
def Obligations.LoadsStartOrFault : Prop :=
  ∀ (s : State) (e t u dr ar : Nat) (upd : Bool) (x : Word), s.issues e t → u < 2 → dr < 32 → dr % 2 = 0 → ar < 16 →
    s.settled e t (1, ar) →
    ∀ c ∈ ([(.ldb e t u ar upd x, .ldb, 0x01, 1, 0), (.ldbu e t u ar upd x, .ldbu, 0x02, 1, 0),
            (.ldh e t u ar upd x, .ldh, 0x03, 2, 0), (.ldhu e t u ar upd x, .ldhu, 0x04, 2, 0),
            (.ldw e t u ar upd x, .ldw, 0x05, 4, 0), (.ldd e t u dr ar upd x, .ldd, 0x06, 8, dr)] :
          List (Instr × LsuOp × Nat × Nat × Nat)),
      ((s.ea e t ar x).toNat % c.2.2.2.1 ≠ 0 →
        exec c.1 s = .next (s.withThread e t ((((s.thread e t).setOperands (9 + u)
          (c.2.2.1 + 2 ^ 11 * b01 upd + 2 ^ 12 * ar + 2 ^ 16 * c.2.2.2.2) none).goes).raised 7 c.2.2.2.1 (s.ea e t ar x)))) ∧
      ((s.ea e t ar x).toNat % c.2.2.2.1 = 0 → s.allows e t 1 (s.ea e t ar x) c.2.2.2.1 = false →
        exec c.1 s = .next (s.withThread e t ((((s.thread e t).setOperands (9 + u)
          (c.2.2.1 + 2 ^ 11 * b01 upd + 2 ^ 12 * ar + 2 ^ 16 * c.2.2.2.2) none).goes).raised 6 1 (s.ea e t ar x)))) ∧
      ((s.ea e t ar x).toNat % c.2.2.2.1 = 0 → s.allows e t 1 (s.ea e t ar x) c.2.2.2.1 = true →
        (farAway e c.2.1 (s.ea e t ar x) = false ∨ s.unmarked e t 5 → ∃ n : State, exec c.1 s = .next n ∧
          n.thread e t = (s.lsuTriggered e t u (c.2.2.1 + 2 ^ 11 * b01 upd + 2 ^ 12 * ar + 2 ^ 16 * c.2.2.2.2) none ar
              upd x).startAcc
            { s.accOf e t u c.2.1 (s.ea e t ar x) with
              dr := c.2.2.2.2
              fwd := ((s.thread e t).sbLook (s.ea e t ar x) c.2.2.2.1).1
              after := ((s.thread e t).sbLook (s.ea e t ar x) c.2.2.2.1).2 } ∧
          n.mem = s.mem ∧ n.pending = s.pending ∧ n.eng = s.eng ∧ n.ecc = s.ecc ∧ n.com = s.com ∧ n.live = s.live) ∧
        (farAway e c.2.1 (s.ea e t ar x) = false ∨ s.open.checked (tkey e t) = false →
          (∀ b ∈ (s.thread e t).sbuf, meet (s.ea e t ar x).toNat c.2.2.2.1 b.ea.toNat b.size = false) →
          (∀ a ∈ (s.thread e t).accs, a.op.isAtomic = true →
            meet (s.ea e t ar x).toNat c.2.2.2.1 a.ea.toNat a.op.size = false) →
          exec c.1 s = .next (s.withThread e t ((s.lsuTriggered e t u
              (c.2.2.1 + 2 ^ 11 * b01 upd + 2 ^ 12 * ar + 2 ^ 16 * c.2.2.2.2) none ar upd x).startAcc
            { s.accOf e t u c.2.1 (s.ea e t ar x) with dr := c.2.2.2.2 }))))

/-- LSU stores (04 R151, R152, R156; 06 R237). -/
def Obligations.StoresEnterTheBuffer : Prop :=
  ∀ (s : State) (e t u dr ar : Nat) (upd : Bool) (o x : Word), s.issues e t → u < 2 → dr < 32 → dr % 2 = 0 → ar < 16 →
    s.settled e t (1, ar) → s.settled e t (0, dr) → s.settled e t (0, dr + 1) → (s.thread e t).sbUsed < 8 →
    ∀ c ∈ ([(.stb e t u ar upd o x, some o, 0x10, 1, o.toNat % 2 ^ 8), (.sth e t u ar upd o x, some o, 0x11, 2, o.toNat % 2 ^ 16),
            (.stw e t u ar upd o x, some o, 0x12, 4, o.toNat),
            (.std e t u dr ar upd x, none, 0x13 + 2 ^ 16 * dr, 8, (s.dreg e t dr).toNat + 2 ^ 32 * (s.dreg e t (dr + 1)).toNat)] :
          List (Instr × Option Word × Nat × Nat × Nat)),
      ((s.ea e t ar x).toNat % c.2.2.2.1 ≠ 0 →
        exec c.1 s = .next (s.withThread e t ((((s.thread e t).setOperands (9 + u)
          (c.2.2.1 + 2 ^ 11 * b01 upd + 2 ^ 12 * ar) c.2.1).goes).raised 7 c.2.2.2.1 (s.ea e t ar x)))) ∧
      ((s.ea e t ar x).toNat % c.2.2.2.1 = 0 → s.allows e t 2 (s.ea e t ar x) c.2.2.2.1 = false →
        exec c.1 s = .next (s.withThread e t ((((s.thread e t).setOperands (9 + u)
          (c.2.2.1 + 2 ^ 11 * b01 upd + 2 ^ 12 * ar) c.2.1).goes).raised 6 2 (s.ea e t ar x)))) ∧
      ((s.ea e t ar x).toNat % c.2.2.2.1 = 0 → s.allows e t 2 (s.ea e t ar x) c.2.2.2.1 = true →
        exec c.1 s = .next (s.withThread e t ((s.lsuTriggered e t u
            (c.2.2.1 + 2 ^ 11 * b01 upd + 2 ^ 12 * ar) c.2.1 ar upd x).buffer u (s.ea e t ar x) c.2.2.2.1 c.2.2.2.2
          (s.thread e t).pc)))

/-- LSU atomics (04 R151, R152, R155, R156). -/
def Obligations.AtomicsStartOrFault : Prop :=
  ∀ (s : State) (e t u dr ar : Nat) (o x : Word), s.issues e t → u < 2 → dr < 32 → ar < 16 →
    s.settled e t (1, ar) → s.settled e t (0, dr) → (s.thread e t).sbUsed = 0 →
    ∀ c ∈ ([(.afadd e t u ar o x, .afadd, 0x20, 0), (.aswap e t u ar o x, .aswap, 0x21, 0),
            (.acas e t u dr ar o x, .acas, 0x22, dr)] : List (Instr × LsuOp × Nat × Nat)),
      ((s.ea e t ar x).toNat % 4 ≠ 0 →
        exec c.1 s = .next (s.withThread e t ((((s.thread e t).setOperands (9 + u)
          (c.2.2.1 + 2 ^ 12 * ar + 2 ^ 16 * c.2.2.2) (some o)).goes).raised 7 4 (s.ea e t ar x)))) ∧
      ((s.ea e t ar x).toNat % 4 = 0 →
        (s.allows e t 1 (s.ea e t ar x) 4 && s.allows e t 2 (s.ea e t ar x) 4) = false →
        exec c.1 s = .next (s.withThread e t ((((s.thread e t).setOperands (9 + u)
          (c.2.2.1 + 2 ^ 12 * ar + 2 ^ 16 * c.2.2.2) (some o)).goes).raised 6 3 (s.ea e t ar x)))) ∧
      ((s.ea e t ar x).toNat % 4 = 0 →
        (s.allows e t 1 (s.ea e t ar x) 4 && s.allows e t 2 (s.ea e t ar x) 4) = true →
        (s.open.checked (tkey e t) = false ∨ farAway e c.2.1 (s.ea e t ar x) = false) →
        exec c.1 s = .next (s.withThread e t ((s.lsuTriggered e t u (c.2.2.1 + 2 ^ 12 * ar + 2 ^ 16 * c.2.2.2)
            (some o) ar false x).startAcc
          { s.accOf e t u c.2.1 (s.ea e t ar x) with
            o := o, new := if c.2.1 = .acas then s.dreg e t dr else 0, dr := c.2.2.2 })))

/-- Delivery of a result (02 R43, R48, R77; 04 R165 to R170; 06 R219): the oldest operation of the unit that can complete
does. Its table read lost no cycle in arbitration. -/
def Obligations.ResultsLand : Prop :=
  ∀ (s : State) (e t u lost : Nat) (o : Op) (rest : List Op), s.sys.held = false → thrOk e t = true → u < 14 →
    s.open.frozen e = false → o.tbl = none ∧ lost < 2 ^ 16 ∨ lost = 0 →
    takeFirst (fun f => decide (f.unit = u) && s.open.canEnd (tkey e t) f) (s.thread e t).ops = some (o, rest) →
    (o.err = none → o.recv = none → o.simd = none →
      ∃ n : State, exec (.operationResult e t u lost) s = .next n ∧
        s.sameButThread n e t ∧ n.mem = s.mem ∧
        (∀ i, (n.thread e t).srcSock o.shadow i = lastOf o.srcs i ((s.thread e t).srcSock o.shadow i)) ∧
        (∀ i, (n.thread e t).getD o.shadow i = lastOf o.ds i ((s.thread e t).getD o.shadow i)) ∧
        (∀ i, (n.thread e t).getA o.shadow i = lastOf o.as i ((s.thread e t).getA o.shadow i)) ∧
        (∀ i, (n.thread e t).getP o.shadow i = if i = 0 then true else lastOf o.preds i ((s.thread e t).getP o.shadow i)) ∧
        (∀ i, 24 ≤ i → (n.thread e t).getD (!o.shadow) i = (s.thread e t).getD (!o.shadow) i) ∧
        (∀ i, 12 ≤ i → (n.thread e t).getA (!o.shadow) i = (s.thread e t).getA (!o.shadow) i) ∧
        (∀ i, 4 ≤ i → (n.thread e t).getP (!o.shadow) i = (s.thread e t).getP (!o.shadow) i) ∧
        (n.thread e t).bankOf (!o.shadow) = (s.thread e t).bankOf (!o.shadow) ∧
        n.thread e t =
          { s.thread e t with
            ops := rest
            ov := (s.thread e t).ov || o.ov, dz := (s.thread e t).dz || o.dz, bi := (s.thread e t).bi || o.bi
            excs := (s.thread e t).afterTraps o o.ov o.dz
            d := (n.thread e t).d, dSh := (n.thread e t).dSh, a := (n.thread e t).a, aSh := (n.thread e t).aSh
            p := (n.thread e t).p, pSh := (n.thread e t).pSh, nb := (n.thread e t).nb, sb := (n.thread e t).sb }) ∧
    (∀ st a, o.err = some (st, a) →
      exec (.operationResult e t u lost) s = .next (s.withThread e t
        { s.thread e t with ops := rest, excs := (s.thread e t).busErrOf st a o.seq o.shadow o.origin }))

/-- The accumulator's part of SIMD operations (04 R145 to R148). -/
def Obligations.SimdResultsInTriggerOrder : Prop :=
  ∀ (s : State) (e t : Nat) (o : Op) (rest : List Op) (j : SimdJob), s.sys.held = false → thrOk e t = true →
    s.open.frozen e = false →
    takeFirst (fun f => decide (f.unit = 5) && s.open.canEnd (tkey e t) f) (s.thread e t).ops = some (o, rest) →
    o.err = none → o.recv = none → o.simd = some j → o.srcs = [] → o.preds = [] → o.ds = [] → o.as = [] → o.dz = false →
      ∃ n : State, exec (.operationResult e t 5 0) s = .next n ∧
        s.sameButThread n e t ∧ n.mem = s.mem ∧
        (j.op.isMac = true →
          (∀ i < 8, (n.thread e t).lane j.xa i = BitVec.ofInt 40 (s.macAt e t j i)) ∧
          (∀ q < 4, q ≠ j.xa → ∀ i < 8, (n.thread e t).lane q i = (s.thread e t).lane q i) ∧
          n.thread e t =
            { s.thread e t with
              ops := rest
              x := (n.thread e t).x
              ov := (s.thread e t).ov || (List.range 8).any fun i => outside 40 (s.macAt e t j i)
              bi := (s.thread e t).bi || o.bi
              excs := (s.thread e t).afterTraps o ((List.range 8).any fun i => outside 40 (s.macAt e t j i)) false }) ∧
        (j.op.isMac = false →
          n.thread e t =
            { s.thread e t with
              ops := rest
              d := (n.thread e t).d, dSh := (n.thread e t).dSh, nb := (n.thread e t).nb, sb := (n.thread e t).sb
              ov := (s.thread e t).ov || o.ov, bi := (s.thread e t).bi || o.bi
              excs := (s.thread e t).afterTraps o o.ov false }) ∧
        (j.op = .nars16 → ∀ i, (n.thread e t).getD o.shadow i =
          if 4 * j.qd ≤ i ∧ i < 4 * j.qd + 4 ∧ i ∉ o.taken then
            lanes2 fun h => clamp 16 (s.roundedLane e t j (2 * (i - 4 * j.qd) + h))
          else (s.thread e t).getD o.shadow i) ∧
        (j.op = .nars8 → ∀ i, (n.thread e t).getD o.shadow i =
          if 4 * j.qd ≤ i ∧ i < 4 * j.qd + 2 ∧ i ∉ o.taken then
            lanes4 fun h => clamp 8 (s.roundedLane e t j (4 * (i - 4 * j.qd) + h))
          else (s.thread e t).getD o.shadow i) ∧
        (j.op = .naru8 → ∀ i, (n.thread e t).getD o.shadow i =
          if 4 * j.qd ≤ i ∧ i < 4 * j.qd + 2 ∧ i ∉ o.taken then
            lanes4 fun h => max 0 (min 255 (s.roundedLane e t j (4 * (i - 4 * j.qd) + h)))
          else (s.thread e t).getD o.shadow i) ∧
        (j.op = .xlane → ∀ i, (n.thread e t).srcSock o.shadow i =
          if i = 55 then w32i (clamp 32 ((s.thread e t).lane j.xa (j.t.toNat % 8)).toInt)
          else (s.thread e t).srcSock o.shadow i)

/-- Responses of loads and atomics (04 R151, R153, R157; 06 R219, R238, R239; 09 R330, R365): access `i` of a thread, with
no older one to its target outstanding. -/
def Obligations.LoadsAndAtomicsComplete : Prop :=
  ∀ (s : State) (e t i pa lost : Nat) (a : Acc), s.sys.held = false → thrOk e t = true → i < 2 ^ 16 → lost < 2 ^ 16 →
    (s.thread e t).accs[i]? = some a → a.ea.toNat % a.op.size = 0 →
    (∀ b ∈ (s.thread e t).accs.take i, accTarget e b.ea ≠ accTarget e a.ea) →
    let rest := (s.thread e t).accs.eraseIdx i
    ((s.thread e t).entryIn a = false → a.op.isStore = false →
      (a.op.isAtomic = false → s.open.frozen e = false → (a.fwd.isSome = true ∨ s.reaches e a.ea pa false) →
        ∃ n : State, exec (.loadResponse e t i 0 0) s = .next n ∧ s.sameButThread n e t ∧ n.mem = s.mem ∧
          (∀ i, (n.thread e t).srcSock a.shadow i =
            if i = 61 + a.lsu then loadResult a.op (a.fwd.getD (s.memNat pa a.op.size))
            else (s.thread e t).srcSock a.shadow i) ∧
          (∀ i, (n.thread e t).getD a.shadow i =
            if a.op = .ldd ∧ i = a.dr ∧ a.keep.1 = true then w32 (a.fwd.getD (s.memNat pa 8))
            else if a.op = .ldd ∧ i = a.dr + 1 ∧ a.keep.2 = true then w32 (a.fwd.getD (s.memNat pa 8) / 2 ^ 32)
            else (s.thread e t).getD a.shadow i) ∧
          (∀ i, 24 ≤ i → (n.thread e t).getD (!a.shadow) i = (s.thread e t).getD (!a.shadow) i) ∧
          (n.thread e t).bankOf (!a.shadow) = (s.thread e t).bankOf (!a.shadow) ∧
          n.thread e t =
            { s.thread e t with
              accs := rest
              d := (n.thread e t).d, dSh := (n.thread e t).dSh, nb := (n.thread e t).nb, sb := (n.thread e t).sb }) ∧
      (a.op.isAtomic = false → s.open.frozen e = false → a.fwd = none → s.reaches e a.ea pa false → a.ea.toNat < 0x20000 →
        e < 192 → 0 < lost → s.open.checked (tkey e t) = false →
        ∃ n z : State, exec (.loadResponse e t i 0 lost) s = .next n ∧ exec (.loadResponse e t i 0 0) s = .next z ∧
          n = z.countedBy (edmReg e + 4) lost) ∧
      (a.op.isAtomic = true → a.fwd = none → s.reaches e a.ea pa false → s.reaches e a.ea pa true →
        ∃ n : State, exec (.loadResponse e t i 0 0) s = .next n ∧ s.sameButThread n e t ∧
          s.stored n pa 4
            (match a.op with
             | .afadd => w32 (s.memNat pa 4) + a.o
             | .aswap => a.o
             | _ => if w32 (s.memNat pa 4) = a.o then a.new else w32 (s.memNat pa 4)).toNat ∧
          (∀ i, (n.thread e t).srcSock a.shadow i =
            if i = 61 + a.lsu then w32 (s.memNat pa 4) else (s.thread e t).srcSock a.shadow i) ∧
          (n.thread e t).bankOf (!a.shadow) = (s.thread e t).bankOf (!a.shadow) ∧
          n.thread e t =
            { s.thread e t with accs := rest, nb := (n.thread e t).nb, sb := (n.thread e t).sb }) ∧
      (a.fwd = none → engMap e a.ea.toNat = .none → a.op.isAtomic = true ∨ s.open.frozen e = false →
        exec (.loadResponse e t i 0 0) s = .next (s.withThread e t
          { s.thread e t with
            accs := rest, excs := (s.thread e t).busErrOf .busError a.ea a.seq a.shadow a.origin }))) ∧
    ((s.thread e t).entryIn a = true → s.unmarked e t (if a.op.isAtomic then 6 else 4) →
      ∃ n : State, exec (.loadResponse e t i 0 lost) s = .next n ∧
        n = { s.withThread e t { s.thread e t with
          accs := (s.thread e t).accs.set i { a with froze := !a.op.isAtomic } } with regs := n.regs })

/-- Drains of the store buffer and write-backs of corrected doubles (06 R238, R240; 04 R157; 09 R330, R331, R337, R365):
entry `i` drains, with nothing older to its target outstanding. -/
def Obligations.StoresDrainToMemory : Prop :=
  (∀ (s : State) (e t i pa lost : Nat) (clash : Bool) (b : Store), s.sys.held = false → thrOk e t = true → i < 8 →
    lost < 2 ^ 16 → (s.thread e t).sbuf[i]? = some b →
    (∀ c ∈ (s.thread e t).sbuf.take i, accTarget e c.ea ≠ accTarget e b.ea) →
    (∀ a ∈ (s.thread e t).accs, accTarget e a.ea = accTarget e b.ea → ¬ a.seq < b.seq) →
    let rest := (s.thread e t).sbuf.eraseIdx i
    (b.size ∈ [1, 2, 4, 8] → b.ea.toNat % b.size = 0 → s.reaches e b.ea pa true →
      ∃ n : State, exec (.storeDrain e t i lost clash) s = .next n ∧
        (let own := decide (e < 192 ∧ b.ea.toNat < 0x20000)
         let z := if own = true ∧ lost ≠ 0 then s.countedBy (edmReg e + 4) lost else s
         let y := if own = true ∧ clash = true then z.countedBy (edmReg e) 1 else z
         n = { y.withThread e t { s.thread e t with sbuf := rest } with mem := n.mem }) ∧
        s.stored n pa b.size b.data) ∧
    (engMap e b.ea.toNat = .none →
      exec (.storeDrain e t i 0 false) s = .next (s.withThread e t
        { s.thread e t with
          sbuf := rest, excs := (s.thread e t).busErrOf .busError b.ea b.seq b.shadow b.origin }))) ∧
  (∀ (s : State) (pa : Nat), s.sys.held = false → physOk pa = true → pa / 8 ∈ s.wb → s.open.borrowOf pa = none →
    exec (.eccWriteback pa) s = .next
      { s with
        wb := s.wb.filter fun x => x != pa / 8
        ecc := if s.eccOf pa = 1 then tdel s.ecc (pa / 8) else s.ecc })

/-- Branches (02 R67 to R69, R91; 04 R158, R159; 06 R223). -/
def Obligations.BranchesOpenADelaySlot : Prop :=
  ∀ (s : State) (e t : Nat) (hint wide : Bool) (o x : Word) (imm : Nat), s.plain e t → imm < 65536 →
    (x.toNat % 4 = 0 → x.toNat < 0x8000 → s.lineClean e x.toNat →
      (∃ n : State, exec (.br e t hint x wide) s = .next n ∧ s.issueFrame n e t ∧
        n.thread e t = (s.ctlIssued e t (0x01 + 2 ^ 8 * b01 hint) none wide).branched (n.thread e t) (some x) false
          (true != hint)) ∧
      (∃ n : State, exec (.jl e t hint x wide) s = .next n ∧ s.issueFrame n e t ∧
        n.thread e t = { (s.ctlIssued e t (0x02 + 2 ^ 8 * b01 hint) none wide).branched (n.thread e t) (some x) false
            (true != hint) with
          lk := s.linkFrom e t (s.ctlIssued e t 0x02 none wide) })) ∧
    (x.toNat % 2 = 0 → x.toNat < 0x8000 → s.lineClean e x.toNat →
      ∃ n : State, exec (.enterS e t x wide) s = .next n ∧ s.issueFrame n e t ∧
        n.thread e t = (s.ctlIssued e t 0x09 none wide).branched (n.thread e t) (some x) true true) ∧
    ((x.toNat % 4 ≠ 0 ∨ 0x8000 ≤ x.toNat) →
      ∃ n : State, exec (.br e t hint x wide) s = .next n ∧ s.issueFrame n e t ∧
        n.thread e t = { s.ctlIssued e t (0x01 + 2 ^ 8 * b01 hint) none wide with
          excs := ((s.thread e t).raised 4 0 x).excs }) ∧
    ((x.toNat % 2 ≠ 0 ∨ 0x8000 ≤ x.toNat) →
      ∃ n : State, exec (.enterS e t x wide) s = .next n ∧ s.issueFrame n e t ∧
        n.thread e t = { s.ctlIssued e t 0x09 none wide with excs := ((s.thread e t).raised 4 0 x).excs }) ∧
    ∀ c ∈ ([(.cbrEq e t hint o x imm, 0x03, decide (o = x)), (.cbrNe e t hint o x imm, 0x04, decide (o ≠ x)),
            (.cbrLt e t hint o x imm, 0x05, o.slt x), (.cbrGe e t hint o x imm, 0x06, x.sle o),
            (.cbrLtu e t hint o x imm, 0x07, o.ult x), (.cbrGeu e t hint o x imm, 0x08, x.ule o)] :
          List (Instr × Nat × Bool)),
      ((branchTo (s.thread e t).pc imm).toNat < 0x8000 → s.lineClean e (branchTo (s.thread e t).pc imm).toNat →
        ∃ n : State, exec c.1 s = .next n ∧ s.issueFrame n e t ∧
          n.thread e t = (s.ctlIssued e t (c.2.1 + 2 ^ 8 * b01 hint) (some o) true).branched (n.thread e t)
            (if c.2.2 then some (branchTo (s.thread e t).pc imm) else none) false (c.2.2 != hint)) ∧
      (0x8000 ≤ (branchTo (s.thread e t).pc imm).toNat →
        ∃ n : State, exec c.1 s = .next n ∧ s.issueFrame n e t ∧
          n.thread e t = if c.2.2 then
              { s.ctlIssued e t (c.2.1 + 2 ^ 8 * b01 hint) (some o) true with
                excs := ((s.thread e t).raised 4 0 (branchTo (s.thread e t).pc imm)).excs }
            else
              (s.ctlIssued e t (c.2.1 + 2 ^ 8 * b01 hint) (some o) true).branched (s.thread e t) none false hint)

/-- MFC and MTC (02 R61 to R66; 08 R291, R299). -/
def Obligations.ControlRegistersByRing : Prop :=
  ∀ (s : State) (e t m : Nat) (wide : Bool) (v : Word), s.plain e t → m < 32 →
    (∃ n : State, exec (.mfc e t m wide) s = .next n ∧ s.issueFrame n e t ∧
      n.thread e t =
        if 12 < m then { s.ctlIssued e t (0x10 + 2 ^ 8 * m) none wide with
          excs := ((s.thread e t).raised 3 11 (s.thread e t).pc).excs }
        else if 4 ≤ m ∧ m ≤ 8 ∧ 2 ≤ (s.thread e t).ring then { s.ctlIssued e t (0x10 + 2 ^ 8 * m) none wide with
          excs := ((s.thread e t).raised 5 1 (s.thread e t).pc).excs }
        else
          let y := (s.thread e t).launch (s.opOf e t 11 [(63, s.ctlReg e t m)])
          { s.ctlIssued e t (0x10 + 2 ^ 8 * m) none wide with seq := y.seq, ops := y.ops }) ∧
    (∃ n : State, exec (.mtc e t m v wide) s = .next n ∧
      (m ≠ 12 ∨ 2 ≤ (s.thread e t).ring → s.issueFrame n e t) ∧
      n.thread e t =
        if 12 < m ∨ m = 1 then { s.ctlIssued e t (0x11 + 2 ^ 8 * m) none wide with
          excs := ((s.thread e t).raised 3 11 (s.thread e t).pc).excs }
        else if (4 ≤ m ∧ m ≤ 7 ∧ 2 ≤ (s.thread e t).ring) ∨ (m = 8 ∧ (s.thread e t).ring ≠ 0) ∨
            (m = 9 ∧ (s.thread e t).ring = 3) ∨ ((m = 11 ∨ m = 12) ∧ 2 ≤ (s.thread e t).ring) then
          { s.ctlIssued e t (0x11 + 2 ^ 8 * m) none wide with
            excs := ((s.thread e t).raised 5 1 (s.thread e t).pc).excs }
        else if m = 8 then
          { s.ctlIssued e t (0x11 + 2 ^ 8 * m) none wide with
            gtbase := if v = 0 ∨ v = tget 0 (s.open.en e).ringLive 0x60 then v else (s.thread e t).gtbase }
        else ctlWritten (s.ctlIssued e t (0x11 + 2 ^ 8 * m) none wide) (s.thread e t).ring m v) ∧
    ((s.thread e t).ring ≤ 1 →
      ∃ n : State, exec (.mtc e t 12 v wide) s = .next n ∧ n.mem = s.mem ∧
        n.thr = ((s.slotTaken e t).withThread e t (n.thread e t)).thr ∧
        n.eng = tset s.eng e
          (if v.getLsbD 0 && [1, 2, 3].any fun j => decide ((s.thread e j).run ≠ .stopped) && !(s.thread e j).halted then
            { s.open.en e with last := t }
          else { s.open.en e with last := t, strict := v.getLsbD 0, exposed := v.getLsbD 1 }))

/-- TSTART and TSTOP (02 R81 to R83). -/
def Obligations.ThreadsStartAndStop : Prop :=
  ∀ (s : State) (e t : Nat) (wide : Bool) (o x : Word), s.plain e t →
    ((s.thread e t).ring ≤ 1 → o.toNat % 4 ≠ t → s.noJob (tkey e (o.toNat % 4)) →
      (s.open.en e).strict = false ∨ o.toNat % 4 = 0 →
      (∃ n : State, exec (.tstart e t o x wide) s = .next n ∧ n.mem = s.mem ∧ n.disp = s.disp ∧ n.weir = s.weir ∧
        (∀ j, j ≠ tkey e t → j ≠ tkey e (o.toNat % 4) → n.open.th j = (s.slotTaken e t).open.th j) ∧
        n.thread e t = s.ctlIssued e t 0x12 (some o) wide ∧
        n.thread e (o.toNat % 4) =
          if (s.thread e (o.toNat % 4)).run = .stopped ∧ (s.thread e (o.toNat % 4)).halted = false then
            { s.thread e (o.toNat % 4) with
              run := .ready, pc := x, ring := (s.thread e t).ring, stk := false, shadow := false, ie := false
              dfault := false, rpt := 0, latch := none, br := none, fence := none, under := [], oneMore := false
              front := [], bub := 0, hvSeen := false, rcLeft := 0, rcRing := (s.thread e t).ring, wdFrom := s.open.now, startIn := s.weir.period }
          else (s.slotTaken e t).thread e (o.toNat % 4))) ∧
    ((s.thread e t).ring ≤ 1 → (s.open.en e).strict = true → o.toNat % 4 ≠ 0 →
      ∃ n : State, exec (.tstart e t o x wide) s = .next n ∧ s.issueFrame n e t ∧
        n.thread e t = { s.ctlIssued e t 0x12 (some o) wide with
          excs := ((s.thread e t).raised 3 11 (s.thread e t).pc).excs }) ∧
    ((s.thread e t).ring ≤ 1 → x.toNat % 4 ≠ t → s.noJob (tkey e (x.toNat % 4)) →
      ∃ n : State, exec (.tstop e t x wide) s = .next n ∧ n.mem = s.mem ∧ n.disp = s.disp ∧ n.weir = s.weir ∧
        (∀ j, j ≠ tkey e t → j ≠ tkey e (x.toNat % 4) → n.open.th j = (s.slotTaken e t).open.th j) ∧
        n.thread e t = s.ctlIssued e t 0x13 none wide ∧
        n.thread e (x.toNat % 4) =
          let y := (s.slotTaken e t).thread e (x.toNat % 4)
          if y.run = .stopped then y else { y with run := .stopped, dfault := false }) ∧
    ((s.thread e t).ring ≤ 1 → s.noJob (tkey e t) → x.toNat % 4 = t →
      ∃ n : State, exec (.tstop e t x wide) s = .next n ∧ s.issueFrame n e t ∧
        n.thread e t = { s.ctlIssued e t 0x13 none wide with run := .stopped, dfault := false }) ∧
    (2 ≤ (s.thread e t).ring →
      (∃ n : State, exec (.tstart e t o x wide) s = .next n ∧ s.issueFrame n e t ∧
        n.thread e t = { s.ctlIssued e t 0x12 (some o) wide with
          excs := ((s.thread e t).raised 5 2 (s.thread e t).pc).excs }) ∧
      ∃ n : State, exec (.tstop e t x wide) s = .next n ∧ s.issueFrame n e t ∧
        n.thread e t = { s.ctlIssued e t 0x13 none wide with
          excs := ((s.thread e t).raised 5 2 (s.thread e t).pc).excs })

/-- Fences and IFLUSH (04 R161 to R163, R168; 06 R228, R243): whatever a held thread would issue waits. -/
def Obligations.FencesHoldTheThread : Prop :=
  ∀ (s : State) (e t u ar : Nat) (wide upd parity : Bool) (o x : Word),
    (s.plain e t →
      (∃ n : State, exec (.syncM e t wide) s = .next n ∧ s.issueFrame n e t ∧
        n.thread e t = { s.ctlIssued e t 0x21 none wide with fence := some .mem }) ∧
      (∃ n : State, exec (.fenceA e t wide) s = .next n ∧ s.issueFrame n e t ∧
        n.thread e t = { s.ctlIssued e t 0x22 none wide with fence := some .arith }) ∧
      (s.codeClean e →
        ∃ n : State, exec (.iflush e t x wide) s = .next n ∧ n.mem = s.mem ∧
        (∀ j, j / 4 ≠ e → n.open.th j = s.open.th j) ∧
        (∀ j < 4, j ≠ t → n.thread e j = ((s.slotTaken e t).thread e j).unlined x) ∧
        n.thread e t = (s.ctlIssued e t 0x20 none wide).frontOf (n.thread e t) ∧
        (∀ z ∈ (n.thread e t).front, z.addr.toNat / 64 = x.toNat / 64 →
          z.words = (List.range z.words.length).map fun i => s.wordAt (imemBase e + z.addr.toNat + 4 * i)) ∧
        ((s.ctlIssued e t 0x20 none wide).pc.toNat < 0x8000 →
          ∀ z ∈ (n.thread e t).front.head?, z.addr = (s.ctlIssued e t 0x20 none wide).pc))) ∧
    (s.sys.held = false → thrOk e t = true → s.open.mayIssue (tkey e t) = true → s.open.notTurn (tkey e t) = false →
      (s.thread e t).excDue = false → (s.thread e t).stk = false → s.unwatched e t → u < 2 → ar < 16 →
      ((s.thread e t).fence = some .mem ∧ ((s.thread e t).accs ≠ [] ∨ (s.thread e t).sbuf ≠ [])) ∨
        ((s.thread e t).fence = some .arith ∧ ∃ f ∈ (s.thread e t).ops, f.unit ∈ [0, 1, 3, 4, 5, 6]) ∨
        (∃ f ∈ (s.thread e t).ops, f.hold = true) →
      ∀ c ∈ [Instr.syncM e t wide, .and e t u o x, .ldw e t u ar upd x, .stw e t u ar upd o x, .hash e t x,
             .bundleIssue e t parity 0],
        exec c s = .next (s.waiting e t (s.thread e t)))

/-- GATE and RETG (08 R287, R290). `en`, `st` and `fr` are the physical addresses of the gate entry, the stack word
and the frame, `rg` that of the range table. -/
def Obligations.GatesEnterAndReturn : Prop :=
  ∀ (s : State) (e t g en rg st fr : Nat) (wide : Bool), s.plain e t → (s.thread e t).ring < 4 → g < 256 →
    (s.thread e t).accs = [] → (s.thread e t).sbuf = [] →
    (∀ i < 4, s.settled e t (0, i)) → s.settled e t (1, 15) →
    let x := s.thread e t
    let tab := (s.open.en e).ringLive
    (x.gtbase = 0 ∨ (tget 0 tab 0x64).toNat ≤ g →
      ∃ n : State, exec (.gate e t g wide) s = .next n ∧ s.gateFrame n e t ∧ n.mem = s.mem ∧
        n.thread e t = { s.ctlIssued e t (0x18 + 2 ^ 8 * g) none wide with excs := (x.raised 9 1 x.pc).excs }) ∧
    (x.gtbase ≠ 0 → g < (tget 0 tab 0x64).toNat → s.spans e (tget 0 tab 0x60 + w32 (16 * g)) 16 en false →
      ((s.wordAt (en + 4)).getLsbD 31 = false →
        ∃ n : State, exec (.gate e t g wide) s = .next n ∧ s.gateFrame n e t ∧ n.mem = s.mem ∧
          n.thread e t = { s.ctlIssued e t (0x18 + 2 ^ 8 * g) none wide with excs := (x.raised 9 1 x.pc).excs }) ∧
      ((s.wordAt (en + 4)).getLsbD 31 = true → (s.wordAt (en + 12)).getLsbD x.ring = false →
        ∃ n : State, exec (.gate e t g wide) s = .next n ∧ s.gateFrame n e t ∧ n.mem = s.mem ∧
          n.thread e t = { s.ctlIssued e t (0x18 + 2 ^ 8 * g) none wide with excs := (x.raised 9 2 x.pc).excs }) ∧
      ((s.wordAt (en + 4)).getLsbD 31 = true → (s.wordAt (en + 12)).getLsbD x.ring = true →
        (∀ i < min 4 ((s.wordAt (en + 4)).toNat / 4 % 8),
          s.gateArgPasses e t (s.wordAt (en + 4)) (s.wordAt (en + 8)) rg i = true ∧
          ((s.wordAt (en + 4)).toNat / 2 ^ (8 + 2 * i) % 4 = 1 →
            s.spans e (tget 0 tab 0x68 + w32 (8 * ((s.wordAt (en + 8)).toNat / 2 ^ (8 * i) % 256))) 8
              (rg + 8 * ((s.wordAt (en + 8)).toNat / 2 ^ (8 * i) % 256)) false)) →
        s.spans e (tget 0 tab 0x70 + w32 (4 * (4 * t + (s.wordAt (en + 4)).toNat % 4))) 4 st false →
        (s.wordAt st - 16).toNat % 8 = 0 → s.spans e (s.wordAt st - 16) 16 fr true →
        ∃ n : State, exec (.gate e t g wide) s = .next n ∧ s.gateFrame n e t ∧
          s.stored n fr 16
            ((s.ctlIssued e t 0 none wide).pc.toNat + 2 ^ 32 * (s.areg e t 15).toNat + 2 ^ 64 * (s.ctlReg e t 0).toNat +
              2 ^ 96 * (0x47540000 + 2 ^ 8 * x.ring + g)) ∧
          (e < 192 → n.open.rg (rngReg e + 0x108) = satAdd (s.open.rg (rngReg e + 0x108)) 1) ∧
          n.thread e t = { ((s.ctlIssued e t (0x18 + 2 ^ 8 * g) none wide).setA x.shadow 15 (s.wordAt st - 16)) with
            ring := (s.wordAt (en + 4)).toNat % 4
            ie := x.ie && (s.wordAt (en + 12)).getLsbD 8
            pc := s.wordAt en, front := [], rcLeft := 2, rcRing := x.ring })) ∧
    ((s.areg e t 15).toNat % 8 ≠ 0 →
      ∃ n : State, exec (.retg e t wide) s = .next n ∧ s.issueFrame n e t ∧
        n.thread e t = { s.ctlIssued e t 0x19 none wide with excs := (x.raised 5 4 x.pc).excs }) ∧
    ((s.areg e t 15).toNat % 8 = 0 → s.allows e t 1 (s.areg e t 15) 16 = true → s.spans e (s.areg e t 15) 16 fr false →
      (s.memNat (fr + 14) 2 ≠ 0x4754 ∨ (s.wordAt (fr + 8)).toNat / 2 ^ 30 < x.ring →
        ∃ n : State, exec (.retg e t wide) s = .next n ∧ s.issueFrame n e t ∧
          n.thread e t = { s.ctlIssued e t 0x19 none wide with excs := (x.raised 5 4 x.pc).excs }) ∧
      (s.memNat (fr + 14) 2 = 0x4754 → x.ring ≤ (s.wordAt (fr + 8)).toNat / 2 ^ 30 →
        ∃ n : State, exec (.retg e t wide) s = .next n ∧ s.issueFrame n e t ∧
          n.thread e t = { ((s.ctlIssued e t 0x19 none wide).setA x.shadow 15 (s.wordAt (fr + 4))) with
            ring := (s.wordAt (fr + 8)).toNat / 2 ^ 30
            ie := if x.ring ≤ 2 then (s.wordAt (fr + 8)).getLsbD 23 else x.ie
            precise := (s.wordAt (fr + 8)).getLsbD 24, ovt := (s.wordAt (fr + 8)).getLsbD 22
            dzt := (s.wordAt (fr + 8)).getLsbD 21
            nest := if x.ring ≤ 1 then (s.wordAt (fr + 8)).getLsbD 25 else x.nest
            pc := s.wordAt fr, front := [], rcLeft := 2, rcRing := x.ring }))

/-- RETX (08 R304, R305, R318). -/
def Obligations.ExceptionReturns : Prop :=
  ∀ (s : State) (e t fr : Nat) (wide : Bool), s.plain e t → (s.thread e t).ring < 4 →
    s.settled e t (1, 15) → (s.thread e t).accs = [] → (s.thread e t).sbuf = [] →
    let x := s.thread e t
    let k := tkey e t
    let z := s.withThread e t (s.ctlIssued e t 0x1A none wide)
    (x.shadow = true → x.ring ≤ x.sst.toNat / 2 ^ 30 →
      ∃ n : State, exec (.retx e t wide) s = .next n ∧ s.issueFrame n e t ∧
        n.thread e t = returned (s.ctlIssued e t 0x1A none wide) x.spc x.sst x.srpt
          (z.open.widthAt k x.spc.toNat (x.sst.getLsbD 26))) ∧
    (x.shadow = true → x.sst.toNat / 2 ^ 30 < x.ring →
      ∃ n : State, exec (.retx e t wide) s = .next n ∧ s.issueFrame n e t ∧
        n.thread e t = { s.ctlIssued e t 0x1A none wide with excs := (x.raised 5 3 x.pc).excs }) ∧
    (x.shadow = false → x.nest = false →
      ∃ n : State, exec (.retx e t wide) s = .next n ∧ s.issueFrame n e t ∧
        n.thread e t = { s.ctlIssued e t 0x1A none wide with excs := (x.raised 3 11 x.pc).excs }) ∧
    (x.shadow = false → x.nest = true → (s.areg e t 15).toNat % 8 = 0 → s.allows e t 1 (s.areg e t 15) 32 = true →
      s.spans e (s.areg e t 15) 12 fr false →
      ∃ n : State, exec (.retx e t wide) s = .next n ∧ s.issueFrame n e t ∧
        n.thread e t =
          if (s.wordAt (fr + 4)).toNat / 2 ^ 30 < x.ring then
            { s.ctlIssued e t 0x1A none wide with excs := (x.raised 5 3 x.pc).excs }
          else
            returned ((s.ctlIssued e t 0x1A none wide).setA false 15 (s.areg e t 15 + 32)) (s.wordAt fr)
              (s.wordAt (fr + 4)) (s.wordAt (fr + 8))
              (z.open.widthAt k (s.wordAt fr).toNat ((s.wordAt (fr + 4)).getLsbD 26)))

/-- CRV and SEQ (05 R184 to R187, R193, R194, R204). -/
def Obligations.CurvesSequencesAndBeats : Prop :=
  ∀ (s : State) (e t i pd kd g : Nat) (o x : Word) (r : TabRef), s.issues e t → e < 192 → i < 16 → pd < 8 → kd < 4 →
    (((s.open.en e).slot i).live = none →
      exec (.eval e t i x) s =
        .next (s.withThread e t ((s.taken e t 7 (0x01 + 2 ^ 8 * i) none).raised 3 7 (s.thread e t).pc))) ∧
    (((s.open.en e).slot i).live = some r →
      let base := physOf e r.addr.toNat
      let xm := x.toNat % r.span
      let wd := (if g + 1 < r.n1 then (s.wordAt (base + 0x40 + 32 * (g + 1))).toNat else r.span) -
        (s.wordAt (base + 0x40 + 32 * g)).toNat
      let off := xm - (s.wordAt (base + 0x40 + 32 * g)).toNat
      let pa := base + 0x40 + 32 * g
      g < r.n1 → (s.wordAt pa).toNat ≤ xm → xm < r.span →
      (∀ j < r.n1, g < j → xm < (s.wordAt (base + 0x40 + 32 * j)).toNat) → s.clean e pa 32 →
      exec (.eval e t i x) s =
        .next { s.triggered e t 7 (0x01 + 2 ^ 8 * i) none
            { s.opOf e t 7 [(57, roundW (s.curveP pa wd off)), (58, roundW (s.curveV pa wd off)),
                (59, roundW (s.curveA pa wd off))] with tbl := some (base, r.len) } with
          regs := if outside 32 (roundQ (s.curveP pa wd off)) || outside 32 (roundQ (s.curveV pa wd off)) ||
              outside 32 (roundQ (s.curveA pa wd off)) then
            tset s.regs (tblReg e + 0x44) (satAdd (s.open.rg (tblReg e + 0x44)) 1) else s.regs }) ∧
    (((s.open.en e).slot (16 + i)).live = none →
      exec (.step e t i pd o x) s =
        .next (s.withThread e t ((s.taken e t 8 (0x01 + 2 ^ 8 * i + 2 ^ 12 * pd) (some o)).raised 3 8 (s.thread e t).pc))) ∧
    (((s.open.en e).slot (16 + i)).live = some r →
      let st := o.toNat % 256
      let cl := x.toNat % 64
      let pe := physOf e (r.addr.toNat + 0x20 + 8 * (st * r.n2 + cl))
      let f := fun (v : Nat) (taken : Bool) (aw : List (Nat × Word)) =>
        s.triggered e t 8 (0x01 + 2 ^ 8 * i + 2 ^ 12 * pd) (some o)
          { s.opOf e t 8 ((60, w32 v) :: aw) with
            preds := predTo pd taken, tbl := some (physOf e r.addr.toNat, r.len) }
      (r.n1 ≤ st ∨ r.n2 ≤ cl →
        exec (.step e t i pd o x) s =
          .next { f (st + 2 ^ 10) false [] with
            regs := tset s.regs (tblReg e + 0x48) (satAdd (s.open.rg (tblReg e + 0x48)) 1) }) ∧
      (st < r.n1 → cl < r.n2 → s.clean e pe 8 → s.settled e t (3, s.memNat (pe + 1) 1 % 8) →
        exec (.step e t i pd o x) s =
          .next (if (s.wordAt pe).getLsbD 31 = false then
              { f (st + 2 ^ 9) false [] with
                regs := tset s.regs (tblReg e + 0x48) (satAdd (s.open.rg (tblReg e + 0x48)) 1) }
            else if s.preg e t (s.memNat (pe + 1) 1 % 8) = (s.wordAt pe).getLsbD 11 then f st false []
            else f (s.memNat pe 1 + 2 ^ 8) true [(102, s.wordAt (pe + 4))]))) ∧
    exec (.tbla e t i kd) s =
      .next (if kd < 2 ∨ (kd = 2 ∧ i < 8) then
        s.triggered e t 8 (0x02 + 2 ^ 8 * i + 2 ^ 16 * kd) none
          (s.opOf e t 8 [(60, (((s.open.en e).slot (16 * kd + i)).live.map (·.addr)).getD 0)])
      else s.withThread e t ((s.taken e t 8 (0x02 + 2 ^ 8 * i + 2 ^ 16 * kd) none).raised 3 8 (s.thread e t).pc)) ∧
    (∃ n : State, exec (.beat e t i x) s = .next n ∧
      let hi := x.toNat / 2 ^ 16
      let wrap := (tfind (s.open.en e).bgLast i).any fun l =>
        decide (1 ≤ (hi + 2 ^ 16 - l) % 2 ^ 16) && decide ((hi + 2 ^ 16 - l) % 2 ^ 16 ≤ 0x7FFF)
      let swaps := fun k => wrap && decide (k < 40) && ((s.open.en e).slot k).pending s.open.now &&
        decide (((s.open.en e).slot k).bg = i)
      let cnt := (List.range 40).countP swaps
      (n.open.en e).bgLast = tset (s.open.en e).bgLast i hi ∧
      (∀ k, (n.open.en e).slot k = if swaps k then
          { (s.open.en e).slot k with live := ((s.open.en e).slot k).armed, armed := none, held := false, rel := none }
        else (s.open.en e).slot k) ∧
      (∀ j, j ≠ e → n.open.en j = s.open.en j) ∧ n.mem = s.mem ∧
      (∃ p v : Word, n.thread e t = (s.taken e t 7 (0x02 + 2 ^ 12 * i) none).launch
          (s.opOf e t 7 [(57, p), (58, v), (59, 0)]) ∧
        (∀ k < 32, p.getLsbD k = swaps k) ∧ (∀ k < 31, v.getLsbD k = swaps (32 + k)) ∧ v.getLsbD 31 = wrap) ∧
      n = { s.withThread e t (n.thread e t) with
        eng := n.eng
        regs := if cnt = 0 then s.regs else
          tset (tset (tset s.regs (tblReg e + 0x34) (s.open.rg (tblReg e + 0x34) + w32 cnt))
            (tblReg e + 0x38) (w32 s.open.now)) (tblReg e + 0x3C) (w32 (s.open.now / 2 ^ 32)) })

/-- NET (10 R369, R373, R374): `m ++ f :: l` are the flits of the receive channel, `f` the first last one. -/
def Obligations.NetChannelsMoveFlits : Prop :=
  ∀ (s : State) (e t ch q pd c : Nat) (x : Word) (m l : List Flit) (f : Flit) (w : List (Nat × Flit)) (g : Flit),
    s.issues e t → ch < 4 → q < 8 → pd < 8 →
    let sent : Flit := { data := s.quadOf e t q, last := x.getLsbD 0 }
    let fired := s.taken e t 12 (1 + 2 ^ 8 * q + 2 ^ 12 * ch) none
    (s.quadSettled e t q →
      (tget [] s.net.sluice e = [] → s.open.chanDiked (engChan e ch).1 (engChan e ch).2 = false →
        (s.txOf e ch).length < 32 →
        (s.open.bindOf (engChan e ch).1 (engChan e ch).2).isSome ∨ firstMsg (s.txOf e ch ++ [sent]) = none →
        exec (.send e t ch q x) s =
          .next { s.withThread e t fired with
            net := { s.net with sluice := tset s.net.sluice e []
                                tx := tset s.net.tx (chanKey e ch) (s.txOf e ch ++ [sent]) } }) ∧
      (tget [] s.net.sluice e = [] → 32 ≤ (s.txOf e ch).length →
        exec (.send e t ch q x) s =
          .next { s.withThread e t fired with net := { s.net with sluice := tset s.net.sluice e [(ch, sent)] } }) ∧
      (tget [] s.net.sluice e = (c, g) :: w → w.length < 7 → 32 ≤ (s.txOf e c).length →
        exec (.send e t ch q x) s =
          .next { s.withThread e t fired with
            net := { s.net with sluice := tset s.net.sluice e ((c, g) :: w ++ [(ch, sent)]) } })) ∧
    (8 ≤ (tget [] s.net.sluice e).length → s.unwatched e t →
      exec (.send e t ch q x) s = .next (s.waiting e t (s.thread e t))) ∧
    (s.settled e t (3, pd) →
      ((∀ j < 4, ∀ o ∈ (s.thread e j).ops, o.recv.map (·.1) ≠ some ch) →
        (s.rxOf e ch = f :: l →
          exec (.recv e t ch pd) s =
            .next { s.triggered e t 12 (2 + 2 ^ 8 * pd + 2 ^ 12 * ch) none
                { s.opOf e t 12 ((List.range 4).map fun i => (107 + i, w32 (f.data / 2 ^ (32 * i)))) with
                  preds := [(pd, f.last)], every := true } with
              net := { s.net with rx := tset s.net.rx (chanKey e ch) l } }) ∧
        (s.rxOf e ch = [] →
          exec (.recv e t ch pd) s =
            .next (s.triggered e t 12 (2 + 2 ^ 8 * pd + 2 ^ 12 * ch) none
              { s.opOf e t 12 [] with recv := some (ch, pd), every := true }))) ∧
      exec (.rpoll e t ch pd) s =
        .next (s.triggered e t 12 (3 + 2 ^ 8 * pd + 2 ^ 12 * ch) none
          { s.opOf e t 12 [] with preds := [(pd, (s.rxOf e ch).any (·.last))] })) ∧
    ((∀ h ∈ m, h.last = false) → s.rxOf e ch = m ++ f :: l → f.last = true →
      exec (.rskip e t ch) s =
        .next { s.withThread e t (s.taken e t 12 (4 + 2 ^ 12 * ch) none) with
          net := { s.net with rx := tset s.net.rx (chanKey e ch) l } }) ∧
    ((∀ h ∈ s.rxOf e ch, h.last = false) →
      exec (.rskip e t ch) s = .next (s.withThread e t (s.taken e t 12 (4 + 2 ^ 12 * ch) none)))

/-- EVQ (12 R455, R456; 14 R540). -/
def Obligations.EventQueuesServeTheirThreads : Prop :=
  ∀ (s : State) (e t pd dr : Nat) (x : Word) (r : EvRec) (q : List EvRec) (d : Nat) (sh : Bool),
    pd < 8 → dr < 32 →
    let took := fun (code : Nat) =>
      (s.withThread e t ({ (s.thread e t).setOperands 13 code none with evq := q }.goes.launch
        { s.opOf e t 13 ((List.range 4).map fun i => (103 + i, r.words.getD i 0)) with
          preds := [(pd, true)], every := true })).kicked e t
    (s.issues e t → s.settled e t (3, pd) →
      ((s.thread e t).evq = r :: q →
        exec (.take e t pd) s = .next (took (1 + 2 ^ 8 * pd)) ∧
        exec (.wait e t pd x) s = .next (took (2 + 2 ^ 8 * pd))) ∧
      ((s.thread e t).evq = [] →
        exec (.take e t pd) s =
          .next ((s.triggered e t 13 (1 + 2 ^ 8 * pd) none { s.opOf e t 13 [] with preds := [(pd, false)], every := true }).kicked e t) ∧
        exec (.wait e t pd x) s =
          .next (s.withThread e t { (s.taken e t 13 (2 + 2 ^ 8 * pd) none).claim (s.thread e t).shadow (3, pd) with
            run := .waiting
            wait := some { deadline := if x = 0 then none else some (s.open.now + x.toNat), pd := pd
                           shadow := (s.thread e t).shadow } })) ∧
      exec (.poll e t pd) s =
        .next ((s.triggered e t 13 (3 + 2 ^ 8 * pd) none
          { s.opOf e t 13 [] with preds := [(pd, decide ((s.thread e t).evq ≠ []))] }).kicked e t)) ∧
    (s.issues e t → s.settled e t (0, dr) →
      exec (.ring e t dr x) s =
        .next (((s.withThread e t (s.taken e t 13 (4 + 2 ^ 16 * dr) none)).withEvent (0x640 + x.toNat % 256)
          (s.dreg e t dr).toNat s.open.now).kicked e t)) ∧
    (s.sys.held = false → thrOk e t = true → (s.thread e t).run = .waiting → (s.thread e t).evq = [] →
      (s.thread e t).wait = some { deadline := some d, pd := pd, shadow := sh } →
      exec (.evqWaitTimeout e t) s =
        .next ({ s.withThread e t ({ s.thread e t with wait := none, run := .ready }.setP sh pd false) with
          tide := { s.tide with count := max s.open.now d } }.kicked e t))

/-- HV and UX (03 R114 to R120; 15 R594). -/
def Obligations.HashVerifyAndExternalUnits : Prop :=
  (∀ (s : State) (e t : Nat) (block : Word), s.issues e t →
    let y := ((s.thread e t).setDst (s.thread e t).shadow 56 block).goes
    let busy := (tget [] s.hv (e / 8)).any fun j => decide (j.key = tkey e t)
    let queued := fun (cmd : Nat) => { s.withThread e t y with
      hv := tset s.hv (e / 8) (tget [] s.hv (e / 8) ++
        [{ key := tkey e t, shadow := (s.thread e t).shadow, ring := (s.thread e t).ring, cmd := cmd, block := block }]) }
    let refused := s.withThread e t (y.raised 3 14 (s.thread e t).pc)
    let waits := s.waiting e t (s.thread e t)
    (busy = false → (s.open.en e).strict = false →
      exec (.hash e t block) s = .next (queued 1) ∧ exec (.verify e t block) s = .next (queued 2) ∧
      exec (.hashVerify e t block) s = .next (queued 3)) ∧
    (busy = false → (s.open.en e).strict = true →
      exec (.hash e t block) s = .next refused ∧ exec (.verify e t block) s = .next refused ∧
      exec (.hashVerify e t block) s = .next refused) ∧
    (busy = true → s.unwatched e t →
      exec (.hash e t block) s = .next waits ∧ exec (.verify e t block) s = .next waits ∧
      exec (.hashVerify e t block) s = .next waits)) ∧
  (∀ (s : State) (p : Nat) (j : HvJob) (r : List HvJob) (pb pm pd pk pg : Nat),
    s.sys.held = false → p ≤ 24 → tget [] s.hv p = j :: r → j.cmd = 1 ∨ j.cmd = 2 ∨ j.cmd = 3 →
    let arg := fun (i : Nat) => (s.wordAt (pb + 4 * i)).toNat
    let digest := sha256 (s.bytesAt pm (arg 1))
    (j.block.toNat % 4 ≠ 0 → exec (.hvJobComplete p) s = .next (s.hvDone p j r .busError)) ∧
    (j.block.toNat % 4 = 0 → s.jobSees j 1 j.block.toNat 20 pb →
      (j.cmd = 1 → s.jobSees j 1 (arg 0) (arg 1) pm → s.jobSees j 2 (arg 2) 32 pd →
        ∃ n : State, exec (.hvJobComplete p) s = .next n ∧ n = { s.hvDone p j r .ok with mem := n.mem } ∧
          ∀ a, n.mem.read a = if pd ≤ a ∧ a < pd + 32 then digest.getD (a - pd) 0 else s.mem.read a) ∧
      (j.cmd = 2 → s.jobSees j 1 (arg 2) 32 pd → s.jobSees j 1 (arg 3) 64 pk → s.jobSees j 1 (arg 4) 64 pg →
        exec (.hvJobComplete p) s = .next (s.hvDone p j r
          (if ecVerify (s.bytesAt pk 64) (s.bytesAt pd 32) (s.bytesAt pg 64) then .ok else .imageSignature))) ∧
      (j.cmd = 3 → s.jobSees j 1 (arg 0) (arg 1) pm → s.jobSees j 2 (arg 2) 32 pd → s.jobSees j 1 (arg 2) 32 pd →
        s.jobSees j 1 (arg 3) 64 pk → s.jobSees j 1 (arg 4) 64 pg →
        ∃ n : State, exec (.hvJobComplete p) s = .next n ∧
          n = { s.hvDone p j r (if ecVerify (n.bytesAt pk 64) digest (n.bytesAt pg 64) then .ok else .imageSignature) with
            mem := n.mem } ∧
          ∀ a, n.mem.read a = if pd ≤ a ∧ a < pd + 32 then digest.getD (a - pd) 0 else s.mem.read a))) ∧
  (∀ (s : State) (e t u : Nat) (x : Word) (ws : List Word), s.issues e t → u < 6 → ws.length < 4 →
    let had := (s.thread e t).uxWords u
    let bank := (s.thread e t).bankOf (s.thread e t).shadow
    (s.open.uxHere u = false →
      exec (.uxOperation e t u (x :: ws)) s = .next (s.withThread e t ((s.thread e t).raised 2 0 (s.thread e t).pc))) ∧
    (s.open.uxHere u = true →
      (had.length + 1 + ws.length < s.annex.words u →
        exec (.uxOperation e t u (x :: ws)) s =
          .next (s.withThread e t ((s.thread e t).goes.setBank (s.thread e t).shadow
            { bank with ux := tset bank.ux u (had ++ x :: ws) }))) ∧
      (had.length + 1 + ws.length = s.annex.words u → 0 < s.annex.held u →
        exec (.uxOperation e t u (x :: ws)) s =
          .next { s.withThread e t { (s.thread e t).goes.setBank (s.thread e t).shadow
                    { bank with ux := tset bank.ux u [] } with seq := (s.thread e t).seq + 1 } with
            annex := { s.annex with
              cred := tset s.annex.cred u (s.annex.held u - 1)
              ops := s.annex.ops ++ [{ unit := u, key := tkey e t, shadow := (s.thread e t).shadow
                                       seq := (s.thread e t).seq, words := had ++ x :: ws }] } })))

/-- Stack-mode computation (02 R86, R87, R92; 03 R123). -/
def Obligations.StackArithmeticAndShuffles : Prop :=
  ∀ (s : State) (e t pa c h0 h1 : Nat), c < 4096 →
    s.stackRuns e t pa (.stkPushs e t) c 0 (fun _ => [(BitVec.ofNat 12 c).signExtend 32]) ∧
    (s.stacked e t 0x1000 → (s.thread e t).pc.toNat % 64 < 60 →
      s.halfAt e t ((s.thread e t).pc.toNat + 2) = some h0 → s.halfAt e t ((s.thread e t).pc.toNat + 4) = some h1 →
      s.stackReady e t 0 [w32 (h0 + 2 ^ 16 * h1)] pa →
      ∃ m : State, exec (.stkPushw e t) s = .next m ∧ s.stackFrame m e t 0 [w32 (h0 + 2 ^ 16 * h1)] pa ∧
        m.thread e t = s.stkIssued e t 6 (restacked (s.thread e t) 0 [w32 (h0 + 2 ^ 16 * h1)])) ∧
    s.stackAlu e t pa (.stkAdd e t) 0x3001 (· + ·) (fun a b => outside 32 (a.toInt + b.toInt)) ∧
    s.stackAlu e t pa (.stkSub e t) 0x3002 (· - ·) (fun a b => outside 32 (a.toInt - b.toInt)) ∧
    s.stackAlu e t pa (.stkAnd e t) 0x3003 (· &&& ·) ∧
    s.stackAlu e t pa (.stkOr e t) 0x3004 (· ||| ·) ∧
    s.stackAlu e t pa (.stkXor e t) 0x3005 (· ^^^ ·) ∧
    s.stackAlu e t pa (.stkShl e t) 0x3006 (fun a b => a <<< (b.toNat % 256)) ∧
    s.stackAlu e t pa (.stkShr e t) 0x3007 (fun a b => a >>> (b.toNat % 256)) ∧
    s.stackAlu e t pa (.stkSar e t) 0x3008 (fun a b => a.sshiftRight (b.toNat % 256)) ∧
    s.stackAlu e t pa (.stkRol e t) 0x3009 (fun a b => a.rotateLeft (b.toNat % 32)) ∧
    s.stackAlu e t pa (.stkMin e t) 0x300A (fun a b => if a.slt b then a else b) ∧
    s.stackAlu e t pa (.stkMax e t) 0x300B (fun a b => if a.slt b then b else a) ∧
    s.stackAlu e t pa (.stkEq e t) 0x300C (fun a b => if a = b then 1 else 0) ∧
    s.stackAlu e t pa (.stkNe e t) 0x300D (fun a b => if a = b then 0 else 1) ∧
    s.stackAlu e t pa (.stkLt e t) 0x300E (fun a b => if a.slt b then 1 else 0) ∧
    s.stackAlu e t pa (.stkLtu e t) 0x300F (fun a b => if a < b then 1 else 0) ∧
    s.stackRuns e t pa (.stkNot e t) 0x3010 1 (fun l => [~~~(l.getD 0 0)])
      (fun l => stkResult (s.thread e t).pc (~~~(l.getD 0 0)) false) ∧
    s.stackRuns e t pa (.stkNeg e t) 0x3011 1 (fun l => [-(l.getD 0 0)])
      (fun l => stkResult (s.thread e t).pc (-(l.getD 0 0)) (decide (l.getD 0 0 = 0x80000000))) ∧
    s.stackRuns e t pa (.stkNop e t) 0x4000 0 (fun _ => []) ∧
    s.stackRuns e t pa (.stkDup e t) 0x4001 1 (fun l => [l.getD 0 0, l.getD 0 0]) ∧
    s.stackRuns e t pa (.stkDrop e t) 0x4002 1 (fun _ => []) ∧
    s.stackRuns e t pa (.stkSwap e t) 0x4003 2 (fun l => [l.getD 1 0, l.getD 0 0]) ∧
    s.stackRuns e t pa (.stkOver e t) 0x4004 2 (fun l => [l.getD 1 0, l.getD 0 0, l.getD 1 0]) ∧
    s.stackRuns e t pa (.stkRot e t) 0x4005 3 (fun l => [l.getD 2 0, l.getD 0 0, l.getD 1 0])

/-- Stack-mode memory access and register moves (03 R123; 02 R61 to R63, R87). -/
def Obligations.StackMemoryAndRegisters : Prop :=
  ∀ (s : State) (e t pa pm oo n : Nat), oo < 256 → n < 128 →
    let ring := (s.thread e t).ring
    let v := (s.entries e t 1 pa).getD 0 0
    s.stackLoads e t pa pm (.stkLdb e t) 0x20 oo 1 .ldb ∧
    s.stackLoads e t pa pm (.stkLdbu e t) 0x21 oo 1 .ldbu ∧
    s.stackLoads e t pa pm (.stkLdh e t) 0x22 oo 2 .ldh ∧
    s.stackLoads e t pa pm (.stkLdhu e t) 0x23 oo 2 .ldhu ∧
    s.stackLoads e t pa pm (.stkLdw e t) 0x24 oo 4 .ldw ∧
    s.stackStores e t pa (.stkStb e t) 0x28 oo 1 ∧
    s.stackStores e t pa (.stkSth e t) 0x29 oo 2 ∧
    s.stackStores e t pa (.stkStw e t) 0x2A oo 4 ∧
    (s.open.srcHold (tkey e t) n = [] →
      s.stackRuns e t pa (.stkSrc e t) (0x5000 + n) 0 (fun _ =>
        if n < 32 then [s.dreg e t n] else if n < 48 then [s.areg e t (n - 32)]
        else if n < 64 then [(s.thread e t).srcSock (s.thread e t).shadow n]
        else if n < 80 then [w32 (n - 64)] else [w32i (79 - n)]) ∨ 88 ≤ n) ∧
    (s.settled e t (0, n) → n < 32 →
      s.stackRuns e t pa (.stkDst e t) (0x5100 + n) 1 (fun _ => []) fun _ y => y.setD y.shadow n v) ∧
    (s.settled e t (1, n) → n < 16 →
      s.stackRuns e t pa (.stkDst e t) (0x5120 + n) 1 (fun _ => []) fun _ y => y.setA y.shadow n v) ∧
    (n % 4 < 2 → n < 52 →
      s.stackRuns e t pa (.stkDst e t) (0x5140 + n) 1 (fun _ => []) fun _ y => y.setDst y.shadow n v) ∧
    (n < 13 →
      (¬(4 ≤ n ∧ n ≤ 8 ∧ 2 ≤ ring) →
        s.stackRuns e t pa (.stkMfc e t) (0x5200 + n) 0 (fun _ => [s.ctlReg e t n])) ∧
      (4 ≤ n ∧ n ≤ 8 ∧ 2 ≤ ring →
        s.stackRuns e t pa (.stkMfc e t) (0x5200 + n) 0 (fun _ => []) fun _ y => y.raised 5 1 (s.thread e t).pc)) ∧
    (13 ≤ n → n < 32 →
      s.stackRuns e t pa (.stkMfc e t) (0x5200 + n) 0 (fun _ => []) fun _ y => y.raised 3 11 (s.thread e t).pc) ∧
    (13 ≤ n ∧ n < 32 ∨ n = 1 →
      s.stackRuns e t pa (.stkMtc e t) (0x5300 + n) 0 (fun _ => []) fun _ y => y.raised 3 11 (s.thread e t).pc) ∧
    ((4 ≤ n ∧ n ≤ 7 ∧ 2 ≤ ring) ∨ (n = 8 ∧ ring ≠ 0) ∨ (n = 9 ∧ ring = 3) ∨ ((n = 11 ∨ n = 12) ∧ 2 ≤ ring) →
      s.stackRuns e t pa (.stkMtc e t) (0x5300 + n) 0 (fun _ => []) fun _ y => y.raised 5 1 (s.thread e t).pc) ∧
    ([0, 2, 3, 10].contains n || ([4, 5, 6, 7, 11].contains n && decide (ring ≤ 1)) || (decide (n = 9) && decide (ring ≤ 2)) →
      s.stackRuns e t pa (.stkMtc e t) (0x5300 + n) 1 (fun _ => []) fun _ y => ctlWritten y ring n v) ∧
    (ring = 0 →
      s.stackRuns e t pa (.stkMtc e t) 0x5308 1 (fun _ => []) fun _ y =>
        { y with gtbase := if v = 0 ∨ v = tget 0 (s.open.en e).ringLive 0x60 then v else y.gtbase }) ∧
    (ring ≤ 1 → s.stacked e t 0x530C → s.stackReady e t 1 [] pa →
      ∃ m : State, exec (.stkMtc e t) s = .next m ∧ m.mem = s.mem ∧
        m.thr = ((s.slotTaken e t).withThread e t (m.thread e t)).thr ∧
        m.thread e t = s.stkIssued e t 2 (restacked (s.thread e t) 1 []) ∧
        m.eng = tset s.eng e
          (if v.getLsbD 0 && [1, 2, 3].any fun j => decide ((s.thread e j).run ≠ .stopped) && !(s.thread e j).halted then
            { s.open.en e with last := t }
          else { s.open.en e with last := t, strict := v.getLsbD 0, exposed := v.getLsbD 1 }))

/-- Stack-mode control flow (02 R67, R90, R91; 03 R123 to R126). -/
def Obligations.StackControlFlow : Prop :=
  ∀ (s : State) (e t pa h : Nat),
    let x := s.thread e t
    let l0 := (s.entries e t 3 pa).getD 0 0
    let b := (s.entries e t 3 pa).getD 1 0
    let a := (s.entries e t 3 pa).getD 2 0
    let top := (s.entries e t 1 pa).getD 0 0
    s.stackBranches e t pa (.stkCbrAl e t) 0x6000 1 true (x.pc + 2 * top) true 2 ∧
    s.stackBranches e t pa (.stkCbrCond e t) 0x6001 3 (decide (a = b)) (x.pc + 2 * l0) true 2 ∧
    s.stackBranches e t pa (.stkCbrCond e t) 0x6002 3 (decide (a ≠ b)) (x.pc + 2 * l0) true 2 ∧
    s.stackBranches e t pa (.stkCbrCond e t) 0x6003 3 (a.slt b) (x.pc + 2 * l0) true 2 ∧
    s.stackBranches e t pa (.stkCbrCond e t) 0x6004 3 (b.sle a) (x.pc + 2 * l0) true 2 ∧
    s.stackBranches e t pa (.stkCbrCond e t) 0x6005 3 (a.ult b) (x.pc + 2 * l0) true 2 ∧
    s.stackBranches e t pa (.stkCbrCond e t) 0x6006 3 (b.ule a) (x.pc + 2 * l0) true 2 ∧
    s.stackBranches e t pa (.stkCall e t) 0x6100 1 true top true 2 true ∧
    s.stackBranches e t pa (.stkRet e t) 0x6101 0 true x.lk true 2 ∧
    s.stackBranches e t pa (.stkLeave e t) 0x6102 1 true top false 4 ∧
    (x.br ≠ none → s.stacked e t h →
      ∀ c ∈ ([(.stkCbrAl e t, 0x6000), (.stkCbrCond e t, 0x6003), (.stkCall e t, 0x6100), (.stkRet e t, 0x6101),
              (.stkLeave e t, 0x6102)] : List (Instr × Nat)), h = c.2 →
        exec c.1 s = .next (s.withThread e t { x.raised 2 0 x.pc with
          lineS := if (x.line x.pc.toNat).isNone then some (s.lineFor e t) else x.lineS })) ∧
    (s.noJob (tkey e t) → s.stacked e t 0x6103 →
      ∃ m : State, exec (.stkHalt e t) s = .next m ∧ s.stackFrame m e t 0 [] pa ∧
        m.thread e t = { s.stkIssued e t 2 x with run := .stopped, dfault := false }) ∧
    (s.stacked e t 0x7000 → s.stackReady e t 1 [] pa →
      ∃ m : State, exec (.stkIflush e t) s = .next m ∧ m.mem = s.mem ∧
        (∀ j, j / 4 ≠ e → m.open.th j = s.open.th j) ∧
        (∀ j < 4, j ≠ t → m.thread e j = ((s.slotTaken e t).thread e j).unlined top) ∧
        let z := s.stkIssued e t 2 (restacked x 1 [])
        (z.stk = true → m.thread e t = { z.unlined top with front := [] })) ∧
    (s.stacked e t 0x7001 →
      ∃ m : State, exec (.stkSyncM e t) s = .next m ∧ s.stackFrame m e t 0 [] pa ∧
        m.thread e t = { s.stkIssued e t 2 x with fence := some .mem }) ∧
    (s.stacked e t 0x7002 →
      ∃ m : State, exec (.stkFenceA e t) s = .next m ∧ s.stackFrame m e t 0 [] pa ∧
        m.thread e t = { s.stkIssued e t 2 x with fence := some .arith }) ∧
    (s.stacked e t h → stackListed h = false →
      exec (.stkIllegalInstruction e t) s = .next (s.withThread e t { x.raised 2 0 x.pc with
        lineS := if (x.line x.pc.toNat).isNone then some (s.lineFor e t) else x.lineS }))

/-- Bundles (02 R34, R36, R50, R67, R70 to R72; 03 R95 to R103; 06 R230, R248). -/
def Obligations.BundlesIssueOrWait : Prop :=
  ∀ (s : State) (e t : Nat) (v nv : Word) (i1 i2 form : Bool) (p1 p2 c1 c2 d1 d2 count u : Nat) (o y : Word),
    p1 < 4 → p2 < 4 → c1 < 64 → c2 < 64 → count < 4096 →
    let x := s.thread e t
    let g1 := s.preg e t p1 != i1
    let g2 := s.preg e t p2 != i2
    let free := fun (c : Nat) => (s.open.srcHold (tkey e t) (shortSrc c)).isEmpty
    let second := fun (z : Thread) => if g2 then
      (if d2 < 32 then z.setD z.shadow d2 (s.shortSource e t c2) else z.setA z.shadow (d2 - 32) (s.shortSource e t c2)) else z
    (v = w32 (2 * shortMoveBits i1 p1 c1 d1 + 2 ^ 16 * shortMoveBits i2 p2 c2 d2) → s.bundled e t [v] → d2 < 48 →
      s.settled e t (3, p1) → s.settled e t (3, p2) →
      (free c1 = true → free c2 = true → s.settled e t (d2 / 32, d2 % 32) →
        (d1 < 52 → d1 % 4 < 2 →
          ∃ n : State, exec (.bundleIssue e t false 0) s = .next n ∧ s.issueFrame n e t ∧
            n.thread e t = s.bundleIssued n e t [v]
              (second (if g1 then x.setDst x.shadow d1 (s.shortSource e t c1) else x))) ∧
        (d1 = 4 * u + 2 → u < 2 → x.dstSock x.shadow (4 * u) = 0x10 →
          ∃ n : State, exec (.bundleIssue e t false 0) s = .next n ∧ s.issueFrame n e t ∧
            n.thread e t = s.bundleIssued n e t [v]
              (if g1 then (second x).launch
                (s.opOf e t u [(48 + u, x.dstSock x.shadow (4 * u + 1) &&& s.shortSource e t c1)]) else second x))) ∧
      (free c2 = false → g2 = true → g1 = false ∨ d1 < 52 ∧ d1 % 4 < 2 → (s.open.en e).strict = false →
        ∃ n : State, exec (.bundleIssue e t false 0) s = .next n ∧
          n = s.waiting e t ({ x with latch := if x.rpt = 0 then x.latch else some [v] }.frontOf (n.thread e t)))) ∧
    (c1 < 32 → c2 < 32 → d1 < 32 → d2 < 32 → x.pc.toNat % 64 ≤ 48 →
      let m := 1 + 2 ^ 4 * (2 ^ 6 * c1 + d1) + 2 ^ 22 * (2 ^ 6 * c2 + d2) + 2 ^ 16 * (2 ^ 40 + 2 ^ 58 + 2 ^ 76 + 2 ^ 94)
      let ws := [w32 m, w32 (m / 2 ^ 32), w32 (m / 2 ^ 64), w32 (m / 2 ^ 96)]
      s.bundled e t ws → s.settled e t (0, c1) → s.settled e t (0, c2) → s.settled e t (0, d1) → s.settled e t (0, d2) →
      ∃ n : State, exec (.bundleIssue e t false 0) s = .next n ∧ s.issueFrame n e t ∧
        n.thread e t = s.bundleIssued n e t ws
          (if d1 = d2 then { x.setD x.shadow d2 (s.dreg e t c2) with dc := true }
           else (x.setD x.shadow d1 (s.dreg e t c1)).setD x.shadow d2 (s.dreg e t c2))) ∧
    (s.bundled e t [v] → v.toNat % 2 = 0 → v.getLsbD 31 = true → x.rpt = 0 → v.toNat / 2 ^ 14 % 2 ^ 17 ≠ 0 →
      ∃ n : State, exec (.bundleIssue e t false 0) s = .next n ∧
        n = s.withThread e t ((x.raised 2 0 x.pc).frontOf (n.thread e t))) ∧
    (v = w32 (2 ^ 31 + 2 * b01 form + if form then 4 * count else 0) → s.bundled e t [v] → x.rpt = 0 → x.br = none →
      x.latch = none →
      (x.front = [] ∧ x.pc.toNat % 64 < 60 ∧ (s.lineFor e t).words.getD (x.pc.toNat % 64 / 4 + 1) none = some nv) ∨
        (∃ f g l, x.front = f :: g :: l ∧ f.addr = x.pc ∧ g.addr = x.pc + 4 ∧ g.words = [nv]) →
      nv.toNat % 2 = 0 → nv.getLsbD 31 = false → nv.toNat / 2 % 64 ≠ 46 →
      let k := if form then count else x.rc.toNat
      ∀ cmd ∈ [Instr.bundleIssue e t false 0, Instr.rep e t],
        ∃ n : State, exec cmd s = .next n ∧ s.issueFrame n e t ∧
          let z := s.bundleIssued n e t [v] x
          n.thread e t = if k = 0 then { z with pc := x.pc + 8 } else { z with rpt := k, latch := some [nv] }) ∧
    (s.issues e t → u < 2 → p1 ≠ 0 → ¬ s.settled e t (3, p1) → s.open.exposedAt (tkey e t) = false →
      s.unwatched e t → exec (.addc e t u p1 o y) s = .next (s.waiting e t x))

/-- Exception entry (02 R52, R91, R93; 08 R294 to R298, R306, R310 to R316): what is saved, and where the thread goes. A
failed push under compatibility nesting and a third fault stand apart. -/
def Obligations.ExceptionsSaveAndEnter : Prop :=
  ∀ (s : State) (e t pa : Nat) (ex b : Exc) (rest : List Exc), s.sys.held = false → thrOk e t = true →
    s.open.mayEnter (tkey e t) = true → s.open.notTurn (tkey e t) = false → (s.thread e t).run ≠ .waiting →
    (s.open.en e).strict = false →
    let x := s.thread e t
    let due := ex.waits = false ∧ x.under.length ≤ ex.lvl ∧ ((x.excs = ex :: rest ∧ rest = []) ∨
      (x.excs = [ex, b] ∧ rest = [b] ∧ ex.trap = false ∧ b.trap = false ∧ ex.seq ≤ b.seq ∧ b.waits = false) ∨
      (x.excs = [b, ex] ∧ rest = [b] ∧ ex.trap = false ∧ b.trap = false ∧ ex.seq < b.seq ∧ b.waits = false))
    let async := x.excs = [] ∧ rest = [] ∧ x.ie = true ∧ x.shadow = false ∧ x.rcLeft = 0 ∧ x.oneMore = false ∧
      ((x.wdPend = true ∧ ex = { vec := 13, seq := 0, shadow := false }) ∨
       (x.wdPend = false ∧ x.evq.any (·.int) ∧ ex = { vec := 14, seq := 0, shadow := false }))
    let origin := if ex.vec = 13 ∨ ex.vec = 14 then x.ring else if x.rcLeft = 0 then ex.origin.getD x.ring else x.rcRing
    let cause := w32 (2 ^ 16 * ex.status + 2 ^ 8 * (ex.detail % 256) + 2 ^ 5 * b01 (decide (ex.vec = 13 ∨ ex.vec = 14)) + ex.vec)
    let slot := match (x.br : Option Branch) with
      | some c => (c.tgt.getD (x.pc + w32 (s.open.widthAt (tkey e t) x.pc.toNat x.stk))).toNat / 2 % 2 ^ 15
      | none => 0
    let bit := fun (c : Bool) (n : Nat) => 2 ^ n * b01 c
    let vst := w32 (2 ^ 30 * (x.ring % 4) + 2 ^ 28 * (origin % 4) + bit x.stk 26 + bit x.nest 25 + bit x.precise 24 +
      bit x.ie 23 + bit x.ovt 22 + bit x.dzt 21 + bit x.br.isSome 20 + bit (decide (x.rpt ≠ 0)) 19 + 2 * slot)
    let vrep := w32 x.rpt
    let base := { x with
      excs := rest, run := .ready, pc := w32 (16 * ex.vec), ie := false, ring := min x.ring 1, stk := false, tos := []
      rpt := 0, latch := none, br := none, rcLeft := 0, oneMore := false, halted := x.stepReq, stepReq := false
      under := { flip := x.br.any fun (c : Branch) => c.stk != x.stk, rcLeft := x.rcLeft, rcRing := x.rcRing, trap := ex.trap } :: x.under
      front := [], bub := 0, hvSeen := false, wdPend := x.wdPend && ex.vec != 13 }
    let entered := ({ base with shadow := true, spc := x.pc, srpt := vrep, sst := vst }.setD true 31 cause).setD true 30 ex.faddr
    let sp := x.getA false 15
    let frame := [x.pc, vst, vrep, cause, ex.faddr, w32 s.open.now, w32 (s.open.now / 2 ^ 32), 0]
    let record := [1, cause, ex.faddr, x.pc, vst, vrep, x.spc, x.sst, x.srpt, x.lk, x.getA true 15, x.dcount + 1,
      w32 s.open.now, w32 (s.open.now / 2 ^ 32), 0, 0x44460001]
    let quiet := fun (n : State) => n.eng = tset s.eng e { s.open.en e with last := t } ∧
      ∀ a, a ≠ rngReg e + 0x100 → a ≠ trcReg (e / 8) → ¬ (sntReg e + 0x40 ≤ a ∧ a < sntReg e + 0x5C) → n.open.rg a = s.open.rg a
    (x.shadow = false → x.nest = false → x.stk = false ∨ x.tos = [] → due ∨ async →
      ∃ n : State, exec (.exceptionEntry e t) s = .next n ∧
        n = { (s.slotTaken e t).withThread e t entered with eng := n.eng, regs := n.regs, trace := n.trace } ∧ quiet n ∧
        (e < 192 → n.open.rg (rngReg e + 0x100) = satAdd (s.open.rg (rngReg e + 0x100)) 1)) ∧
    (x.shadow = false → x.nest = false → x.stk = true → due ∨ async → x.sbuf = [] → s.settled e t (1, 15) →
      (∀ i < x.tos.length, (sp - w32 (4 * (i + 1))).toNat % 4 = 0 ∧ s.allows e t 2 (sp - w32 (4 * (i + 1))) 4 = true ∧
        s.reaches e (sp - w32 (4 * (i + 1))) (pa + 4 * (x.tos.length - 1 - i)) true) →
      ∃ n : State, exec (.exceptionEntry e t) s = .next n ∧
        n = { (s.slotTaken e t).withThread e t (entered.setA false 15 (sp - w32 (4 * x.tos.length))) with
          eng := n.eng, regs := n.regs, trace := n.trace, mem := n.mem } ∧ quiet n ∧
        (∀ i < x.tos.length, n.wordAt (pa + 4 * i) = x.tos.getD i 0) ∧
        ∀ a, ¬ (pa ≤ a ∧ a < pa + 4 * x.tos.length) → n.mem.read a = s.mem.read a) ∧
    (x.shadow = false → x.nest = true → x.stk = false ∨ x.tos = [] → due ∨ async → sp.toNat % 8 = 0 →
      x.slim.toNat + 32 ≤ sp.toNat → s.open.grants e (min x.ring 1) 2 (sp.toNat - 32) 32 = true → x.sbuf = [] →
      s.spans e (sp - 32) 32 pa true →
      ∃ n : State, exec (.exceptionEntry e t) s = .next n ∧
        n = { (s.slotTaken e t).withThread e t (base.setA false 15 (sp - 32)) with
          eng := n.eng, regs := n.regs, trace := n.trace, mem := n.mem } ∧ quiet n ∧
        (∀ i < 8, n.wordAt (pa + 4 * i) = frame.getD i 0) ∧
        ∀ a, ¬ (pa ≤ a ∧ a < pa + 32) → n.mem.read a = s.mem.read a) ∧
    (x.shadow = true → x.dfault = false → x.stk = false ∨ x.tos = [] → due → ex.shadow = true →
      e = 192 ∨ s.open.fltPolicy 2 = 0 → s.spans e (w32 (0x1FF00 + 0x40 * t)) 64 pa true →
      ∃ n : State, exec (.exceptionEntry e t) s = .next n ∧
        n.thread e t = { (base.claim true (1, 15)).setA true 15 (w32 (0x1FF00 - 0x100 * t)) with
          pc := 16, shadow := true, ring := 0, stk := true, dfault := true, dcount := x.dcount + 1, under := x.under } ∧
        (∀ k, k ≠ tkey e t → n.open.th k = (s.slotTaken e t).open.th k) ∧
        (∀ i < 16, n.wordAt (pa + 4 * i) = record.getD i 0) ∧
        (e < 192 → n.open.rg (rngReg e + 0x100) = satAdd (s.open.rg (rngReg e + 0x100)) 1 ∧
          n.open.rg (rngReg e + 0x104) = satAdd (s.open.rg (rngReg e + 0x104)) 1))

/-- EXCEPTION_ENTRY and WATCHDOG_EXPIRY complete (04 R170; 06 R229; 08 R296 to R298; 14 R540): whichever exceptions are
pending, a thread in its turn that may take one and has one due enters the handler of one that is due; an enabled watchdog
of a thread that runs makes WATCHDOG pending at its first expiry and, at the second, tells the fault controller. -/
def Obligations.EntriesAndExpiriesComplete : Prop :=
  (∀ (s : State) (e t : Nat), s.sys.held = false → thrOk e t = true → s.open.mayEnter (tkey e t) = true →
    s.open.notTurn (tkey e t) = false → (s.open.en e).strict = false →
    let x := s.thread e t
    x.excDue = true → x.shadow = false → x.nest = false → x.stk = false → x.run ≠ .waiting →
    ∃ (n : State) (v : Nat), exec (.exceptionEntry e t) s = .next n ∧
      ((∃ q ∈ x.excs, q.vec = v ∧ x.dueNow q = true) ∨
        (v = 13 ∧ x.wdPend = true ∧ x.ie = true) ∨ (v = 14 ∧ x.evq.any (·.int) = true ∧ x.ie = true)) ∧
      (n.thread e t).pc = w32 (16 * v) ∧ (n.thread e t).shadow = true ∧ (n.thread e t).ie = false ∧
      (n.thread e t).run = .ready ∧ (n.thread e t).ring = min x.ring 1 ∧ (n.thread e t).spc = x.pc ∧
      (n.thread e t).excs.length + (if x.excs.any x.dueNow then 1 else 0) = x.excs.length ∧
      n.mem = s.mem ∧ ∀ k, k ≠ tkey e t → n.open.th k = (s.slotTaken e t).open.th k) ∧
  (∀ (s : State) (e t : Nat), s.sys.held = false → e < 192 → t < 4 → (s.thread e t).run ≠ .stopped →
    (s.thread e t).halted = false → (s.open.rg (wdtReg (tkey e t))).getLsbD 31 = true →
    let stop := max s.open.now ((s.thread e t).wdFrom + 64 * ((s.open.rg (wdtReg (tkey e t))).toNat % 2 ^ 24))
    ((s.open.rg (wdtReg (tkey e t))).getLsbD 30 = false →
      exec (.watchdogExpiry e t) s =
        .next { s.withThread e t { s.thread e t with wdFrom := stop, wdPend := true } with
          tide := { s.tide with count := stop }
          regs := tset s.regs (wdtReg (tkey e t)) (s.open.rg (wdtReg (tkey e t)) ||| 0x40000000) }) ∧
    ((s.open.rg (wdtReg (tkey e t))).getLsbD 30 = true → s.open.fltPolicy 3 = 0 →
      ∃ n : State, exec (.watchdogExpiry e t) s = .next n ∧ n.thr = (s.withThread e t (n.thread e t)).thr ∧
        n.thread e t = { s.thread e t with wdFrom := stop } ∧ n.open.now = stop ∧ n.flt.head = s.flt.head + 1)) ∧
  ∀ (s : State) (e t : Nat), s.sys.held = false → thrOk e t = true →
    (e = 192 ∨ (s.open.rg (wdtReg (tkey e t))).getLsbD 31 = false ∨ (s.thread e t).run = .stopped ∨
      (s.thread e t).halted = true) →
    exec (.watchdogExpiry e t) s = .next s

/-- Register accesses by a keeper (00 R9, R11, R16 to R18; 01 R26; 12 R467). -/
def Obligations.RegistersStageAndCommit : Prop :=
  ∀ (s : State) (b : Blk) (a i : Nat) (v : Word), s.sys.held = false → blkOk b = true →
    let kp := By.mk .keeper 0
    let acked := { s with resp := {} }
    (blkHas b a = true → a % 4 = 0 → ¬ (0x400302E0 ≤ a ∧ a < 0x40030300) →
      exec (.registerWrite kp a v) s = .next { acked with regs := tset s.regs a v }) ∧
    (v.getLsbD 0 = true → (s.open.cm b).busy = false →
      ∃ n : State, exec (.registerWrite kp (blkCommit b) v) s = .next n ∧
        n = { acked with com := tset s.com (blkCommit b) (n.open.cm b) } ∧
        n.open.cm b = { s.open.cm b with
          busy := true, seq := ((s.open.cm b).seq + 1) % 256, acc := s.open.now, snap := (n.open.cm b).snap } ∧
        (blkHas b i = true → n.snap b i = s.open.stg i)) ∧
    (v.getLsbD 0 = false ∨ (s.open.cm b).busy = true →
      exec (.registerWrite kp (blkCommit b) v) s = .next acked) ∧
    (a < 0x40000000 ∨ 0x42000000 ≤ a ∨ a % 4 ≠ 0 ∨ (0x40080000 ≤ a ∧ a < 0x40100000) →
      exec (.registerWrite kp a v) s = .next { s with resp := { err := some .busError } }) ∧
    (i < 192 → a ∈ [tblReg i + 0x40, sntReg i + 0x0C, 0x40030000, 0x40040020] →
      exec (.registerWrite kp a v) s = .next acked) ∧
    (i < 192 → a ∈ [tblReg i + 0x44, tblReg i + 0x48, sntReg i + 0x20, rngReg i + 0x100, 0x40020030, slotMiss, slotTxerr] →
      exec (.rclrRead kp a) s = .next { s with
        resp := { data := s.open.rg a, bytes := leBytes 4 (s.open.rg a).toNat }, regs := tset s.regs a 0 }) ∧
    exec (.latchedRead kp 0x40030000) s = .next { s with
      resp := { data := w32 s.open.now, bytes := leBytes 4 (w32 s.open.now).toNat }
      lat := tset s.lat 0x40030004 (w32 (s.open.now / 2 ^ 32)) } ∧
    (let hi := (tfind s.lat 0x40030004).getD (w32 (s.open.now / 2 ^ 32))
     exec (.latchedRead kp 0x40030004) s = .next { s with resp := { data := hi, bytes := leBytes 4 hi.toNat } }) ∧
    (i < 192 →
      let lo := tblReg i + 0x10
      let hi := tblReg i + 0x14
      let v := (tfind s.lat hi).getD (s.open.stg hi)
      exec (.latchedRead kp lo) s = .next { s with
        resp := { data := s.open.stg lo, bytes := leBytes 4 (s.open.stg lo).toNat }, lat := tset s.lat hi (s.open.stg hi) } ∧
      exec (.latchedRead kp hi) s = .next { s with
        resp := { data := v, bytes := leBytes 4 v.toNat }, lat := s.lat.filter fun (c : Nat × Word) => c.1 != hi })

/-- Table and ring commits (05 R200 to R210; 08 R291, R320 to R323). -/
def Obligations.TablesAndWindowsCommit : Prop :=
  (∀ (s : State) (e kind bg sl pa ns nc n span : Nat) (hold : Bool), s.committing (.tbl e) → e < 192 → bg < 16 → sl < 16 →
    kind < 3 → kind < 2 ∨ sl < 8 →
    let cmd := s.snap (.tbl e) (tblReg e)
    let a := s.snap (.tbl e) (tblReg e + 4)
    let m0 := s.snap (.tbl e) (tblReg e + 8)
    let m1 := s.snap (.tbl e) (tblReg e + 0x0C)
    let t := (s.snap (.tbl e) (tblReg e + 0x10)).toNat + 2 ^ 32 * (s.snap (.tbl e) (tblReg e + 0x14)).toNat
    let E := s.open.en e
    let S := E.slot (16 * kind + sl)
    let put := fun (x : Slot) => { s with eng := tset s.eng e { E with slots := tset E.slots (16 * kind + sl) x } }
    let placed := fun (r : TabRef) => (if S.live = none then { live := some r, bg := bg } else { S with armed := some r, held := hold, rel := none } : Slot)
    let heldIn := fun (k : Nat) => (E.slot k).armed.isSome && (E.slot k).held && !(E.slot k).pending s.open.now && decide ((E.slot k).bg = bg)
    let named := fun (k : Nat) => if k < 32 then m0.getLsbD k else m1.getLsbD (k - 32)
    (cmd = tblCmd 1 kind bg sl hold →
      (S.armed ≠ none → exec (.tblInstall e) s = .next (s.finished (.tbl e) .tableBusy 2 0xFFFF)) ∧
      (S.armed = none → S.live ≠ none → S.bg ≠ bg →
        exec (.tblInstall e) s = .next (s.finished (.tbl e) .badValue 3 0xFFFF)) ∧
      (S.armed = none → S.live = none ∨ S.bg = bg → a.toNat % 64 = 0 →
        (kind = 0 → tabPlace a.toNat (64 + 32 * n) = true → s.tableAt e a pa (64 + 32 * n) → s.goodCurve e pa n span →
          exec (.tblInstall e) s = .next ((put (placed
            { kind := .curve, addr := a, len := 64 + 32 * n, tid := s.wordAt (pa + 12), n1 := n, span := span })).finished (.tbl e) .ok)) ∧
        (kind = 1 → tabPlace a.toNat (32 + 8 * ns * nc) = true → tabPlace a.toNat 64 = true →
          s.tableAt e a pa (32 + 8 * ns * nc) → s.goodSeq pa ns nc →
          exec (.tblInstall e) s = .next ((put (placed
            { kind := .seq, addr := a, len := 32 + 8 * ns * nc, tid := s.wordAt (pa + 12), n1 := ns, n2 := nc })).finished (.tbl e) .ok)))) ∧
    (cmd = tblCmd 2 kind bg sl hold →
      exec (.tblDisarm e) s =
        .next ((put { S with armed := none, held := false, rel := none }).finished (.tbl e) .ok 0 (b01 S.armed.isSome))) ∧
    (cmd = tblCmd 3 kind bg sl hold →
      exec (.tblRemove e) s =
        .next (if S.armed = none then (put {}).finished (.tbl e) .ok else s.finished (.tbl e) .tableBusy 4 0xFFFF)) ∧
    (cmd = tblCmd 4 kind bg sl hold → m1.toNat < 256 →
      ((∀ k < 40, heldIn k = named k) →
        ∃ m : State, exec (.tblRelease e) s = .next m ∧ m = { s.finished (.tbl e) .ok with eng := m.eng } ∧
          (∀ j, j ≠ e → m.open.en j = s.open.en j) ∧ m.open.en e = { E with slots := (m.open.en e).slots } ∧
          ∀ k < 40, (m.open.en e).slot k =
            if heldIn k = false then E.slot k
            else if t ≤ s.open.now then { E.slot k with held := false, rel := none } else { E.slot k with rel := some t }) ∧
      (∀ k < 40, heldIn k ≠ named k →
        exec (.tblRelease e) s = .next (s.finished (.tbl e) .badValue 5 0xFFFF)))) ∧
  (∀ (s : State) (e t k : Nat), s.sys.held = false → e ≤ 192 → k < 40 →
    let due := fun (j : Nat) => ((s.open.en e).slot j).armed.isSome && ((s.open.en e).slot j).held
    due k → ((s.open.en e).slot k).rel = some t →
    (∀ c ∈ (s.open.en e).slots, c.1 < 40 ∧ tfind (s.open.en e).slots c.1 = some c.2) →
    (∀ j < 40, due j → ∀ u, ((s.open.en e).slot j).rel = some u → t ≤ u) →
    ∃ m : State, exec (.tblReleaseTime e) s = .next m ∧ m.open.now = max s.open.now t ∧
      m = { s with eng := m.eng, tide := { s.tide with count := max s.open.now t } } ∧
      (∀ j, j ≠ e → m.open.en j = s.open.en j) ∧ m.open.en e = { s.open.en e with slots := (m.open.en e).slots } ∧
      ∀ j < 40, (m.open.en e).slot j =
        if due j && (((s.open.en e).slot j).rel.any fun u => decide (u ≤ max s.open.now t)) then
          { (s.open.en e).slot j with held := false, rel := none }
        else (s.open.en e).slot j) ∧
  (∀ (s : State) (e r i : Nat), s.committing (.rng e) → e < 192 →
    ((∀ r < 4, 0 < r → ∀ i < 4, s.goodWindow e r i) → (∀ o < 5, s.snap (.rng e) (rngReg e + 0x60 + 4 * o) = 0) →
      ∃ m : State, exec (.rngCommit e) s = .next m ∧
        m = { s.finished (.rng e) .ok with eng := m.eng, thr := m.thr } ∧
        (∀ j, j ≠ e → m.open.en j = s.open.en j) ∧ m.open.en e = { s.open.en e with ringLive := (m.open.en e).ringLive } ∧
        (∀ o < 29, tget 0 (m.open.en e).ringLive (4 * o) = s.snap (.rng e) (rngReg e + 4 * o)) ∧
        (∀ k, k / 4 ≠ e → m.open.th k = s.open.th k) ∧ ∀ t < 4, m.thread e t = { s.thread e t with gtbase := 0 }) ∧
    (0 < r → r < 4 → i < 4 → ¬ s.goodWindow e r i →
      (∀ q < 4, 0 < q → ∀ j < 4, 4 * q + j < 4 * r + i → s.goodWindow e q j) →
      exec (.rngCommit e) s = .next (s.finished (.rng e) .badValue 1 (0x10 * r + i))))

/-- Patrols and banks (09 R343, R348 to R354, R361, R364). -/
def Obligations.PatrolsAndBanks : Prop :=
  (∀ (s : State) (d off n alg bg : Nat) (destr rep : Bool), s.committing (.pat d) → d ≤ 24 → n < 2 ^ 15 → off % 1024 = 0 →
    alg < 2 → bg < 4 →
    let ctl := s.snap (.pat d) (memReg d + 8)
    let put := fun (p : Patrol) => { s with patrol := tset s.patrol d p }
    (ctl = w32 (2 ^ 24 + 2 ^ 8 * bg + 2 ^ 4 * alg + 2 * b01 rep + b01 destr) → s.snap (.pat d) (memReg d) = w32 off →
      s.snap (.pat d) (memReg d + 4) = w32 n →
      ((s.open.pat d).st ≠ 0 → exec (.patrolStart d) s = .next (s.finished (.pat d) .badValue 2 0xFFFF)) ∧
      ((s.open.pat d).st = 0 → 1 ≤ n → off + 1024 * n ≤ (if d = 24 then 0x1000000 else 0x140000) →
        (∀ i < n, ∀ b ∈ blockBanks d (off + 1024 * i), (s.open.bk d b).st = 2) →
        (destr = true → ∀ i < n, s.open.blockOwned d (off + 1024 * i) = false) →
        exec (.patrolStart d) s = .next ((put
          { st := 1, alg := alg, bg := bg, left := n, base := off, next := off, blocks := n, destr := destr
            repair := rep }).finished (.pat d) .ok))) ∧
    (ctl = w32 (2 ^ 25) →
      exec (.patrolStop d) s = .next (if (s.open.pat d).st = 0 then s.finished (.pat d) .ok
        else if (s.open.pat d).phase = 0 then
          ((put { s.open.pat d with st := 0 }).withEvent (0x610 + d) (2 ^ 29) s.open.now).finished (.pat d) .ok
        else (put { s.open.pat d with st := 2 }).finished (.pat d) .ok))) ∧
  (∀ (s : State) (d n : Nat) (fs : List Defect), s.sys.held = false → d ≤ 24 → (s.open.pat d).st ≠ 0 →
    (s.open.pat d).next % 1024 = 0 →
    let p := s.open.pat d
    let at0 := domAddr d p.next
    let k := arrayWord d p.next
    let put := fun (q : Patrol) (s : State) => { s with patrol := tset s.patrol d q }
    let last := fun (q : Patrol) (s : State) =>
      if p.left ≤ 1 ∨ q.st = 2 then (put { q with st := 0 } s).withEvent (0x610 + d) (2 ^ 29) s.open.now else put q s
    let next := { p.released with next := p.next + 1024, left := p.left - 1, done := p.done + 1 }
    (p.phase = 0 → p.destr = true → exec (.patrolBlock d n fs) s = .next (put { p with phase := 2 } s)) ∧
    (p.phase = 0 → p.destr = false → s.open.blockSkipped d p.next = true → p.st = 1 →
      exec (.patrolBlock d n fs) s =
        .next (last { p with next := p.next + 1024, left := p.left - 1, skipped := (p.skipped + 1) % 2 ^ 15 } s)) ∧
    (∀ q : Patrol, (p.phase = 0 ∧ p.destr = false ∧ s.open.blockSkipped d p.next = false ∧ q = p.released) ∨
        (p.phase = 1 ∧ q = p) → q.buf.length < 1024 → q.buf.length % 8 = 0 → 1 ≤ n →
      (∀ i < 128, s.open.eccRaw (at0 + 8 * i) = 0) →
      let got := min 1024 (q.buf.length + min n 128 * k) - q.buf.length
      exec (.patrolBlock d n fs) s = .next (put { q with
        phase := if q.buf.length + got = 1024 then 2 else 1
        buf := q.buf ++ s.bytesAt (at0 + q.buf.length) got
        marks := q.marks ++ List.replicate (got / 8) 0
        dirty := q.dirty ++ List.replicate got false } s)) ∧
    (p.phase = 2 → fs = [] → p.destr = false → exec (.patrolBlock d n fs) s = .next (put { p with phase := 3 } s)) ∧
    (p.phase = 2 → fs = [] → p.destr = true →
      ∃ m : State, exec (.patrolBlock d n fs) s = .next m ∧
        m = { last next s with mem := m.mem, ecc := m.ecc, wb := m.wb } ∧
        ∀ a, m.mem.read a = (if at0 ≤ a ∧ a < at0 + 1024 then 0 else s.mem.read a) ∧
          tget 0 m.ecc a = (if at0 ≤ 8 * a ∧ 8 * a < at0 + 1024 then 0 else tget 0 s.ecc a) ∧
          (a ∈ m.wb ↔ a ∈ s.wb ∧ ¬ (at0 ≤ 8 * a ∧ 8 * a < at0 + 1024))) ∧
    (p.phase = 3 → p.buf.length = 1024 → p.pos ≤ 1024 / k →
      let upto := min (1024 / k) (p.pos + min n 128)
      let inside := fun (b : Nat) => at0 + k * p.pos ≤ b ∧ b < at0 + k * upto
      ∃ m : State, exec (.patrolBlock d n fs) s = .next m ∧
        m = { (if upto = 1024 / k then last next s else put { p with pos := upto } s) with
          mem := m.mem, ecc := m.ecc, wb := m.wb } ∧
        ∀ a, m.mem.read a = (if inside a then p.buf.getD (a - at0) 0 else s.mem.read a) ∧
          tget 0 m.ecc a = (if inside (8 * a) then p.marks.getD ((8 * a - at0) / 8) 0 else tget 0 s.ecc a) ∧
          (a ∈ m.wb ↔ a ∈ s.wb ∧ ¬ inside (8 * a)))) ∧
  (∀ (s : State) (d b : Nat), s.committing (.memCfg d) → d ≤ 24 → isBank d b = true →
    let byte := fun (b : Nat) => (s.snap (.memCfg d) (memReg d + 0x40 + 4 * (b / 4))).toNat / 2 ^ (8 * (b % 4)) % 256
    let wish := fun (b : Nat) => byte b % 4
    let now := fun (b : Nat) => if (s.open.bk d b).st ≤ 2 then (s.open.bk d b).st else (s.open.bk d b).goal
    (∀ b < 64, if isBank d b then byte b < 16 ∧ wish b ≠ 3 ∧ (d = 24 ∨ b < 48 ∨ wish b = 2) else byte b = 0) →
    (∀ k < 16, s.snap (.memCfg d) (memReg d + 0x80 + 4 * k) = 0) →
    (∀ b < 64, isBank d b = true → now b = 0 → wish b ≠ 1) →
    (∀ b < 64, isBank d b = true → now b = 2 → wish b ≠ 2 → s.open.bankPinned d b = false ∧ s.open.bankBusy d b = false) →
    (∀ b < 64, isBank d b = true → now b ≠ wish b → s.open.bankPatrolled d b = false ∧ (s.open.bk d b).st ≤ 2) →
    ∃ m : State, exec (.memCfgCommit d) s = .next m ∧
      m = { s.finished (.memCfg d) .ok with
        bank := m.bank, live := m.live, weir := m.weir, mem := m.mem, free := m.free } ∧
      (m.open.bk d b = if now b = wish b then { s.open.bk d b with owned := byte b / 8 = 1 }
        else if wish b = 2 then
          { s.open.bk d b with owned := byte b / 8 = 1, st := 3, goal := 2, zf := now b = 0 && (byte b / 4 % 2 = 1) }
        else if now b = 1 then { s.open.bk d b with owned := byte b / 8 = 1, st := 0, goal := 0 }
        else { s.open.bk d b with owned := byte b / 8 = 1, st := 4, goal := wish b }) ∧
      (∀ k, k / 64 ≠ d → tget {} m.bank k = tget {} s.bank k) ∧
      ((∀ c < 64, isBank d c = true → now c = 1 → wish c ≠ 0) → m.mem = s.mem)) ∧
  (∀ (s : State) (d b : Nat), s.sys.held = false → d ≤ 24 → b < 64 →
    let x := s.open.bk d b
    let put := fun (y : MBank) => { s with bank := tset s.bank (64 * d + b) y }
    (x.st = 3 → exec (.bankTransitionDone d b) s = .next (put { x with st := if x.zf then 5 else 2 })) ∧
    (x.st = 4 → x.goal ≠ 0 →
      exec (.bankTransitionDone d b) s = .next (put { x with st := if x.goal = 2 then 3 else x.goal })) ∧
    (x.st = 4 → x.goal = 0 → ∃ m : State, exec (.bankTransitionDone d b) s = .next m ∧ m.open.bk d b = { x with st := 0 } ∧
      ∀ a, (bankRegion d b).has a = false → m.mem.read a = s.mem.read a) ∧
    (x.st = 5 → ∃ m : State, exec (.bankTransitionDone d b) s = .next m ∧ m.open.bk d b = { x with st := 2, zf := false } ∧
      m = { put { x with st := 2, zf := false } with mem := m.mem, ecc := m.ecc, wb := m.wb } ∧
      (∀ a, m.mem.read a = if (bankRegion d b).has a then 0 else s.mem.read a) ∧
      (∀ a, tget 0 m.ecc a = if (bankRegion d b).has (8 * a) then 0 else tget 0 s.ecc a) ∧
      ∀ a, a ∈ m.wb ↔ a ∈ s.wb ∧ (bankRegion d b).has (8 * a) = false))

/-- The slot network: plan commits, frame boundaries and messages (10 R375 to R392; 13 R504, R505, R527). Checks 8 to 10
of R391 stand by the model's own `overcommit`, `Resv.clash` and `Resv.carryClash`. -/
def Obligations.SlotPlansAndMessages : Prop :=
  (∀ (s : State) (a f nr nb : Nat) (rep : Bool), s.committing .slot → f < 2 ^ 54 → a < 2 ^ 32 →
    let cmd := s.snap .slot 0x40040000
    let rs := (List.range nr).map (s.resvOf a)
    s.snap .slot 0x40040004 = w32 a → s.snap .slot 0x40040008 = w32 f → s.snap .slot 0x4004000C = w32 (f / 2 ^ 32) →
    (cmd = w32 (3 * 2 ^ 24) → s.floorsMet →
      exec .slotDisarm s = .next ({ s with net := { s.net with armed := none } }.finished .slot .ok 0 (b01 s.net.armed.isSome))) ∧
    (cmd = w32 (2 ^ 24) → s.net.armed ≠ none → s.floorsMet →
      exec .slotLoad s = .next (s.finished .slot .badValue 2 0xFFFF)) ∧
    (s.goodPlan a nr nb → overcommit rs = false → (∀ i < nr, ∀ j < i, (s.resvOf a j).clash (s.resvOf a i) = false) →
      (cmd = w32 (2 ^ 24 + 2 ^ 8 * b01 rep) → s.net.armed = none ∨ rep = true →
        (∀ q ∈ s.net.live.toList, ∀ r ∈ rs, ∀ p ∈ q.res, r.carryClash p = false) →
        ∃ m : State, exec .slotLoad s = .next m ∧
          m = { s.finished .slot .ok with net := { s.net with armed := some (s.planAt a nr nb, f) }, weir := m.weir } ∧
          m.weir = { s.weir with pols := m.weir.pols } ∧
          ∀ p < 24, m.open.pol p = (s.open.pol p).floored s.weir.dip.isSome
            (max (s.open.floor p) (max (floorByte (s.memNat (a + 0x14 + p) 1)) ((s.open.pol p).imgPend.getD 0)))) ∧
      (cmd = w32 (2 * 2 ^ 24 + 2 ^ 8 * b01 rep) → s.floorsMet →
        exec .slotCheck s = .next (s.finished .slot .ok)))) ∧
  (∀ (s : State) (f : Nat), s.sys.held = false → s.open.now ≤ 1024 * f → s.flt.join = none → s.weir.dip = none →
    (∀ p < 24, (s.open.pol p).ceil = none) →
    let t := s.atTime (1024 * f)
    (s.net.armed.all (fun c => decide (f < c.2)) = true →
      ∃ m : State, exec (.tideFrameBoundary f) s = .next m ∧ m = { t with weir := m.weir, regs := m.regs } ∧
        m.weir = { s.weir with pols := m.weir.pols } ∧
        (∀ p < 24,
          let y := (s.open.pol p).switched ((s.open.polCfg p 1).toNat / 2 ^ 12 % 8) (s.open.floor p)
          m.open.pol p = y.floored false (max (s.planFloor p) (max y.img (y.imgPend.getD 0)))) ∧
        ∀ x, (∀ p < 24, x ≠ pldReg p + 0x44) → m.open.rg x = s.open.rg x) ∧
    (∀ c ∈ s.net.armed.toList, c.2 ≤ f → s.flt.fb = none → s.net.tx = [] → s.net.sluice = [] →
      (∀ p < 24, (s.open.pol p).goal = none ∧ (s.open.pol p).resume = none ∧ (s.open.pol p).imgPend = none ∧
        (s.open.pol p).img ≤ (s.open.pol p).cur ∧ floorByte (c.1.floor.getD p 0xFF) ≤ (s.open.pol p).cur) →
      exec (.tideFrameBoundary f) s =
        .next ({ t with
          net := { s.net with live := some c.1, armed := none, bankB := !s.net.bankB }
          regs := tset (tset s.regs 0x40040028 (w32 f)) 0x4004002C (w32 (f / 2 ^ 32 % 2 ^ 22)) }.withEvent 0x5F0 (2 ^ 28)
            (1024 * f)))) ∧
  (∀ (s : State) (i f : Nat) (p : Plan) (r : Resv) (m l : List Flit) (g : Flit), s.sys.held = false →
    s.net.live = some p → p.res[i]? = some r → f % 2 ^ r.plog = r.phase → s.open.now ≤ 1024 * f + r.start →
    r.src < 30 → r.sch < 32 → i < 1024 → r.len ≤ 16 →
    let t := s.atTime (1024 * f + r.start)
    let q := tget [] s.net.tx (32 * r.src + r.sch)
    (q = m ++ g :: l → (∀ h ∈ m, h.last = false) → g.last = true → s.open.chanDiked r.src r.sch = false → s.net.sluice = [] →
      m.length + 1 ≤ r.len →
      exec (.reservationOccurrence i f) s =
        .next { t with net := { s.net with
          tx := tset s.net.tx (32 * r.src + r.sch) l
          fly := s.net.fly ++ [⟨r.src, r.sch, r.dst, r.dch, m ++ [g], true, false⟩] } }) ∧
    (q.length < 16 → q.any (·.last) = false →
      exec (.reservationOccurrence i f) s = .next (if r.req then t.netLost slotMiss 2 r.src r.sch i else t)) ∧
    (q = m ++ g :: l → (∀ h ∈ m, h.last = false) → g.last = true → r.len < m.length + 1 → m.length < 16 →
      exec (.reservationOccurrence i f) s = .next (if r.req then t.netLost slotMiss 2 r.src r.sch i else t))) ∧
  (∀ (s : State) (n ch src sch : Nat) (c : Bool) (a b : List Msg) (m : Msg), s.sys.held = false → chanOk n ch = true →
    chanOk src sch = true → s.net.fly = a ++ m :: b → m.src = src → m.sch = sch → m.dst = n → m.dch = ch →
    let same := fun (x : Msg) => x.src = src ∧ x.sch = sch
    let room := fun (x : Msg) => (tget [] s.net.rx (32 * x.dst + x.dch)).length + x.flits.length ≤ 32
    let free := m.reserved = true ∨
      ∀ x ∈ a, x.waits = true → x.reserved = false → ∀ l ∈ x.links.getLast?.toList, l ∉ m.links
    ((∀ x ∈ a, ¬ same x) ∧ (m.waits = false ∨ room m ∨ ∀ x ∈ b, same x → x.reserved = false) ∨
      m.reserved = true ∧ ∃ (a1 a2 : List Msg) (h : Msg), a = a1 ++ h :: a2 ∧ same h ∧ h.waits = true ∧ ¬ room h ∧
        (∀ x ∈ a1, ¬ same x) ∧ h.reserved = false ∧ ∀ x ∈ a2, same x → x.reserved = false) →
    let q := tget [] s.net.rx (32 * n + ch)
    let gone := { s with net := { s.net with fly := a ++ b } }
    (¬ free → exec (.messageArrival n ch src sch c) s = .next s) ∧
    (free → exec (.messageArrival n ch src sch c) s =
      .next (if c then gone.netLost slotCorrupt 5 n ch
        else if s.open.chanDiked n ch then gone.netLost slotDikedrop 6 n ch
        else if q.length + m.flits.length ≤ 32 then
          { s with net := { s.net with
            fly := a ++ b
            rx := tset s.net.rx (32 * n + ch)
              (q ++ (List.range m.flits.length).map fun i =>
                ⟨(m.flits.getD i ⟨0, false⟩).data, decide (i + 1 = m.flits.length)⟩) } }
        else if m.reserved then gone.netLost slotRxdrop 3 n ch
        else { s with net := { s.net with fly := a ++ { m with waits := true } :: b } }))) ∧
  (∀ (s : State) (n ch : Nat) (d : Bind) (m l : List Flit) (g : Flit), s.sys.held = false → chanOk n ch = true →
    s.open.bindOf n ch = some d → tget [] s.net.tx (32 * n + ch) = m ++ g :: l → (∀ h ∈ m, h.last = false) → g.last = true →
    m.length < 16 → s.net.sluice = [] →
    exec (.bestEffortMessage n ch) s =
      .next (if s.open.chanDiked n ch then { s with net := { s.net with tx := tset s.net.tx (32 * n + ch) l } }.netLost slotDikedrop 6 n ch
        else { s with net := { s.net with
          tx := tset s.net.tx (32 * n + ch) l
          fly := s.net.fly ++ [⟨n, ch, d.dst, d.dch, m ++ [g], false, false⟩] } }))

/-- The matrix: requests, answers and its commit (10 R394 to R408; 15 R587). -/
def Obligations.MatrixRequestsAreAnsweredInOrder : Prop :=
  (∀ (s : State) (r : By) (a len : Nat) (data : Option (List Byte)), s.sys.held = false → byOk r = true →
    (reqOf r).who.legal = true → 1 ≤ len → len ≤ 2048 → (0x10000000 ≤ a ∨ (reqOf r).who.onMatrix = true) → (∀ b ∈ data.toList, b.length = len) →
    s.open.diked (reqOf r).who 0 = false →
    let z := (reqOf r).who
    let x := (⟨z, z.master, (reqOf r).ring, a, len, data, 0, []⟩ : MtxTxn)
    let went := fun (l : Loc) => z.map a = l
    let bad := (⟨0, [], some .busError⟩ : Resp)
    ((went (.mem a) ∨ went (.reg a) ∨ went (.pcie a)) →
      exec (.matrixRequest r a len data) s = .next { s with mtx := s.mtx ++ [x] }) ∧
    (went (.annex a) → s.annex.st = 2 → len % 4 = 0 → len ≤ 32 → a % 4 = 0 →
      exec (.matrixRequest r a len data) s =
        .next { s with annex := { s.annex with
          reqs := s.annex.reqs ++ [(s.annex.tag, x)], tag := (s.annex.tag + 1) % 256 } }) ∧
    (went (.annex a) → s.annex.st ≠ 2 → exec (.matrixRequest r a len data) s = .next { s with resp := bad }) ∧
    (went .none → z.onMatrix = true →
      exec (.matrixRequest r a len data) s =
        .next (if s.defSeen then { s.counted 0x40050208 with resp := bad } else
          { { s.counted 0x40050208 with
              defSeen := true
              regs := tset (tset (s.counted 0x40050208).regs 0x40050200 (w32 a)) 0x40050204
                (w32 (2 ^ 31 + 2 ^ 10 * (reqOf r).ring + 2 ^ 9 * b01 data.isSome + z.master)) }.withEvent 0x5F1
                (2 ^ 28 + 2 ^ 22 * z.master + 2 ^ 16 * 0x3F) s.open.now with
            resp := bad }))) ∧
  (∀ (s : State) (r : By) (target pa beats : Nat) (host : List Byte) (ref : Bool) (x : MtxTxn) (l q : List MtxTxn),
    s.sys.held = false → byOk r = true → target ≤ 63 → s.mtx = l ++ x :: q → x.master = (reqOf r).who.master →
    mtxTarget x.addr = target → (∀ y ∈ l, ¬ (y.master = x.master ∧ mtxTarget y.addr = target)) →
    let here := fun (m : Nat) => ∃ y ∈ s.mtx, mtxTarget y.addr = target ∧ y.master = m
    let passes := s.mtx.find? fun y => decide (mtxTarget y.addr = target) && decide (y.beats % 8 ≠ 0)
    let inRow := fun (m n : Nat) => here m ∧ n < s.open.mtxWeight m
    let turn := fun (m : Nat) => 33 ≤ target ∨ (∃ y, passes = some y ∧ y.master = m) ∨
      (passes = none ∧ match tfind s.arb target with
        | some (p, n) => p < 58 ∧ ((inRow p n ∧ m = p) ∨ (¬ inRow p n ∧ here m ∧ m < 58 ∧
            ∀ j < 58, here j → (m + 57 - p) % 58 ≤ (j + 57 - p) % 58))
        | none => here m ∧ m < 58 ∧ ∀ j < m, ¬ here j)
    let off := 32 * x.beats
    let k := min (max beats 1) (8 - x.beats % 8)
    let n := min (32 * k) (x.len - off)
    let row := match tfind s.arb target with
      | some (p, n) => if p = x.master ∧ n < s.open.mtxWeight p then n + 1 else 1
      | none => 1
    let arb := if x.beats % 8 = 0 then tset s.arb target (x.master, row) else s.arb
    let going := fun (bs : List Byte) =>
      { s with arb := arb, mtx := l ++ { x with beats := x.beats + k, got := x.got ++ bs } :: q }
    let done := fun (a : Resp) => { s with arb := arb, mtx := l ++ q, resp := a }
    let given := fun (bs : List Byte) =>
      if off + n < x.len then going bs else done { bytes := x.got ++ bs, data := w32 (leNat ((x.got ++ bs).take 4)) }
    (turn x.master →
      (x.write = none → mtxMap x.addr ≠ .pcie x.addr → x.who.map (x.addr + off) = .mem pa → pa + n ≤ 2 ^ 32 →
        s.cleanFor x.who pa n →
        exec (.matrixResponse r target beats 0 host ref) s = .next (given (s.bytesAt pa n))) ∧
      (∀ bs, x.write = some bs → bs.length = x.len → x.who.map (x.addr + off) = .mem pa → s.writableFor x.who pa n →
        ∃ m : State, exec (.matrixResponse r target beats 0 host ref) s = .next m ∧
          m = { (if off + n < x.len then going [] else done {}) with mem := m.mem } ∧
          ∀ c, m.mem.read c = if pa ≤ c ∧ c < pa + n then bs.getD (off + (c - pa)) 0 else s.mem.read c) ∧
      (x.write = none → mtxMap x.addr = .pcie x.addr → s.pcie.width ≠ 0 →
        exec (.matrixResponse r target beats 0 host ref) s =
          .next (if ref then done { err := some .busError }
            else given ((List.range n).map fun i => host.getD i 0)))) ∧
    (∀ m, turn m → m ≠ x.master → target ≤ 32 → exec (.matrixResponse r target beats 0 host ref) s = .next s)) ∧
  (∀ (s : State), s.committing .mtx →
    let weight := fun (i : Nat) => (s.snap .mtx (0x40050000 + 4 * (i / 8))).toNat / 2 ^ (4 * (i % 8)) % 16
    let park := fun (t : Nat) => (s.snap .mtx (0x40050040 + 4 * t)).toNat
    (∀ i < 64, weight i = 0 ↔ 58 ≤ i) → (∀ t < 35, park t < 64 ∨ (128 ≤ park t ∧ park t < 128 + 58)) →
      ∃ m : State, exec .mtxCommit s = .next m ∧ m = { s.finished .mtx .ok with regs := m.regs } ∧
        (∀ k < 8, m.open.rg (0x40050100 + 4 * k) = s.snap .mtx (0x40050000 + 4 * k)) ∧
        (∀ t < 35, m.open.rg (0x40050140 + 4 * t) = s.snap .mtx (0x40050040 + 4 * t)) ∧
        (∀ c, (∀ k < 8, c ≠ 0x40050100 + 4 * k) → (∀ t < 35, c ≠ 0x40050140 + 4 * t) → m.open.rg c = s.open.rg c))

/-- The culverts' channels (11 R411 to R440). -/
def Obligations.CulvertChannelsRunDescriptors : Prop :=
  (∀ (s : State) (c n a pa : Nat), s.committing (.cul c n) → culOk c n = true → a < 2 ^ 32 →
    let cmd := s.snap (.cul c n) (culReg c n + 0x40)
    let x := s.open.ch c n
    let staged := (List.range 16).map fun i => s.snap (.cul c n) (culReg c n + 4 * i)
    let y := { x with direct := true, desc := staged, st := 1, cur := 0, nxt := 0, atNext := false }
    let ended := fun (z : State) => z.finished (.cul c n) .ok
    (cmd = w32 (2 ^ 24) →
      (x.st = 0 → y.good c n → exec (.culStart c n) s = .next (ended (s.withChan c n y))) ∧
      (x.st ≠ 0 → exec (.culStart c n) s = .next (s.finished (.cul c n) .badValue 2 0xFFFF))) ∧
    (cmd = w32 (2 * 2 ^ 24) → s.snap (.cul c n) (culReg c n + 0x44) = w32 a →
      (x.st = 0 → a % 64 = 0 → s.descAt c a pa → (s.wordAt pa).getLsbD 31 = false ∨ Chan.good { desc := s.descWords pa } c n →
        exec (.culChain c n) s = .next (ended (s.withChan c n ({ x with direct := false }.took (s.descWords pa) a)))) ∧
      (x.st ≠ 0 → exec (.culChain c n) s = .next (s.finished (.cul c n) .badValue 2 0xFFFF))) ∧
    (cmd = w32 (3 * 2 ^ 24) →
      ((x.st = 1 ∨ (x.st = 4 ∧ x.nxt = x.cur)) → x.nxt < 2 ^ 32 → x.atNext = false →
        exec (.culHalt c n) s = .next (ended ((s.withChan c n { x with st := 6, halt := false }).culTells c n 4 .ok
          (if x.direct then 0 else x.nxt)))) ∧
      ((x.st = 2 ∨ x.st = 3) → exec (.culHalt c n) s = .next (ended (s.withChan c n { x with st := 5, halt := true }))) ∧
      ((x.st = 0 ∨ x.st = 6) → exec (.culHalt c n) s = .next (ended s))) ∧
    (cmd = w32 (4 * 2 ^ 24) →
      (x.st = 6 → x.direct = false → x.atNext = false → x.nxt = a → s.descAt c a pa →
        (s.wordAt pa).getLsbD 31 = false ∨ Chan.good { desc := s.descWords pa } c n →
        exec (.culResume c n) s = .next (ended (s.withChan c n (x.took (s.descWords pa) a)))) ∧
      (x.st = 6 → x.direct = true →
        exec (.culResume c n) s = .next (ended (s.withChan c n
          (if x.atNext then { x with st := 0, direct := false, desc := [] } else { x with st := 1 })))) ∧
      (x.st ≠ 6 → exec (.culResume c n) s = .next (s.finished (.cul c n) .badValue 2 0xFFFF)))) ∧
  (∀ (s : State) (c n pa : Nat), s.sys.held = false → culOk c n = true → (s.open.ch c n).direct = false →
    let x := s.open.ch c n
    (x.st = 1 → x.desc = [] → s.descAt c x.nxt pa → (s.wordAt pa).getLsbD 31 = false ∨ Chan.good { desc := s.descWords pa } c n →
      exec (.descriptorFetch c n) s = .next (s.withChan c n (x.took (s.descWords pa) x.nxt))) ∧
    (x.st = 4 → x.dbpend = true → x.atNext = false → s.descAt c x.cur pa →
      (s.wordAt pa).getLsbD 31 = false ∨ Chan.good { desc := s.descWords pa } c n →
      exec (.descriptorFetch c n) s = .next (s.withChan c n ({ x with dbpend := false }.took (s.descWords pa) x.cur))) ∧
    (x.st = 4 → x.dbpend = true → x.atNext = true → mtxMap (x.cur + 4) = .mem (pa + 4) → s.cleanFor (.cul c) (pa + 4) 4 →
      let v := s.wordAt (pa + 4)
      exec (.descriptorFetch c n) s =
        .next (s.withChan c n (if v.getLsbD 0 then { x with dbpend := false, desc := [] }
          else { x with dbpend := false, st := 1, nxt := v.toNat / 64 * 64, atNext := false, desc := [] })))) ∧
  (∀ (s : State) (r : By) (c : Nat) (v : Word), s.sys.held = false → byOk r = true → c < 28 →
    s.open.diked (reqOf r).who 0 = false → (reqOf r).ring ≤ 2 →
    let named := fun (n : Nat) => v.getLsbD n && (decide (n < 14) || decide ((reqOf r).ring ≤ 1))
    (∃ m : State, exec (.culDoorbell r c v) s = .next m ∧ m = { s with resp := {}, cul := m.cul } ∧
      (∀ n < 16, m.open.ch c n = if named n then { s.open.ch c n with dbpend := true } else s.open.ch c n) ∧
      ∀ k, k / 16 ≠ c → tget {} m.cul k = tget {} s.cul k) ∧
    ((∀ n < 16, named n → (s.open.ch c n).holds = false) →
      ∃ m : State, exec (.culDisable r c v) s = .next m ∧ m = { s with resp := {}, cul := m.cul } ∧
        (∀ n < 16, m.open.ch c n =
          if named n then { req := (s.open.ch c n).req, dbpend := (s.open.ch c n).dbpend } else s.open.ch c n) ∧
        ∀ k, k / 16 ≠ c → tget {} m.cul k = tget {} s.cul k) ∧
    (∀ n < 14, v = w32 (2 ^ n) → (s.open.ch c n).holds = true → (s.open.ch c n).direct = true →
      let x := s.open.ch c n
      let z := { s with regs := tset (tset s.regs (culReg c n + 0x64) (w32 x.pos)) (culReg c n + 0x5C) (w32 (2 ^ 30 + St.aborted.code)) }
      let undef := fun (b : Nat) => x.dnet = false ∧ ∃ q ∈ x.runs 0x10 0x28 (x.total + 1) x.pos (x.total - x.pos),
        ∃ i < q.2, (Who.cul c).phys (q.1 + i) = some b
      ∃ m : State, exec (.culDisable r c v) s = .next m ∧
        m = { (z.culTells c n 3 .aborted 0).withChan c n { req := x.req, dbpend := x.dbpend } with
          resp := {}, mem := m.mem, free := m.free } ∧ ∀ b, ¬ undef b → m.mem.read b = s.mem.read b)) ∧
  (∀ (s : State) (c n : Nat) (on : Bool), s.sys.held = false → culOk c n = true →
    let x := s.open.ch c n
    let mid := decide (x.st = 2) && (x.dw 8).getLsbD 30 && x.moved && x.req && !on && x.fail.isNone
    (x.st ≠ 3 → x.st ≠ 5 →
      exec (.culvertRequestChange c n on) s =
        .next (if mid then (s.withChan c n { x with req := on, st := if x.port < x.total then 3 else 2, moved := false }).counted (culReg c n + 0x70)
          else s.withChan c n { x with req := on }))) ∧
  (∀ (s : State) (c n src dst len : Nat), s.sys.held = false → c < 28 → n < 16 → s.open.diked (.cul c) 0 = false →
    let x := s.open.ch c n
    let e := 2 ^ ((x.dw 8).toNat / 2 ^ 24 % 4)
    let sees := fun (a : Nat) (wr : Bool) => mtxMap a = .mem a ∧ s.open.accErr (.cul c) a wr = none ∧ s.sound a
    let kind := (x.dw 8).toNat / 2 ^ 26 % 4
    let init := if kind = 1 then 0xFFFFFFFF else if kind = 2 then 0xFFFF else if kind = 3 then (x.dw 0x34).toNat % 2 ^ 16 else 0
    let moves := fun (m : State) (y : Chan) (q : Nat) =>
      let lens := fun (l : List (Nat × Nat × Nat)) => (l.map fun a => a.2.2).sum
      let rd := lens (x.accs 0xC 0x1C (y.pos + y.buf.length) q)
      let data := y.buf ++ s.bytesAt (src + y.pos + y.buf.length) rd
      let k := lens ((x.accs 0x10 0x28 y.pos q).filter fun a => decide (a.1 + a.2.2 ≤ min q (y.pos + data.length)))
      let sum := (data.take k).foldl (checkByte kind) (y.crc, y.odd)
      (∀ b, m.mem.read b = if dst + y.pos ≤ b ∧ b < dst + y.pos + k then data.getD (b - (dst + y.pos)) 0 else s.mem.read b) ∧
      m = { s.withChan c n { y with
          pos := y.pos + k, port := q, buf := data.drop k, crc := sum.1, odd := sum.2, moved := true
          last := (m.open.ch c n).last } with mem := m.mem, regs := m.regs } ∧
      ∀ b, b ≠ culReg c 0 + 0x100C → m.open.rg b = s.open.rg b
    (x.dw 8).toNat / 2 ^ 22 % 4 = 0 → x.loops = (len, 1, 1) → 0 < len →
    x.dw 0xC = w32 src → x.dw 0x10 = w32 dst → x.dw 0x1C = w32 e → x.dw 0x28 = w32 e → src + e * len ≤ 2 ^ 32 → dst + e * len ≤ 2 ^ 32 →
    (∀ i < e * len, sees (src + i) false ∧ sees (dst + i) true) → src + e * len ≤ dst ∨ dst + e * len ≤ src →
    (s.open.culHolder c = none → x.st = 1 → x.desc ≠ [] → (x.dw 8).getLsbD 30 = false ∨ x.req = true →
      (∀ j < 16, n < j → (s.open.ch c j).st ≠ 1 ∨ (s.open.ch c j).desc = [] ∨ ((s.open.ch c j).dw 8).getLsbD 30 = true ∧ (s.open.ch c j).req = false) →
      let y := { x with
        st := 2, cur := if x.direct then 0 else x.nxt, pos := 0, port := 0, buf := [], crc := init, odd := none, fail := none
        moved := false, last := none }
      ((x.dw 8).getLsbD 30 = true → exec (.descriptorStart c 0) s = .next (s.withChan c n y)) ∧
      ((x.dw 8).getLsbD 30 = false →
        ∃ m : State, exec (.descriptorStart c 0) s = .next m ∧ moves m y (e * len) ∧ (m.open.ch c n).pos = e * len)) ∧
    (s.open.culHolder c = some n → x.st ≠ 5 → x.fail = none → x.port < e * len → (x.dw 8).getLsbD 30 = true →
      let seg := min (256 - x.port % 256) (e * len - x.port)
      let edge := fun (b0 s0 p : Nat) => p = 0 ∨ ∃ a ∈ x.accs b0 s0 0 (e * len), a.1 + a.2.2 = p
      (x.port % 256 = 0 → x.req = false → exec (.portionStart c) s = .next (s.withChan c n { x with st := 3, moved := false })) ∧
      (x.port % 256 ≠ 0 ∨ x.req = true → edge 0x10 0x28 x.pos → edge 0xC 0x1C (x.pos + x.buf.length) →
        ∃ m : State, exec (.portionStart c) s = .next m ∧ moves m { x with st := 2 } (x.port + seg)))) ∧
  (∀ (s : State) (c n pa : Nat) (st : St), s.sys.held = false → c < 28 → n < 16 → s.open.culHolder c = some n →
    (∀ i < 4, ∀ v < 4, (s.open.cctx i v).paces c n = false) →
    let h := s.open.ch c n
    let x := { h with moved := false }
    let kind := (x.dw 8).toNat / 2 ^ 26 % 4
    let check := if st = St.ok ∧ kind ≠ 0 then some (w32 (if kind = 1 then x.crc ^^^ 0xFFFFFFFF else x.crc)) else none
    let stops := x.halt || (decide (st ≠ St.ok) && (x.dw 8).getLsbD 29)
    x.fail = (if st = St.ok then none else some st) → x.odd = none → x.pos < 2 ^ 32 → x.crc < 2 ^ 32 → (x.dw 8).getLsbD 28 = false →
    (st = St.ok → x.total ≤ x.port ∧ ∀ b ∈ x.last.toList, (x.dw 8).getLsbD 22 = true ∨ mtxMap b = .reg b ∨
      (mtxMap b = .mem b ∧ mtxMap (b / 4 * 4) = .mem (b / 4 * 4) ∧ s.cleanFor (.cul c) (b / 4 * 4) 4)) →
    (x.direct = true →
      let z := s.culEnded c n 0 st ((x.dw 8).getLsbD 31) x.pos check
      exec (.descriptorComplete c) s =
        .next (if stops then (z.withChan c n { x with st := 6, atNext := true, halt := false }).culTells c n 4 .ok 0
          else z.withChan c n { x with st := 0, direct := false, desc := [] })) ∧
    (x.direct = false → (∀ o < 64, o % 4 = 0 → mtxMap (x.cur + o) = .mem (pa + o)) → pa % 64 = 0 →
      (∀ o < 64, s.open.accErr (.cul c) (pa + o) true = none ∧ s.open.accErr (.cul c) (pa + o) false = none ∧ s.sound (pa + o)) →
      let g := s.culEnded c n x.cur st ((x.dw 8).getLsbD 31) x.pos check
      let w := (match check with | some v => g.poked (pa + 0x34) v | none => g)
      let q := (w.poked (pa + 0x38) (w32 x.pos)).poked pa (w32 (if st = St.ok then 0 else 2 ^ 30 + st.code))
      let link := s.wordAt (pa + 4)
      let nx := link.toNat / 64 * 64
      exec (.descriptorComplete c) s =
        .next (if link.getLsbD 0 then
            (if stops then (q.withChan c n { x with dbpend := false, st := 6, atNext := true, halt := false }).culTells c n 4 .ok x.cur
              else q.withChan c n { x with dbpend := false, st := 4, atNext := true, desc := [] })
          else if stops then
            (q.withChan c n { x with dbpend := false, st := 6, nxt := nx, atNext := false, desc := [], halt := false }).culTells c n 4 .ok nx
          else q.withChan c n { x with dbpend := false, st := 1, nxt := nx, atNext := false, desc := [] })))

/-- Event records (12 R442 to R458; 13 R516; 15 R588). -/
def Obligations.EventsAreNumberedAndRouted : Prop :=
  (∀ (s : State) (src payload time : Nat),
    let n := tget 0 s.evSeq src
    let ev := ({ src := src, seq := n, payload := payload % 2 ^ 32, time := time } : EvRec)
    let tgs := (List.range 4).filterMap fun j => if (s.open.route src j).getLsbD 31 then some (j, s.open.route src j) else none
    let hears := fun (d : Disp) => d.ctrl.getLsbD 31 && decide (d.ctrl.toNat % 2 ^ 11 = src) && decide (src ≠ 0x7FF)
    let z := (if tgs = [] then s.counted evrUnrouted else { s with router := s.router ++ [⟨ev, tgs⟩] })
    s.withEvent src payload time =
      { z with
        evSeq := tset s.evSeq src ((n + 1) % 2 ^ 16)
        disp := s.disp.map fun (c : Nat × Disp) => (c.1, if hears c.2 then { c.2 with box := c.2.box ++ [ev] } else c.2)
        pcie := { s.pcie with inbox := s.pcie.inbox ++ (s.open.vectors src).map fun v => (v, ev) } }) ∧
  (∀ (s : State) (r : By) (n : Nat) (v : Word), s.sys.held = false → byOk r = true → n < 256 →
    s.open.diked (reqOf r).who 0 = false → (reqOf r).ring ≤ 2 →
    exec (.evrDoorbellWrite r n v) s = .next { s.withEvent (0x640 + n) v.toNat s.open.now with resp := {} }) ∧
  (∀ (s : State) (src j e t : Nat) (a b : List Machine.Pending) (p : Machine.Pending) (g : Word) (sh : Bool) (pd : Nat) (dl : Option Nat),
    s.sys.held = false → src < 2048 → thrOk e t = true → s.router = a ++ p :: b → p.ev.src = src →
    let aims := fun (c : Nat × Word) =>
      decide ((if c.2.toNat % 256 = 0xFE then 192 else c.2.toNat % 256) = e) && decide (c.2.toNat / 2 ^ 16 % 4 = t)
    p.tgts.find? aims = some (j, g) → (∀ q ∈ a, q.ev.src = src → ∀ c ∈ q.tgts, aims c = false) →
    s.trace = [] → (∀ q < 24, (s.open.rg (trcReg q)).getLsbD 31 = false) →
    let k := tkey e t
    let left := (p.tgts.filter fun (c : Nat × Word) => decide (c.1 ≠ j))
    let z := { s with router := a ++ (if left = [] then b else { p with tgts := left } :: b) }
    let ml := tget 0 s.evLost (2048 * k + src)
    let note := { p.ev with int := g.getLsbD 30, lost := decide (0 < ml), many := decide (ml = 65536) }
    let got := { z with evLost := s.evLost.filter fun (c : Nat × Nat) => decide (c.1 ≠ 2048 * k + src) }
    let x := s.thread e t
    let fits := decide (x.evq.length < 32) && !s.open.thrDiked k
    (fits = true → x.wait = none →
      exec (.eventDelivery src e t) s = .next (got.withThread e t { x with evq := x.evq ++ [note] })) ∧
    (fits = true → x.wait = some { deadline := dl, pd := pd, shadow := sh } → x.run = .waiting → x.evq = [] →
      exec (.eventDelivery src e t) s =
        .next ((got.withThread e t
          (((List.range 4).foldl (fun (y : Thread) i => y.setSrc sh (103 + i) (note.words.getD i 0)) { x with evq := [], wait := none, run := .ready }).setP sh pd true)).kicked e t)) ∧
    (fits = false → x.wait = none →
      let q := (s.open.rg (0x40021000 + 4 * k)).toNat / 2 ^ 16
      let y := { z with evLost := tset s.evLost (2048 * k + src) (min (ml + 1) 65536), regs := tset s.regs (0x40021000 + 4 * k) (w32 (2 ^ 16 * min (q + 1) 0xFFFF)) }
      exec (.eventDelivery src e t) s =
        .next (if q = 0 then (y.counted evrDrops).withEvent 0x5F2 (2 ^ 28 + 2 ^ 20 * (if e = 192 then 0xFE else e) + 2 ^ 18 * t) s.open.now
          else y.counted evrDrops))) ∧
  (∀ (s : State) (a f n : Nat), s.committing .evr → a < 2 ^ 32 →
    s.snap .evr 0x40020000 = w32 a → s.snap .evr 0x40020004 = w32 f → s.snap .evr 0x40020008 = w32 n →
    1 ≤ n → f + n ≤ 2048 → a % 16 = 0 → mtxMap a = .mem a → s.cleanFor .weir a (16 * n) →
    let word := fun (i j : Nat) => s.wordAt (a + 16 * i + 4 * j)
    let thr := fun (v : Word) => (v.toNat % 2 ^ 8, v.toNat / 2 ^ 16 % 4)
    (∀ i < n, ∀ j < 4, (word i j).toNat / 2 ^ 18 % 2 ^ 12 = 0 ∧ (word i j).toNat / 2 ^ 8 % 2 ^ 8 = 0 ∧
      ((word i j).toNat % 2 ^ 8 < 192 ∨ (word i j).toNat % 2 ^ 8 = 0xFE) ∧
      ((word i j).getLsbD 31 = true → f + i < 0x740 ∧ ∀ l < j, (word i l).getLsbD 31 = true → thr (word i l) ≠ thr (word i j))) →
    ∃ m : State, exec .evrRouteCommit s = .next m ∧ m = { s.finished .evr .ok with routes := m.routes } ∧
      ∀ q, ∀ j < 4, m.open.route q j = if f ≤ q ∧ q < f + n then word (q - f) j else s.open.route q j)

/-- The tide (12 R461 to R469). That a SOURCE commit ends boot step 6 is the model's reading (notes/assumptions/28). -/
def Obligations.TheTideIsDisciplinedAndCompared : Prop :=
  (∀ (s : State), s.committing .tide →
    let cmd := (s.snap .tide (tideReg + 8)).toNat
    let k := cmd % 2 ^ 5
    let ppb := s.snap .tide (tideReg + 0xC)
    let step := (s.snap .tide (tideReg + 0x10)).toNat + 2 ^ 32 * (s.snap .tide (tideReg + 0x14)).toNat
    let first := (s.snap .tide (tideReg + 0x100 + 16 * k)).toNat + 2 ^ 32 * (s.snap .tide (tideReg + 0x104 + 16 * k)).toNat
    let pf := (s.snap .tide (tideReg + 0x10C + 16 * k)).toNat
    let per := 2 ^ 16 * (s.snap .tide (tideReg + 0x108 + 16 * k)).toNat + pf
    let ns := cmd / 2 ^ 12 % 2 ^ 2
    let fine := fun (z : State) => Host.Outcome.next (z.finished .tide .ok)
    let fails := fun (n : Nat) => (Host.Outcome.next (s.finished .tide .badValue n 0xFFFF) : Host.Outcome State Fault Refusal)
    k ≤ 29 → cmd / 2 ^ 5 % 2 ^ 3 = 0 → cmd / 2 ^ 9 % 2 ^ 3 = 0 → cmd / 2 ^ 14 % 2 ^ 2 = 0 → cmd / 2 ^ 19 % 2 = 0 →
    cmd / 2 ^ 20 % 2 ^ 2 ≠ 3 → cmd / 2 ^ 22 % 2 ^ 2 = 0 →
    (cmd / 2 ^ 24 = 1 →
      exec .tideSource s =
        if s.tide.st = 2 then fails 4
        else fine { s with
          tide := { s.tide with src := cmd / 2 ^ 20 % 2 ^ 2, port := cmd / 2 ^ 16 % 2 ^ 3 }
          sys := { s.sys with phase := if s.sys.phase = 6 then 7 else s.sys.phase } }) ∧
    (cmd / 2 ^ 24 = 2 →
      exec .tideAdjust s =
        if ppb.toInt < -100000 ∨ 100000 < ppb.toInt then fails 2 else fine { s with tide := { s.tide with adj := ppb } }) ∧
    (cmd / 2 ^ 24 = 3 →
      exec .tideStep s =
        if s.tide.st ≤ 1 ∧ s.net.live = none ∧ s.net.armed = none ∧ (∀ c ∈ s.tio, c.2.mode = 0 ∨ c.2.mode = 2) ∧
            (∀ c ∈ s.dlk, c.2.st = 0) ∧ s.tide.cmps = [] then
          fine { s with tide := { s.tide with count := (s.tide.count + step) % 2 ^ 64 } }
        else fails 3) ∧
    (cmd / 2 ^ 24 = 4 →
      exec .tideState s =
        if (ns = 2 ∧ s.tide.src = 0) ∨ (ns = 3 ∧ s.tide.st ≠ 2) then fails 4
        else if s.tide.st = ns then fine s
        else fine ({ s with tide := { s.tide with st := ns, sync := s.open.now } }.withEvent 0x5CF ns s.open.now)) ∧
    (cmd / 2 ^ 24 = 5 →
      (cmd / 2 ^ 8 % 2 = 1 → pf < 2 ^ 16 →
        exec .tideComparatorEnable s =
          if first < (s.open.cm .tide).acc + 1024 ∨ (per ≠ 0 ∧ per < 2 ^ 16 * 1024) then fails 5
          else fine { s with tide := { s.tide with cmps := tset s.tide.cmps k { n := 2 ^ 16 * first, p := per } } }) ∧
      (2 ^ 16 ≤ pf → (cmd / 2 ^ 8 % 2 = 1 → exec .tideComparatorEnable s = fails 1) ∧
        (cmd / 2 ^ 8 % 2 = 0 → exec .tideComparatorDisable s = fails 1)) ∧
      (cmd / 2 ^ 8 % 2 = 0 → pf < 2 ^ 16 →
        exec .tideComparatorDisable s =
          fine { s with tide := { s.tide with cmps := s.tide.cmps.filter fun (c : Nat × Cmp) => decide (c.1 ≠ k) } }))) ∧
  (∀ (s : State) (k : Nat) (c : Cmp), s.sys.held = false → k < 30 → tfind s.tide.cmps k = some c → s.open.now ≤ c.n / 2 ^ 16 →
    exec (.comparatorFire k) s =
      .next ({ s with tide := { s.tide with
        count := c.n / 2 ^ 16
        cmps := if c.p = 0 then s.tide.cmps.filter fun (x : Nat × Cmp) => decide (x.1 ≠ k)
          else tset s.tide.cmps k { n := c.n + c.p, p := c.p, fires := c.fires + 1 } } }.withEvent (0x5B0 + k) c.fires
        (c.n / 2 ^ 16))) ∧
  (∀ (s : State) (frac : Nat), s.sys.held = false → frac < 4 →
    let t := s.open.now
    exec (.ppsEdge frac) s =
      .next ({ s with
        regs := tset (tset (tset s.regs (tideReg + 0x2C) (w32 t)) (tideReg + 0x30) (w32 (t / 2 ^ 32))) (tideReg + 0x34)
          (w32 (2 ^ 14 * frac))
        tide := if s.tide.src = 1 ∧ s.tide.st = 2 then { s.tide with sync := t } else s.tide }.withEvent 0x5CE
        (2 ^ 30 * frac) t)) ∧
  (∀ (s : State), s.sys.held = false → s.tide.st = 2 → s.tide.src ≠ 0 →
    let t := max s.open.now (s.tide.sync + 1100000000)
    exec .holdoverTimeout s =
      .next ({ s with tide := { s.tide with count := t, st := 3, sync := t } }.withEvent 0x5CF 3 t))

/-- Timed pins (12 R470 to R488). -/
def Obligations.TimedPinsFireAndCapture : Prop :=
  (∀ (s : State) (n : Nat) (b : Bool), s.committing (.tio n) → n < 192 →
    let cw := s.snap (.tio n) (tioReg n)
    let par := s.snap (.tio n) (tioReg n + 4)
    let per := s.snap (.tio n) (tioReg n + 8)
    let md := cw.toNat % 8
    let p := s.open.pin n
    let q := { p with mode := md, cfg := cw, p0 := par, p1 := per }
    let sides := (q.has false, q.has true)
    let fine := fun (z : State) => (Host.Outcome.next (z.finished (.tio n) .ok) : Host.Outcome State Fault Refusal)
    cw.toNat < 2 ^ 28 → cw.toNat / 2 ^ 14 % 2 ^ 2 = 0 → cw.toNat / 2 ^ 3 % 2 ^ 8 = 0 → md ≠ 7 → (md = 2 → cw.toNat / 2 ^ 16 % 4 ≠ 0) →
    let unnamed := (md = 1 ∧ (2 ^ 24 ≤ per.toNat ∨ per.toNat / 2 ^ 8 % 2 ^ 8 ≠ 0)) ∨ (md = 2 ∧ 2 ^ 16 ≤ par.toNat) ∨
      ((md = 4 ∨ md = 5) ∧ 2 ^ 16 ≤ per.toNat) ∨ (md = 6 ∧ per.getLsbD 7 = true)
    let holds := fun (z : State) =>
      let y := z.open.pin n
      if (sides.1 || sides.2) && !y.hold && !(sides.1 && p.live.1) && !(sides.2 && p.live.2) then
        let h := (z.withPin n { y with hold := true }).pinTells n 7
        if par ≠ 0 ∧ y.queue = [] then h.safePin n else h
      else z
    (cw.toNat / 2 ^ 11 % 2 ^ 3 = 0 → unnamed → exec (.tioConfigure n) s = .next (s.finished (.tio n) .badValue 1 0xFFFF)) ∧
    (cw.toNat / 2 ^ 11 % 2 ^ 3 = 0 → ¬ unnamed → n % 2 = 1 → 4 ≤ md ∨ 4 ≤ (s.open.pin (n - 1)).mode →
      exec (.tioConfigure n) s = .next (s.finished (.tio n) .pinConflict 2 (n - 1))) ∧
    ((n % 2 = 1 → md < 4 ∧ (s.open.pin (n - 1)).mode < 4) → (4 ≤ md → (s.open.pin (n + 1)).mode = 0) →
      goodParams md (cw.getLsbD 18) par.toNat per.toNat →
      (cw.toNat / 2 ^ 11 % 2 ^ 3 = 0 →
        (p.queue = [] ∧ p.fifo = []) ∨ (md = p.mode ∧ cw.getLsbD 18 = p.cfg.getLsbD 18 ∧ cw.getLsbD 19 = p.cfg.getLsbD 19) →
        exec (.tioConfigure n) s =
          if md = 1 ∧ p.mode = 1 then
            fine (holds (s.withPin n { q with live := (p.live.1 && sides.1, p.live.2 && sides.2) }))
          else if md = 1 then
            fine (s.withPin n { q with live := sides, hold := false, safed := false, hist := [], level := cw.getLsbD 21 })
          else fine (s.withPin n { q with
            live := (false, false), hold := false, safed := false, hist := []
            period := if md = 3 ∧ p.mode = 3 then p.period else 0, duty := if md = 3 ∧ p.mode = 3 then p.duty else 0
            ab := if md = p.mode ∧ cw.getLsbD 19 = p.cfg.getLsbD 19 then p.ab
              else (p.ball != cw.getLsbD 19, (s.open.pin (n + 1)).ball != cw.getLsbD 19)
            popped := if md = p.mode then p.popped else none })) ∧
      (cw.toNat / 2 ^ 11 % 2 ^ 3 = 1 → md = 1 → p.mode = 1 →
        exec (.tioFlush n) s =
          fine (holds ((s.withPin n { q with live := (p.live.1 && sides.1, p.live.2 && sides.2), queue := [], hist := [], fifo := [] }).safePin n))) ∧
      (cw.toNat / 2 ^ 11 % 2 ^ 3 = (if b then 4 else 2) → md = 1 → p.mode = 1 → q.has b = true → p.alive b = false →
        (p.queue = [] ∧ p.fifo = []) ∨ (cw.getLsbD 18 = p.cfg.getLsbD 18 ∧ cw.getLsbD 19 = p.cfg.getLsbD 19) →
        exec (.tioJoin n) s =
          fine (s.withPin n { q with
            live := (if b then (p.live.1 && sides.1, true) else (true, p.live.2 && sides.2)), hold := false
            queue := p.queue.map Edge.alone, hist := p.hist.map Edge.alone })))) ∧
  (∀ (s : State) (r : By) (n tag : Nat) (b level : Bool) (l g : List Edge) (e : Edge), s.pushes r n b → tag < 256 →
    let p := s.open.pin n
    let base := tioReg n + (if b then 0x2C else 0x20)
    let t := (s.open.rg base).toNat + 2 ^ 32 * (s.open.rg (base + 4)).toNat
    let new := (⟨t, level, tag, b, false, false, none⟩ : Edge)
    let run := exec (.tioPush r n b level tag) s
    let fine := fun (z : State) => (Host.Outcome.next { z with resp := {} } : Host.Outcome State Fault Refusal)
    let openTag := fun (x : Edge) => decide (x.tag = tag) && !x.paired && (x.b == b || !x.nopair)
    (p.alive b = false → run = fine s) ∧
    (p.alive b = true → p.dual = false ∨ (p.queue ++ p.hist).any openTag = false →
      run = if p.queue.length < 16 then fine (s.queued n new b) else fine (s.pinTells n 3 b tag)) ∧
    (p.alive b = true → p.dual = true → (∃ x ∈ p.queue ++ p.hist, x.tag = tag ∧ x.b = b ∧ x.paired = false) →
      run = fine (s.pinTells n 4 b tag)) ∧
    (p.alive b = true → p.dual = true → p.queue = l ++ e :: g → e.tag = tag → e.b = !b → e.paired = false → e.nopair = false →
      (∀ x ∈ l ++ g ++ p.hist, openTag x = false) →
      run = if e.time = t ∧ e.level = level then fine (s.withPin n { p with queue := l ++ e.done :: g })
        else if b then fine ((s.pinTells n 5 b tag).withPin n { p with queue := l ++ e.done :: g })
        else fine (((s.pinTells n 5 b tag).withPin n { p with queue := l ++ g }).queued n { e.done with time := t, level := level } false)) ∧
    (p.alive b = true → p.dual = true → p.hist = l ++ e :: g → e.tag = tag → e.b = !b → e.paired = false → e.nopair = false →
      (∀ x ∈ l ++ g ++ p.queue, openTag x = false) →
      run = if e.time = t ∧ e.level = level then fine (s.withPin n { p with hist := l ++ e.done :: g })
        else fine ((s.pinTells n 5 b tag).withPin n { p with hist := l ++ e.done :: g }))) ∧
  (∀ (s : State) (r : By) (n : Nat) (b : Bool), s.pushes r n b →
    let p := s.open.pin n
    let other := p.has (!b) && p.alive (!b)
    let y := { p with live := (if b then (p.live.1, false) else (false, p.live.2)), queue := p.queue.map Edge.alone, hist := p.hist.map Edge.alone }
    let z := (s.withPin n y).pinTells n 6 b
    let h := (z.withPin n { y with hold := true }).pinTells n 7
    exec (.tioWithdraw r n b) s =
      .next (if p.alive b = false then { s with resp := {} }
        else if other || p.hold then { z with resp := {} }
        else if p.p0 ≠ 0 ∧ p.queue = [] then { h.safePin n with resp := {} }
        else { h with resp := {} })) ∧
  (∀ (s : State) (n : Nat) (l g : List Edge) (e : Edge), s.sys.held = false → n < 192 → (s.open.pin n).queue = l ++ e :: g →
    (∀ x ∈ l, e.due < x.due) → (∀ x ∈ g, e.due ≤ x.due) → s.open.now ≤ e.due →
    let p := s.open.pin n
    let tight := (l ++ g).any fun x => decide (x.due < e.due + 4)
    let z := (s.atTime e.due).withPin n { p with
      queue := l ++ g, hist := (p.hist ++ [e]).drop (p.hist.length - 15), fired := (p.fired + 1) % 2 ^ 16
      lastFire := e.due, level := if tight then p.level else e.level, safed := if tight then p.safed else false }
    exec (.edgeFire n) s =
      .next (if p.cfg.getLsbD 23 ∧ (l ++ g).length = p.cfg.toNat / 2 ^ 24 % 2 ^ 4 then z.pinTells n 1 else z)) ∧
  (∀ (s : State) (n : Nat), s.sys.held = false → n < 192 → (s.open.pin n).mode = 1 → (s.open.pin n).hold = true →
    (s.open.pin n).safed = false → (s.open.pin n).queue = [] → (s.open.pin n).p0 ≠ 0 →
    exec (.safeDrive n) s =
      .next ((s.atTime (max s.open.now ((s.open.pin n).lastFire + (s.open.pin n).p0.toNat))).safePin n)) ∧
  (∀ (s : State) (n t frac : Nat) (ball : Bool), s.sys.held = false → n < 192 → frac < 4 → (s.open.pin n).mode = 2 →
    let p := s.open.pin n
    let lv := ball != p.cfg.getLsbD 19
    let now := max s.open.now (t + p.p0.toNat % 2 ^ 16)
    let y := { p with ball := ball }
    exec (.captureEdge n ball t frac) s =
      .next (if p.cfg.getLsbD (if lv then 16 else 17) then
          (if p.fifo.length < 16 then (s.atTime now).withPin n { y with fifo := p.fifo ++ [(t, 2 ^ 14 * frac, lv)] }
            else ((s.atTime now).withPin n y).pinTells n 9).withEvent (2 * n) (2 ^ 30 * frac + b01 lv) t
        else (s.atTime now).withPin n y)) ∧
  (∀ (s : State) (r : By) (n : Nat) (t f : Nat) (lv : Bool) (g : List (Nat × Nat × Bool)), s.sys.held = false → byOk r = true →
    n < 192 → s.open.diked (reqOf r).who 0 = false →
    let p := s.open.pin n
    let gives := fun (z : State) (v : Word) => (Host.Outcome.next { z with resp := { data := v, bytes := leBytes 4 v.toNat } } : Host.Outcome State Fault Refusal)
    (p.fifo = [] →
      exec (.capPop r n) s = gives { s.withPin n { p with popped := none } with lat := tset s.lat (tioReg n + 0x3C) 0 } 0) ∧
    (p.fifo = (t, f, lv) :: g →
      exec (.capPop r n) s =
        gives { s.withPin n { p with fifo := g, popped := some (f, lv) } with lat := tset s.lat (tioReg n + 0x3C) (w32 (t / 2 ^ 32)) } (w32 t))) ∧
  (∀ (s : State) (n t bits : Nat) (a b ready : Bool), s.sys.held = false → n < 192 →
    let p := s.open.pin n
    let ia := a != p.cfg.getLsbD 19
    let ib := b != p.cfg.getLsbD 19
    let q := { p with ball := a, ab := (ia, ib) }
    let other := fun (c : Bool) => { s.open.pin (n + 1) with ball := c }
    let z := (s.withPin n { p with ball := a }).withPin (n + 1) (other b)
    let sets := fun (y : Pin) => (Host.Outcome.next (z.withPin n y) : Host.Outcome State Fault Refusal)
    let led := (ia != p.ab.1) && (ia != p.ab.2) || (ib != p.ab.2) && (ib == p.ab.1)
    (p.mode = 4 →
      exec (.encoderCount n a b) s =
        if (ia, ib) = p.ab then sets q
        else if ia ≠ p.ab.1 ∧ ib ≠ p.ab.2 then .next ((z.withPin n q).pinTells n 10)
        else sets { q with value := if led then p.value + 1 else p.value - 1 }) ∧
    (p.mode = 5 →
      exec (.encoderCount n a b) s =
        sets (if ia = true ∧ p.ab.1 = false then { q with value := if ib then p.value + 1 else p.value - 1 } else q)) ∧
    (p.p0 ≠ 0 → t % p.p0.toNat = 0 → s.open.now ≤ t →
      (p.mode = 4 ∨ p.mode = 5 → exec (.encoderSample n t) s = .next ((s.atTime t).withEvent (2 * n) p.value.toNat t)) ∧
      (p.mode = 3 →
        exec (.pwmPeriod n t) s = .next ((s.atTime t).withPin n { p with period := p.p0.toNat, duty := p.p1.toNat })) ∧
      (p.mode = 6 → ready = p.cfg.getLsbD 19 →
        exec (.ssiFrame n t ready bits) s = .next (((s.atTime t).withPin (n + 1) (other ready)).pinTells n 10)) ∧
      (p.mode = 6 → ready ≠ p.cfg.getLsbD 19 →
        let w := p.p1.toNat % 2 ^ 6
        let raw := fun (i : Nat) => bits.testBit i != p.cfg.getLsbD 19
        let bit := fun (i : Nat) => if p.p1.getLsbD 6 then (List.range (w - i)).foldl (fun x k => x != raw (i + k)) false else raw i
        let v := ((List.range w).map fun i => 2 ^ i * b01 (bit i)).sum
        exec (.ssiFrame n t ready bits) s =
          .next (((((s.atTime t).atTime (t + 2 * (p.p1.toNat / 2 ^ 8 % 2 ^ 12) * (w + 1))).withPin (n + 1)
            (other (bits.testBit 0))).withPin n { p with value := w32 v }).withEvent (2 * n) v t))))

/-- Drive links (12 R489 to R501). -/
def Obligations.DriveLinksExchange : Prop :=
  (∀ (s : State) (n : Nat) (tx rx : Option Fmt), s.committing (.dlk n) → n < 48 →
    let l := s.open.link n
    let word := fun (o : Nat) => s.snap (.dlk n) (dlkReg n + o)
    let cmd := word 0x2C
    let conf := word 0
    let val := fun (o : Nat) => (word o).toNat
    let a := conf.toNat / 2 ^ 16 % 2 ^ 8
    let b := conf.toNat / 2 ^ 24
    let fine := fun (z : State) (i : Nat) => (Host.Outcome.next (z.finished (.dlk n) .ok 0 i) : Host.Outcome State Fault Refusal)
    let fails := fun (st : St) (k : Nat) => (Host.Outcome.next (s.finished (.dlk n) st k 0xFFFF) : Host.Outcome State Fault Refusal)
    let long := fun (lead trail bit rxd rxw : Nat) => lead + outOf tx * bit + max trail (if rx = none then 0 else rxd + rxw)
    (cmd = w32 (2 ^ 24) → conf.toNat % 2 ^ 12 = 0 → val 4 < 2 ^ 16 →
      (l.st ≠ 0 → exec (.dlkStart n) s = fails .badValue 2) ∧
      (l.st = 0 → 50 ≤ val 4 → 1000 ≤ val 8 → val 0xC < val 8 →
        (∀ x ∈ [a, b], x < 192 ∨ x = 0xFE ∨ x = 0xFF) →
        (if conf.getLsbD 15 then a ≠ b ∧ a ≠ 0xFF ∧ b ≠ 0xFF else b = 0xFF) →
        s.keepsTable (word 0x1C) 0 tx → s.keepsTable (word 0x20) 1 rx →
        exec (.dlkStart n) s =
          if val 8 ≤ long (val 0x10 % 2 ^ 16) (val 0x10 / 2 ^ 16) (val 4) (val 0x14) (val 0x18) then fails .badValue 6
          else fine (s.withLink n { l with
            st := 1, cfg := conf, bit := val 4, period := val 8, phase := val 0xC, lead := val 0x10 % 2 ^ 16, trail := val 0x10 / 2 ^ 16
            rxdelay := val 0x14, rxwin := val 0x18, tx := tx, rx := rx, armed := none, sets := [], lastSet := none, window := none
            stopReq := false, next := (s.open.now + val 8 - val 0xC + val 8 - 1) / val 8
            live := (decide (a ≠ 0xFF), conf.getLsbD 15) }) 0)) ∧
    (cmd = w32 (2 * 2 ^ 24) → (l.st = 0 → val 4 < 2 ^ 16) →
      (l.armed ≠ none → exec (.dlkTables n) s = fails .tableBusy 2) ∧
      (l.armed = none → s.keepsTable (word 0x1C) 0 tx → s.keepsTable (word 0x20) 1 rx →
        exec (.dlkTables n) s =
          if l.st = 0 then
            if val 8 ≤ long (val 0x10 % 2 ^ 16) (val 0x10 / 2 ^ 16) (val 4) (val 0x14) (val 0x18) then fails .badValue 6
            else fine (s.withLink n { l with tx := tx, rx := rx }) 0
          else if l.period ≤ long l.lead l.trail l.bit l.rxdelay l.rxwin then fails .badValue 6
          else fine (s.withLink n { l with armed := some (tx, rx, val 0x24 + 2 ^ 32 * val 0x28) }) 0)) ∧
    (cmd = w32 (3 * 2 ^ 24) →
      exec (.dlkStop n) s = fine (s.withLink n (if l.window.isSome then { l with stopReq := true } else l.stopped)) 0) ∧
    (cmd = w32 (4 * 2 ^ 24) →
      exec (.dlkDisarm n) s = fine (s.withLink n { l with armed := none }) (b01 l.armed.isSome)) ∧
    (cmd.toNat / 4 = 5 * 2 ^ 22 → l.st ≠ 0 →
      let ja := cmd.getLsbD 0 && l.has false && !l.live.1
      let jb := cmd.getLsbD 1 && l.has true && !l.live.2
      exec (.dlkJoin n) s =
        fine (if ja || jb then s.withLink n { l with
            st := 1, live := (l.live.1 || ja, l.live.2 || jb), sets := l.sets.filter fun x => if x.b then !jb else !ja }
          else s) 0)) ∧
  (∀ (s : State) (r : By) (n tag : Nat) (b : Bool), s.feeds r n b → tag < 2 ^ 16 →
    let l := s.open.link n
    let c := l.next.toNat
    let d := (tag + 2 ^ 16 - c % 2 ^ 16) % 2 ^ 16
    let src := dlkReg n + (if b then 0x140 else 0x100)
    let fine := fun (z : State) => (Host.Outcome.next { z with resp := {} } : Host.Outcome State Fault Refusal)
    (l.alive b = false → exec (.dlkPush r n b tag) s = fine s) ∧
    (l.alive b = true → 4 ≤ d → exec (.dlkPush r n b tag) s = fine (s.linkTells n 3 7 (c + d) b)) ∧
    (l.alive b = true → d < 4 → (c + d) * l.period + l.phase ≤ s.open.now + l.lead + 256 →
      exec (.dlkPush r n b tag) s = fine (s.linkTells n 3 6 (c + d) b)) ∧
    (l.alive b = true → d < 4 → s.open.now + l.lead + 256 < (c + d) * l.period + l.phase →
      let tx := l.armed.elim l.tx fun q => if q.2.2 ≤ (c + d) * l.period + l.phase then q.1 else l.tx
      let len := (match (tx : Option Fmt) with | some f => f.srclen | none => 0)
      exec (.dlkPush r n b tag) s =
        fine (s.withLink n { l with
          sets := (l.sets.filter fun x => !(decide (x.cycle = c + d) && x.b == b)) ++
            [{ cycle := c + d, b := b, words := (List.range len).map fun i => s.open.rg (src + 4 * i) }] })) ∧
    (l.alive b = false → exec (.dlkWithdraw r n b) s = fine s) ∧
    (l.alive b = true →
      let y := { l with live := (if b then (l.live.1, false) else (false, l.live.2)), wdAt := (if b then (l.wdAt.1, s.open.now) else (s.open.now, l.wdAt.2)) }
      let told := (s.withLink n y).linkTells n 3 3 c b
      exec (.dlkWithdraw r n b) s =
        fine (if l.st = 1 ∧ l.runs (!b) = false then (told.withLink n { y with st := 2 }).linkTells n 3 4 c else told))) ∧
  (∀ (s : State) (n c : Nat), s.sys.held = false → n < 48 → (s.open.link n).st ≠ 0 → (s.open.link n).stopReq = false →
    (s.open.link n).next = c →
    let x := s.open.link n
    let t := c * x.period + x.phase
    let h := (x.armed.elim x fun q => if q.2.2 ≤ t then { x with tx := q.1, rx := q.2.1, armed := none } else x)
    let l := h.pad c (Config.freeValue 1536 s.free)
    let z := { s.atTime (max s.open.now (t - x.lead)) with free := s.free + b01 (h.short c) }
    let sends := fun (y : State) (set : Option (List Word)) =>
      (Host.Outcome.next (if l.cfg.getLsbD 14 then (y.withLink n (l.sent c set)).linkTells n 1 1 c else y.withLink n (l.sent c set)) : Host.Outcome State Fault Refusal)
    let run := exec (.dlkExchange n) s
    (l.st = 1 →
      (∀ p q, l.runs false = true → l.runs true = true → l.setFor c false = some p → l.setFor c true = some q →
        run = if p.take (srcWords l.tx) = q.take (srcWords l.tx) then sends z (some p) else sends ((z.linkTells n 3 1 c).counted (dlkReg n + 0x4C)) (some p)) ∧
      (∀ p, l.runs false = true → l.setFor c false = some p → l.runs true = false ∨ l.setFor c true = none →
        run = sends (if l.runs true then z.linkTells n 3 2 c false else z) (some p)) ∧
      (∀ q, l.runs true = true → l.setFor c true = some q → l.runs false = false ∨ l.setFor c false = none →
        run = sends (if l.runs false then z.linkTells n 3 2 c true else z) (some q)) ∧
      (l.runs false = false ∨ l.setFor c false = none → l.runs true = false ∨ l.setFor c true = none →
        run = sends ((z.linkTells n 1 2 c).counted (dlkReg n + 0x48)) (if l.cfg.getLsbD 13 then none else l.lastSet))) ∧
    (l.st = 2 →
      let last := (if l.dual = false then l.setFor c false
        else if l.wdAt.1 = l.wdAt.2 then (if l.setFor c false = none then l.setFor c true else l.setFor c false)
        else l.setFor c (decide (l.wdAt.1 < l.wdAt.2)))
      run = if last = none then .next ((z.withLink n l.stopped).linkTells n 3 5 c) else sends z last)) ∧
  (∀ (s : State) (n c t lo hi : Nat) (tb : Fmt) (bits : List Bool) (coded : Bool), s.sys.held = false → n < 48 →
    (s.open.link n).window = some (lo, hi) → (s.open.link n).next = c + 1 →
    let l := s.open.link n
    let y := if l.stopReq then l.stopped else { l with window := none }
    let z := s.atTime (max s.open.now (t + tb.outlen * l.bit))
    let fr := (bits ++ List.replicate tb.outlen (bits.getLastD true)).take tb.outlen
    let bad := fun (i : Nat) => (Host.Outcome.next (((z.linkTells n 2 2 c false i).counted (dlkReg n + 0x50)).withLink n y) : Host.Outcome State Fault Refusal)
    (exec (.dlkRxTimeout n) s =
      .next ((((s.atTime (max s.open.now hi)).linkTells n 2 1 c).counted (dlkReg n + 0x50)).withLink n y)) ∧
    (l.rx = some tb → t < l.deEnd → exec (.dlkFrameReceived n t bits coded) s = .next s) ∧
    (l.rx = some tb → lo ≤ t → t < hi → l.deEnd ≤ t →
      let run := exec (.dlkFrameReceived n t bits coded) s
      let ws := takeFields tb fr ((List.range 16).map fun i => s.open.rg (dlkReg n + 0x180 + 4 * i))
      (l.cfg.getLsbD 12 = true → coded = false → run = bad 0xFF) ∧
      (l.cfg.getLsbD 12 = false ∨ coded = true →
        (∀ i < 64, badElem tb fr = some i → run = bad i) ∧
        (badElem tb fr = none →
          run = .next ((((z.wrote ((List.range 16).map fun i => (dlkReg n + 0x180 + 4 * i, ws.getD i 0))).wrote
              [(dlkReg n + 0x54, w32 t), (dlkReg n + 0x58, w32 (t / 2 ^ 32))]).withEvent (0x180 + 4 * n) (ws.getD 0 0).toNat t).withLink n y)))))

/-- The Weir's periods (13 R502 to R534). Where several sensors read TMAX, the first is its sensor
(notes/assumptions/30); which periods count toward a polder's sleep is the model's reading (notes/assumptions/63). -/
def Obligations.TheWeirRunsInPeriods : Prop :=
  (∀ (s : State) (n : Nat) (temps : List Int) (pols : List (Nat × Nat × Nat)) (t : Tbl Word), s.sys.held = false →
    temps.length = 32 → pols.length = 24 → s.open.now ≤ 32768 * n → s.weir.next = some t →
    let word := fun (a : Nat) => tget (stgReset a) t a
    let live := (List.range 3).map (fun i => (weirReg + 0x100 + 4 * i, word (weirReg + 4 * i))) ++
      (List.range 24).flatMap fun p => (List.range 4).map fun i => (pldReg p + 0x10 + 4 * i, word (pldReg p + 4 * i))
    let clip := fun (p : Nat) (x : Pol) => ({ x with bal := min x.bal ((word (pldReg p + 8)).toNat % 2 ^ 16 * x.grant), vgo := if x.vgo.getD x.volt < (word (pldReg p + 4)).toNat / 2 ^ 12 % 8 then some ((word (pldReg p + 4)).toNat / 2 ^ 12 % 8) else x.vgo, awake := x.awake || decide ((s.polWord p 3).toNat / 2 ^ 24 = 0) } : Pol)
    let ps := (List.range 24).foldl (fun (q : Tbl Pol) p => tset q p (clip p (tget {} q p))) s.weir.pols
    exec (.weirPeriodBoundary n temps pols) s = exec (.weirPeriodBoundary n temps pols)
      (({ ((s.atTime (32768 * n)).wrote live) with weir := { s.weir with next := none, pols := ps } }).withEvent 0x5AA (2 ^ 28) (32768 * n))) ∧
  (∀ (s : State) (n k : Nat) (temps : List Int) (pols : List (Nat × Nat × Nat)), s.sys.held = false →
    temps.length = 32 → pols.length = 24 → s.open.now ≤ 32768 * n → s.weir.next = none → k < 32 →
    (∀ i < 32, temps.getD i 0 ≤ temps.getD k 0) → (∀ i < k, temps.getD i 0 < temps.getD k 0) →
    let q := temps.getD k 0
    let state := if q ≤ s.throt then 0 else if q < s.limit then 1 else 2
    let tells := fun (g : State) (kind : Nat) => g.withEvent 0x5A8 (2 ^ 28 * kind + 2 ^ 16 * k + (q % 2 ^ 16).toNat) (32768 * n)
    let y := s.atTime (32768 * n)
    let left := if s.weir.st = 2 ∧ state ≠ 2 then tells y 4 else y
    let heat := if state = s.weir.st then y else tells left (if state = 0 then 2 else if state = 1 then 1 else 3)
    let z := if state = 0 then heat else heat.counted (weirReg + 0x20)
    let met := ({ time := 32768 * n, tmax := q, sensor := k, temps := temps, pols := pols } : Meas)
    let wr := { s.weir with st := state, meas := some met, trip := (if s.limit + 40 ≤ q then s.weir.trip + 1 else 0), period := s.weir.period + 1 }
    let used := fun (p : Nat) => (pols.getD p (0, 0, 0)).1
    ((∀ p < 24, s.sleepsAt p = false) →
      ∃ m : State, exec (.weirPeriodBoundary n temps pols) s = .next m ∧ m = { z with weir := { wr with pols := m.weir.pols } } ∧
        (∀ p, 24 ≤ p → tget {} m.weir.pols p = tget {} s.weir.pols p) ∧
        ∀ p < 24, m.open.pol p = (s.open.pol p).metered n (used p) (s.quietAt p) (s.stillAt p)) ∧
    (∀ b < 24, s.sleepsAt b → (∀ p < 24, p ≠ b → s.sleepsAt p = false) → (s.polWord b 3).toNat % 2 ^ 11 = 0 →
      let lo := s.inDip (max (s.floorNow b) (s.opField b 1))
      ∃ m : State, exec (.weirPeriodBoundary n temps pols) s = .next m ∧
        m = { z.withEvent (0x590 + b) (6 * 2 ^ 28) (32768 * n) with weir := { wr with pols := m.weir.pols } } ∧
        (∀ p, p ≠ b → p < 24 → m.open.pol p = (s.open.pol p).metered n (used p) (s.quietAt p) (s.stillAt p)) ∧
        m.open.pol b = ({ ((s.open.pol b).metered n (used b) ((s.polWord b 3).toNat / 2 ^ 24) true) with sleep := true, slept := [], target := lo } : Pol).towards lo)) ∧
  (∀ (s : State) (met : Meas), s.sys.held = false → s.weir.meas = some met → met.temps.length = 32 →
    s.throt < s.limit → s.bmin ≤ (s.weirWord 0).toNat % 2 ^ 16 → (∀ p < 24, s.minOf p ≤ s.capOf p) →
    (∀ p < 24, max (s.floorSoon p) (s.opField p 1) ≤ s.opField p 2) →
    let t := max s.open.now (met.time + 2048)
    let used := fun (p : Nat) => met.pols.getD p (0, 0, 0)
    let goes := fun (p : Nat) => if (s.open.pol p).sleep then s.inDip (max (s.floorSoon p) (s.opField p 1)) else s.targetAt met.tmax p (used p).2.1 (used p).2.2
    let wr := { s.weir with meas := none, beff := (s.beffAt met.tmax).toNat, tmax := met.tmax, sensor := met.sensor, lim := decide (s.limit ≤ met.tmax) }
    ∃ m : State, exec .weirGrantApply s = .next m ∧
      m = { (s.atTime t).wrote ((List.range 32).map fun i => (weirReg + 0x80 + 4 * i, w32 ((met.temps.getD i 0) % 2 ^ 16).toNat)) with weir := { wr with pols := m.weir.pols } } ∧
      (∀ p, 24 ≤ p → tget {} m.weir.pols p = tget {} s.weir.pols p) ∧
      ∀ p < 24,
        let x := s.open.pol p
        let y := ({ x with grant := (s.grantAt met.tmax p).toNat, bal := s.balAt met.tmax p, meter := (x.meter + (used p).1) % 2 ^ 64, laste := (used p).1, busy := (used p).2.1, policy := s.targetAt met.tmax p (used p).2.1 (used p).2.2, target := goes p } : Pol)
        m.open.pol p = if goes p = x.goal.getD x.cur then y else y.towards (goes p)) ∧
  (∀ (s : State), s.sys.held = false → s.weir.meas = none →
    let fits := fun (p : Nat) => (s.open.pol p).scaled.elim ((s.open.pol p).scale : Int) fun c => if 0 < c.2 ∧ c.1 ≤ 8 * c.2 then (s.open.pol p).scale + (((512 * c.1 / c.2 : Nat) : Int) - (s.open.pol p).scale) / 4 else (s.open.pol p).scale
    let out := fun (p : Nat) => (s.open.pol p).scaled.any (fun c => decide (0 < c.2 ∧ c.1 ≤ 8 * c.2)) && (decide (fits p < 0x80) || decide (0x400 < fits p))
    let told := ((List.range 24).filter out).foldl (fun z p => z.withEvent 0x5AA (2 * 2 ^ 28 + p) s.open.now) s
    (∀ p < 24, (s.open.pol p).scaled = none → 0x80 ≤ (s.open.pol p).scale ∧ (s.open.pol p).scale ≤ 0x400) →
    ∃ m : State, exec .scaleUpdate s = .next m ∧ m = { told with weir := { s.weir with pols := m.weir.pols } } ∧
      (∀ p, 24 ≤ p → tget {} m.weir.pols p = tget {} s.weir.pols p) ∧
      ∀ p < 24, m.open.pol p = { s.open.pol p with scaled := none, scale := (if out p then max 0x80 (min 0x400 (fits p)) else fits p).toNat }) ∧
  (∀ (s : State) (p v : Nat), s.sys.held = false → p < 24 →
    ((s.open.pol p).vgo = some v →
      exec (.regulatorSettled p) s =
        .next { s with weir := { s.weir with pols := tset s.weir.pols p { s.open.pol p with volt := v, vgo := none } } }) ∧
    ((s.open.pol p).vgo = none → exec (.regulatorSettled p) s = .next s)) ∧
  (∀ (s : State), s.committing .weir →
    let word := fun (i : Nat) => (s.snap .weir (weirReg + 4 * i)).toNat
    let pw := fun (p i : Nat) => (s.snap .weir (pldReg p + 4 * i)).toNat
    let throt := ((s.snap .weir (weirReg + 8)).setWidth 16).toInt
    let limit := ((s.snap .weir (weirReg + 8) >>> 16).setWidth 16).toInt
    let fails := fun (st : St) (k i : Nat) => (Host.Outcome.next (s.finished .weir st k i) : Host.Outcome State Fault Refusal)
    let point := fun (p i : Nat) => pw p 1 / 2 ^ (4 * i) % 8
    let odd := fun (p : Nat) => decide (pw p 1 / 2 ^ 16 ≠ 0) || decide (pw p 1 / 2 ^ 11 % 2 = 1) || decide (pw p 1 / 2 ^ 7 % 2 = 1) || decide (pw p 1 / 2 ^ 3 % 2 = 1) || decide (pw p 2 / 2 ^ 16 ≠ 0) || decide (pw p 3 / 2 ^ 11 % 2 ^ 13 ≠ 0) || (List.range 4).any (fun i => decide (5 < point p i)) || decide (point p 2 < point p 1) || decide (pw p 2 = 0)
    let hard := fun (p : Nat) => s.disp.any fun (c : Nat × Disp) => decide (c.1 / 256 = p) && c.2.ctrl.getLsbD 31 && decide (c.2.ctrl.toNat / 2 ^ 28 % 4 = 0)
    let sunk := fun (p : Nat) => decide (point p 2 < max (s.net.live.elim 0 fun q => floorByte (q.floor.getD p 0xFF)) (s.open.pol p).img) || (decide (pw p 0 / 2 ^ 16 = 0) && hard p)
    let polder := fun (f : Nat → Bool) => (List.range 24).find? f
    exec .weirCommit s =
      if 2 ^ 16 ≤ word 0 ∨ 2 ^ 16 ≤ word 1 then fails .badValue 1 0xFFFF
      else (polder odd).elim
        (if limit ≤ throt ∨ throt < 0 ∨ (if s.part.gradeE then 500 else 420) < limit then fails .budgetInvalid 2 0xFFFF
        else (polder fun p => decide (pw p 0 % 2 ^ 16 < pw p 0 / 2 ^ 16)).elim
          (if word 0 < word 1 + ((List.range 24).map fun p => pw p 0 / 2 ^ 16).sum ∨ 19000 < word 0 then fails .budgetInvalid 4 0xFFFF
          else (polder sunk).elim
            (.next ({ s with weir := { s.weir with next := some (s.open.cm .weir).snap } }.finished .weir .ok))
            (fails .budgetInvalid 5))
          (fails .budgetInvalid 3))
        (fails .badValue 1))

/-- The dispatch queues (13 R514 to R525). What a supply warning bounds at a wake, and the period of a release, are the
model's reading and its own field: notes/assumptions/63. -/
def Obligations.DispatchersReleaseAdmitAndStart : Prop :=
  (∀ (s : State) (r : By) (p j o : Nat) (v : Word), s.sys.held = false → byOk r = true → s.open.diked (reqOf r).who 0 = false →
    (reqOf r).top = true → p < 24 → j < 256 → o < 64 → o % 4 = 0 →
    let x := s.entry p j
    let q := s.open.pol p
    let y := if o = 4 then { x with pc := v } else if o = 8 then { x with deadline := v } else if o = 0xC then { x with job := v } else if 0x10 ≤ o ∧ o < 0x28 then { x with energy := x.energy.set ((o - 0x10) / 4) v } else x
    let fine := fun (g : Pol) (z : Disp) => (Host.Outcome.next { (s.withPol p g).withEntry p j z with resp := {} } : Host.Outcome State Fault Refusal)
    let off := { x with ctrl := v &&& 0xBC7F07FF, box := [], st := (if x.st = 1 ∨ x.st = 2 then 0 else x.st), wait := 0 }
    exec (.dispatchEntryWrite r p j o v) s =
      if (o = 0 ∧ v.getLsbD 31 = false) then
        fine { q with
          ceil := (if q.ceil.any (fun c => decide (c.2 = j)) then none else q.ceil), more := (if q.ceil.any (fun c => decide (c.2 = j)) then [] else q.more.filter fun i => i != j) } off
      else if x.ctrl.getLsbD 31 then .next { s with resp := { err := some .busError } }
      else fine q (if o = 0 then { x with ctrl := v &&& 0xBC7F07FF } else y)) ∧
  (∀ (s : State) (p j : Nat) (rc : EvRec) (l : List EvRec), s.sys.held = false → p < 24 → j < 256 → (s.entry p j).box = rc :: l →
    let x := s.entry p j
    let z := s.withEntry p j { x with box := l }
    let q := s.open.pol p
    let heard := { x with box := l, rel := rc.time, payload := rc.payload }
    let lo := max (s.floorNow p) (s.opField p 1)
    (x.ctrl.getLsbD 31 = false → exec (.jobRelease p j) s = .next z) ∧
    (x.ctrl.getLsbD 31 = true →
      ∃ m : State, exec (.jobRelease p j) s = .next m ∧
        (x.kind = 0 → s.open.inService (x.engine p) = true →
          m.tracedFrom ((s.withEntry p j { heard with runs := x.runs + 1 }).chargedFor p j q.cur) p) ∧
        (x.kind = 0 → s.open.inService (x.engine p) = false →
          m.tracedFrom (s.withEntry p j { heard with runs := x.runs + 1 }) p) ∧
        (x.kind ≠ 0 → x.st ≠ 0 → m.tracedFrom (z.outcomeOf p j 3) p) ∧
        (x.kind ≠ 0 → x.st = 0 → q.sleep = false → m.tracedFrom ((s.withEntry p j { heard with st := 1, wait := 0 }).withPol p { q with relIn := s.weir.period }) p) ∧
        (x.kind ≠ 0 → x.st = 0 → q.sleep = true → (∀ b ∈ q.slept, (s.open.bk p b).st = 1) → q.slept.Nodup →
          let up := s.inDip (max q.policy lo)
          let g := ({ q with sleep := false, quiet := 0, target := up, relIn := s.weir.period } : Pol).towards up
          m.tracedFrom { (((s.withEntry p j { heard with st := 1, wait := 0 }).withPol p g).withEvent (0x590 + p) (7 * 2 ^ 28) s.open.now) with bank := m.bank } p ∧
          (∀ b < 64, m.open.bk p b = if b ∈ q.slept then { s.open.bk p b with st := 3, goal := 2, zf := false } else s.open.bk p b) ∧
          ∀ d < 25, d ≠ p → ∀ b < 64, m.open.bk d b = s.open.bk d b))) ∧
  (∀ (s : State) (p j : Nat), s.sys.held = false → p < 24 → j < 256 →
    let x := s.entry p j
    let q := s.open.pol p
    let asks := fun (k : Nat) => s.disp.any fun (c : Nat × Disp) => decide (c.1 = 256 * p + k) && decide (c.2.st = 1) && (decide (c.2.kind = 1) || decide (c.2.kind = 2))
    let ns := ((x.due : Int) - s.open.now) / 32768
    let op := q.ceil.elim q.cur fun c => c.1
    let cost := fun (o : Nat) => (x.charged q.scale o : Int)
    let firm := decide (x.kind = 1)
    let tokens := if firm then q.bal + q.grant * ns else q.bal
    let waits := fun (n : Nat) => (Host.Outcome.next (s.withEntry p j { x with wait := n }) : Host.Outcome State Fault Refusal)
    let banks := q.slept.all fun b => decide ((s.open.bk p b).st = 2)
    let lower := fun (o : Nat) => decide (max (s.floorNow p) (s.opField p 1) ≤ o) && decide (o < q.cur) && decide (cost o ≤ tokens)
    let auto := firm && (s.polWord p 1).getLsbD 15 && decide (q.ceil = none)
    let run := exec (.jobAdmit p) s
    (s.weir.lim = true → run = .next s) ∧
    ((∀ k < 256, asks k = false) → run = .next s) ∧
    (s.weir.lim = false → asks j = true → (∀ k < 256, k ≠ j → asks k = false) → (∀ c ∈ s.disp, tfind s.disp c.1 = some c.2) →
      (q.ceil.any (fun c => decide (c.2 = j)) || q.more.contains j) = false →
      (banks = false → run = waits 3) ∧
      (banks = true → s.open.inService (x.engine p) = false → run = .next s) ∧
      (banks = true → s.open.inService (x.engine p) = true →
        ((∀ t < 4, s.freeFor p x t = false) → run = waits 2) ∧
        (∀ t < 4, s.freeFor p x t → (∀ i < t, s.freeFor p x i = false) →
          (cost op ≤ tokens → q.ceil = none → ∃ m : State, run = .next m ∧ m.tracedFrom (s.admitted p j op t) p) ∧
          (cost op ≤ tokens → q.ceil ≠ none → run = .next (s.withPol p { q with more := q.more ++ [j] })) ∧
          (tokens < cost op → auto = false → run = waits 1) ∧
          (tokens < cost op → auto = true →
            ((∀ o < q.cur, lower o = false) → run = waits 1) ∧
            (∀ o < 6, lower o → (∀ k < q.cur, lower k → k ≤ o) →
              run = .next (s.withPol p (({ q with ceil := some (o, j) } : Pol).towards o))))))) ∧
    (∀ i < 256, s.weir.lim = false → asks i = true → asks j = true → (∀ k < 256, k ≠ j → k ≠ i → asks k = false) →
      (∀ c ∈ s.disp, tfind s.disp c.1 = some c.2) → banks = true → q.ceil = none → q.more = [] →
      x.kind = 1 → (s.entry p i).kind = 2 → s.open.inService (x.engine p) = true → s.open.inService ((s.entry p i).engine p) = true →
      (List.range 4).any (s.freeFor p x) → (List.range 4).any (s.freeFor p (s.entry p i)) → (s.polWord p 1).getLsbD 15 = false → tokens < cost q.cur →
      run = .next ((s.withEntry p j { x with wait := 1 }).withEntry p i { s.entry p i with wait := 1 }))) ∧
  (∀ (s : State) (p j : Nat), s.sys.held = false → p < 24 → j < 256 →
    let x := s.entry p j
    let k := 4 * x.engine p + x.thread
    let h := s.open.th k
    let four := tset (tset (tset (tset h.d 0 (w32 x.payload)) 1 (w32 j)) 2 (w32 x.rel)) 3 (w32 (x.rel / 2 ^ 32))
    let rg := x.ctrl.toNat / 2 ^ 26 % 4
    let y := { h with d := four, run := .ready, pc := x.pc, ring := rg, stk := false, shadow := false, ie := false, dfault := false, rpt := 0, latch := none, br := none, fence := none, under := [], front := [], bub := 0, hvSeen := false, oneMore := false, rcLeft := 0, rcRing := rg, wdFrom := s.open.now, startIn := s.weir.period }
    exec (.jobStart p j) s =
      .next (if x.st = 2 ∧ h.run = .stopped ∧ h.halted = false then { s with thr := tset s.thr k y }.withEntry p j { x with st := 3 } else s)) ∧
  (∀ (s : State) (p j : Nat), s.sys.held = false → p < 24 → j < 256 →
    let x := s.entry p j
    let q := s.open.pol p
    let g := if q.ceil.any (fun c => decide (c.2 = j)) then { q with ceil := none, more := [] } else { q with more := q.more.filter fun i => i != j }
    let z := ((s.atTime (max s.open.now x.due)).withEntry p j { x with st := 0, wait := 0 }).withPol p g
    exec (.jobDeadline p j) s = .next (if x.st = 1 ∧ x.kind = 1 then (z.outcomeOf p j 1).counted (pldReg p + 0x40) else s))

/-- Supply dips and faults (13 R526, R527; 14 R536 to R556). That a polder's closure takes over a CLOSE commit of its engine
is the model's reading: notes/assumptions/63. -/
def Obligations.SupplyDipsAndFaultsAreHandled : Prop :=
  (∀ (s : State) (act : Nat), s.sys.held = false →
    let t := (s.open.now + 9) / 10 * 10
    let z := (({ s with weir := { s.weir with dip := some t } }).atTime t).withEvent 0x5A9 (2 ^ 28) t
    let safe := fun (g : State) => if g.vault.st = 1 ∨ g.vault.st = 3 then { g with vault := { g.vault with st := 2, prev := g.vault.st } }.withEvent 0x581 (2 ^ 29) t else g
    let low := fun (x : Pol) => { x with goal := none, ceil := none, vgo := none, more := [], resume := (if 1 < x.cur then some x.cur else x.resume), cur := min x.cur 1 }
    (s.weir.dip ≠ none → exec .supplyWarning s = .next s) ∧
    (s.weir.dip = none → (∀ p < 24, s.floorNow p ≤ 1) →
      ∃ m : State, exec .supplyWarning s = .next m ∧ m = { safe z with weir := m.weir, regs := m.regs } ∧
        m.weir = { z.weir with pols := m.weir.pols } ∧ (∀ p < 24, m.open.pol p = low (s.open.pol p)) ∧
        (∀ p < 24, 1 < (s.open.pol p).cur → m.open.rg (pldReg p + 0x44) = w32 (min ((s.open.rg (pldReg p + 0x44)).toNat + 1) 0xFFFFFFFF)) ∧
        ∀ a, (∀ p < 24, a = pldReg p + 0x44 → (s.open.pol p).cur ≤ 1) → m.open.rg a = z.open.rg a) ∧
    (∀ b < 24, s.weir.dip = none → 1 < s.floorNow b → (∀ p < 24, p ≠ b → s.floorNow p ≤ 1) → (∀ p < 24, (s.open.pol p).cur ≤ 1) →
      s.open.fltPolicy 7 = act → act ≠ 2 →
      ∃ m : State, exec .supplyWarning s = .next m ∧
        m = { (safe (z.withEvent (0x590 + b) (5 * 2 ^ 28 + 2 ^ 24 * s.floorNow b) t)).faulted 7 (256 + b) (8 * s.floorNow b + (s.open.pol b).cur) act with weir := m.weir } ∧
        m.weir = { z.weir with pols := m.weir.pols } ∧ ∀ p < 24, m.open.pol p = low (s.open.pol p))) ∧
  (∀ (s : State) (from' mv low : Nat), s.sys.held = false → mv < 2 ^ 16 →
    let last := max from' ((low + 9) / 10 * 10)
    let t := max s.open.now (last + 10010)
    let rs := [(weirReg + 0x24, w32 mv), (weirReg + 0x28, w32 (last - from')), (weirReg + 0x2C, w32 from'), (weirReg + 0x30, w32 (from' / 2 ^ 32))]
    let z := (({ ((s.atTime t).wrote rs).counted (weirReg + 0x34) with weir := { s.weir with dip := none } }).withEvent 0x5A9 (2 * 2 ^ 28 + mv) t)
    (s.weir.dip = none → s.floorsMet → exec (.supplyWarningEnd mv low) s = .next s) ∧
    (s.weir.dip = some from' → (∀ p < 24, (s.open.pol p).resume ≠ none ∨ s.floorSoon p ≤ (s.open.pol p).goal.getD (s.open.pol p).cur) →
      exec (.supplyWarningEnd mv low) s =
        .next (if s.vault.st = 2 then { z with vault := { s.vault with st := s.vault.prev } }.withEvent 0x581 (3 * 2 ^ 28) t else z))) ∧
  (∀ (s : State) (p detail : Nat), s.sys.held = false → p < 24 → s.floorsMet →
    let act := s.open.fltPolicy 6
    let y := s.faulted 6 (256 + p) detail act
    (act ≠ 2 ∨ (s.open.unit (256 + p)).st = 1 ∨ (s.open.unit (256 + p)).st = 2 → exec (.powerFault p detail) s = .next y) ∧
    (act = 2 → (s.open.unit (256 + p)).st = 0 ∨ (s.open.unit (256 + p)).st = 3 → ∃ n : State, exec (.powerFault p detail) s = .next n ∧ y.closesInto n (256 + p) 6 false)) ∧
  (∀ (s : State) (u nr nb : Nat), s.sys.held = false → u < 192 ∨ (256 ≤ u ∧ u < 280) → s.floorsMet →
    let x := s.open.unit u
    let p := u - 256
    let a := s.open.fbAddr p
    let word := fun (i : Nat) => x.cnt.getD i 0
    let y := ((s.withUnit u { x with st := 2, cnt := [], byCommit := false }).logged 2 x.cause u (word 0) (word 1) (word 2) (word 3)).fltTells 2 x.cause u
    let fine := fun (g : State) => (Host.Outcome.next (if x.byCommit then g.finished .flt .ok else g) : Host.Outcome State Fault Refusal)
    let ready := s.open.fltCtrl.getLsbD 0 && decide (a ≠ 0) && !(s.net.live.any fun q => q.fallback) && s.flt.fb.isNone
    let rs := (List.range nr).map (s.resvOf a)
    let f := s.open.now / 1024 + 1
    let plan := { y with net := { y.net with armed := some (s.planAt a nr nb, f) }, flt := { y.flt with fb := some (p, a, s.net.armed.elim 0 fun c => c.1.id, f) } }
    (x.st ≠ 1 → exec (.closureComplete u) s = .next s) ∧
    (x.st = 1 → u < 256 → exec (.closureComplete u) s = fine y) ∧
    (x.st = 1 → 256 ≤ u → ready = false →
      exec (.closureComplete u) s = fine ((y.logged 5 x.cause u a 0xFFFF 0 0).fltTells 4 0 u)) ∧
    (x.st = 1 → 256 ≤ u → ready = true → s.goodPlan a nr nb → overcommit rs = false →
      (∀ i < nr, ∀ j < i, (s.resvOf a j).clash (s.resvOf a i) = false) →
      (∀ q ∈ s.net.live.toList, ∀ r ∈ rs, ∀ o ∈ q.res, r.carryClash o = false) → plan.floorsMet →
      exec (.closureComplete u) s = fine plan)) ∧
  (∀ (s : State) (r : By) (e t : Nat) (v : Word), s.sys.held = false → byOk r = true → s.open.diked (reqOf r).who 0 = false →
    (reqOf r).top = true → e < 192 → t < 4 →
    let old := s.open.rg (wdtReg (4 * e + t))
    let new := w32 (2 ^ 31 * b01 (v.getLsbD 31) + 2 ^ 30 * b01 (old.getLsbD 30) + v.toNat % 2 ^ 24)
    let z := if v.getLsbD 31 = true ∧ old.getLsbD 31 = false then s.withThread e t { s.thread e t with wdFrom := s.open.now } else s
    exec (.pldWdtWrite r e t v) s =
      .next (if v.getLsbD 31 = true ∧ v.toNat % 2 ^ 24 = 0 then { s with resp := {} } else { z with resp := {}, regs := tset s.regs (wdtReg (4 * e + t)) new })) ∧
  ∀ (s : State) (pc : Word), s.sys.held = false → (∀ t < 4, (s.thread 192 t).evq = []) → (∀ t < 4, s.noJob (768 + t)) →
    exec .keeperResyncDone s = .next { s with flt := { s.flt with ksync := false } } ∧
    ∃ m : State, exec (.keeperMismatch pc) s = .next m ∧ m.flt.ksync = true ∧
      (let y := { s with thr := m.thr, hv := m.hv, eng := m.eng }
       let g := (y.logged 7 0 0 pc.toNat 0 0 0).fltTells 8 0 0
       m = { g with flt := { g.flt with ksync := true } }) ∧
      (∀ k < 768, m.open.th k = s.open.th k) ∧ (∀ e, e ≠ 192 → m.open.en e = s.open.en e) ∧
      ∀ t < 4,
        m.thread 192 t = (s.thread 192 t).restarted (768 + t) s.open.now

/-- Fault commits (14 R560 to R567). That RESET of a polder ends its sleep is the model's reading: notes/assumptions/63. -/
def Obligations.FaultCommitsBringUnitsBack : Prop :=
  (∀ (s : State) (u : Nat), s.committing .flt → s.flt.units.any (fun x => x.2.byCommit) = false → u < 192 ∨ (256 ≤ u ∧ u < 280) →
    s.snap .flt (fltReg + 4) = w32 u →
    let cmd := s.snap .flt fltReg
    let x := s.open.unit u
    let p := u - 256
    let fails := fun (st : St) (k : Nat) => (Host.Outcome.next (s.finished .flt st k 0xFFFF) : Host.Outcome State Fault Refusal)
    (cmd = w32 (2 ^ 24) →
      (s.open.unitState u ≠ 0 → exec .fltClose s = fails .dikeClosed 2) ∧
      (s.open.unitState u = 0 → ∃ n : State, exec .fltClose s = .next n ∧ s.closesInto n u 8 true ∧ n.com = s.com)) ∧
    (cmd = w32 (2 * 2 ^ 24) →
      (x.st ≠ 2 ∨ s.open.unitState u ≠ 2 → exec .fltReset s = fails .badValue 3) ∧
      (x.st = 2 → s.open.unitState u = 2 → (∀ k < 768, inUnit u (k / 4) → s.noJob k ∧ (s.open.th k).evq = []) →
        (u < 256 →
          ∃ m : State, exec .fltReset s = .next m ∧
            (let rs := ((List.range 23).map fun i => (sntReg u + 4 * i, (0 : Word))) ++ ((List.range 5).map fun i => (edmReg u + 4 * i, (0 : Word))) ++ [(sntReg u + 8, 0x0F800000), (tblReg u + 0x34, 0)]
             let y := { s.wrote rs with thr := m.thr, eng := m.eng, lat := s.lat.filter fun (c : Nat × Word) => c.1 != sntReg u + 0x10, hv := s.hv.map fun (c : Nat × List HvJob) => (c.1, c.2.filter fun j => decide (j.key / 4 ≠ u)) }
             m = (((y.withUnit u { x with st := 3 }).logged 6 0 u 3 0 0 0).fltTells 5 0 u).finished .flt .ok) ∧
            (∀ e < 193, m.open.en e = if e = u then { s.open.en u with strict := false, exposed := false, slots := [], bgLast := [] } else s.open.en e) ∧
            ∀ k < 772, m.open.th k = if k / 4 = u then { (s.open.th k).restarted k s.open.now with run := .stopped } else s.open.th k) ∧
        (256 ≤ u →
          ∃ m : State, exec .fltReset s = .next m ∧ m.open.unit u = { x with st := 3 } ∧ m.dike = s.dike ∧
            (s.open.cm .flt).seq = (m.open.cm .flt).seq ∧ m.open.cm .flt = { s.open.cm .flt with busy := false, status := St.ok.code, check := 0, index := 0 } ∧
            m.open.pol p = { s.open.pol p with cur := 0, volt := 0, vgo := none, goal := none, resume := none, ceil := none, more := [], ceilRun := none, sleep := false, slept := [], quiet := 0 } ∧
            (∀ k < 772, m.open.th k = if inUnit u (k / 4) then { (s.open.th k).restarted k s.open.now with run := .stopped } else s.open.th k) ∧
            (∀ b < 64, isBank p b → m.open.bk p b = { s.open.bk p b with st := 2, zf := false, goal := 2 }) ∧
            (∀ d < 25, d ≠ p → ∀ b < 64, m.open.bk d b = s.open.bk d b) ∧
            (∀ n < 16, m.open.ch p n = { req := (s.open.ch p n).req, dbpend := (s.open.ch p n).dbpend }) ∧
            (∀ c < 28, c ≠ p → ∀ n < 16, m.open.ch c n = s.open.ch c n) ∧
            (∀ n < 32, tget [] m.net.tx (32 * polNode p + n) = [] ∧ tget [] m.net.rx (32 * polNode p + n) = []) ∧
            (∀ a, a < winBase p ∨ winBase p + 0x200000 ≤ a → m.mem.read a = s.mem.read a) ∧ m.tide = s.tide ∧ m.tio = s.tio ∧ m.dlk = s.dlk))) ∧
    (cmd = w32 (3 * 2 ^ 24) →
      (x.st ≠ 3 ∨ s.open.unitState u ≠ 3 → exec .fltReadmit s = fails .badValue 3) ∧
      (x.st = 3 → s.open.unitState u = 3 →
        exec .fltReadmit s =
          .next (((({ s.withUnit u { x with st := 0 } with dike := tset s.dike (dikeOf u) false }).logged 6 0 u 0 0 0 0).fltTells 6 0 u).finished .flt .ok)))) ∧
  (∀ (s : State) (n jf pa : Nat), s.committing .flt → s.flt.units.any (fun x => x.2.byCommit) = false →
    s.snap .flt (fltReg + 0xC) = w32 n → s.snap .flt (fltReg + 0x10) = w32 jf → s.snap .flt (fltReg + 0x14) = w32 (jf / 2 ^ 32) → n < 256 → jf < 2 ^ 54 →
    let cmd := s.snap .flt fltReg
    let a := s.snap .flt (fltReg + 8)
    let fails := fun (k i : Nat) => (Host.Outcome.next (s.finished .flt .badValue k i) : Host.Outcome State Fault Refusal)
    (cmd = w32 (4 * 2 ^ 24) →
      (s.flt.join ≠ none → exec .fltJoin s = fails 3 0xFFFF) ∧
      (s.flt.join = none → n = 0 ∨ 128 < n ∨ a.toNat % 8 ≠ 0 ∨ 1024 * jf < (s.open.cm .flt).acc + 2048 → exec .fltJoin s = fails 5 0xFFFF) ∧
      (s.flt.join = none → 0 < n → n ≤ 128 → a.toNat % 8 = 0 → (s.open.cm .flt).acc + 2048 ≤ 1024 * jf →
        mtxMap a.toNat = .mem pa → s.cleanFor .weir pa (8 * n) →
        ((∀ i < n, s.goodJoin pa i) →
          exec .fltJoin s =
            .next ({ s with flt := { s.flt with join := some ((List.range n).map (s.joinOf pa), jf) } }.finished .flt .ok)) ∧
        (∀ i < n, (∀ j < i, s.goodJoin pa j) → ¬ s.goodJoin pa i → exec .fltJoin s = fails 7 i))) ∧
    (cmd = w32 (5 * 2 ^ 24) →
      exec .fltDisarm s = .next ({ s with flt := { s.flt with join := none } }.finished .flt .ok 0 (b01 s.flt.join.isSome))) ∧
    (cmd = w32 (6 * 2 ^ 24) →
      let pol := s.snap .flt (fltReg + 0x18)
      let ctl := s.snap .flt (fltReg + 0x1C)
      let fb := fun (q : Nat) => s.snap .flt (fltReg + 0x40 + 4 * q)
      let act := fun (k : Nat) => pol.toNat / 2 ^ (2 * k) % 4
      let live := [(fltReg + 0x618, pol), (fltReg + 0x61C, ctl)] ++ (List.range 24).map fun q => (fltReg + 0x640 + 4 * q, fb q)
      exec .fltConfig s =
        if (2 ^ 16 ≤ pol.toNat ∨ 4 ≤ ctl.toNat) then fails 1 0xFFFF
        else ((List.range 8).find? fun k => decide (act k = 3) || (decide (k = 6) && decide (act k ≠ 2))).elim
          (((List.range 24).find? fun q => decide (fb q ≠ 0) && (decide ((fb q).toNat % 64 ≠ 0) || decide ((fb q).toNat < 0x10000000) || decide (0x11000000 ≤ (fb q).toNat))).elim
            (.next ((s.wrote live).finished .flt .ok)) fun q => fails 4 (0x10 + q)) (fails 4))) ∧
  ∀ (s : State) (f jf : Nat) (e : Join), s.sys.held = false → s.open.now ≤ 1024 * f → s.flt.join = some ([e], jf) → jf ≤ f →
    s.net.armed = none → s.net.live = none →
    let t := s.atTime (1024 * f)
    let q := s.open.pin e.num
    let l := s.open.link e.num
    let own := if e.b then 2 ^ 16 * e.owner else e.owner
    let pin := { q with
      p1 := (q.p1 &&& (if e.b then 0xFF00FFFF else 0xFFFFFF00)) ||| w32 own, live := (if e.b then (q.live.1, true) else (true, q.live.2)), hold := false, safed := false }
    let link := { l with
      cfg := (l.cfg &&& (if e.b then 0x00FFFFFF else 0xFF00FFFF)) ||| w32 (2 ^ 16 * (if e.b then 2 ^ 8 * e.owner else e.owner)), live := (if e.b then (l.live.1, true) else (true, l.live.2)), st := 1, sets := l.sets.filter fun x => x.b != e.b }
    let unarmed := { t with flt := { t.flt with join := none } }
    let told := fun (z : State) => (z.fltTells 7 0 0).logged 6 0 0 7 1 jf 0
    (e.link = false → e.num < 192 → q.mode = 1 → q.dual = true → q.alive e.b = false → e.owner < 256 → e.owner ≠ 0xFF →
      exec (.tideFrameBoundary f) s = exec (.tideFrameBoundary f) (told (unarmed.withPin e.num pin))) ∧
    (e.link = true → e.num < 48 → l.st ≠ 0 → l.dual = true → l.alive e.b = false → e.owner < 256 → e.owner ≠ 0xFF →
      exec (.tideFrameBoundary f) s = exec (.tideFrameBoundary f) (told (unarmed.withLink e.num link)))

/-- Ethernet (15 R568 to R578). The model's readings of what R568 to R578 leave open are in notes/assumptions/23
and 64. -/
def Obligations.EthernetPortsCarryFrames : Prop :=
  (∀ (s : State) (n pa : Nat) (b : List Byte) (places : Nat → Nat) (t : Nat), s.committing (.eth n) → n < 8 →
    let cmd := s.snap (.eth n) (ethReg n)
    let a := (s.snap (.eth n) (ethReg n + 4)).toNat / 64 * 64
    let swap := (s.snap (.eth n) (ethReg n + 8)).toNat + 2 ^ 32 * (s.snap (.eth n) (ethReg n + 0xC)).toNat
    let x := s.open.port n
    let fine := fun (z : State) => (Host.Outcome.next (z.finished (.eth n) .ok) : Host.Outcome State Fault Refusal)
    let fails := fun (st : St) (k : Nat) => (Host.Outcome.next (s.finished (.eth n) st k 0xFFFF) : Host.Outcome State Fault Refusal)
    let laid := fun (c : List Byte) => (List.range 12).all fun i => decide (s.ringSees { x with cfg := c } i 0 (places i))
    (cmd = w32 (2 ^ 24) →
      (x.armed ≠ none → exec (.ethConfig n) s = fails .tableBusy 2) ∧
      (x.armed = none → mtxMap a = .mem pa → s.cleanFor .eth pa 64 →
        (ethHeadBad (s.bytesAt pa 64) = true → exec (.ethConfig n) s = fails .badValue 4) ∧
        (ethHeadBad (s.bytesAt pa 64) = false → b = s.bytesAt pa (cfgLen (s.bytesAt pa 64)) →
          s.cleanFor .eth pa (cfgLen (s.bytesAt pa 64)) → (ethChecks b).toBool = true →
          (cfgMode x.cfg ≠ 0 → exec (.ethConfig n) s = fine (s.withPort n { x with armed := some (b, swap) })) ∧
          (cfgMode x.cfg = 0 → laid b → exec (.ethConfig n) s = fine (s.configured n b places))))) ∧
    (cmd = w32 (2 * 2 ^ 24) → exec (.ethDisarm n) s = fine (s.withPort n { x with armed := none })) ∧
    (cmd = w32 (3 * 2 ^ 24) → exec (.ethLinkreset n) s = fine (if x.link then s.portDown n else s)) ∧
    (x.armed = none → exec (.ethConfigSwap n) s = .next s) ∧
    (x.armed = some (b, t) → laid b → exec (.ethConfigSwap n) s = .next ((s.atTime (max s.open.now t)).configured n b places))) ∧
  (∀ (s : State) (r : By) (n : Nat) (v : Word) (places : Nat → Nat), s.sys.held = false → byOk r = true →
    s.open.diked (reqOf r).who 0 = false → (reqOf r).ring ≤ 2 → n < 8 →
    let x := s.open.port n
    (cfgMode x.cfg = 0 → exec (.ethDbWrite r n v) s = .next { s with resp := {} }) ∧
    (cfgMode x.cfg ≠ 0 → (∀ i < 12, v.getLsbD i → (x.qu i).park = true → s.ringSees x i (x.qu i).idx (places i)) →
      ∃ m : State, exec (.ethDbWrite r n v) s = .next m ∧ m = { s with resp := {}, eth := m.eth } ∧
        (∀ k < 8, k ≠ n → m.open.port k = s.open.port k) ∧ m.open.port n = { x with q := (m.open.port n).q } ∧
        ∀ i < 12, (m.open.port n).qu i =
          if v.getLsbD i = false then x.qu i
          else if (x.qu i).park then s.pulled x i (x.qu i).idx (places i) else { x.qu i with db := true })) ∧
  (∀ (s : State) (n t pa pb pc : Nat) (f : List Byte) (good : Bool) (d : EthDesc), s.portOn n → s.open.now ≤ t →
    let x := s.open.port n
    let z := s.atTime t
    let run := exec (.ethFrameReceived n f good t) s
    (f.length < 60 ∨ 2044 < f.length ∨ good = false → run = .next (z.counted (ethReg n + 0x84))) ∧
    (60 ≤ f.length → f.length ≤ 2044 → good = true →
      ¬ (frameType f = 0x88F7 ∧ s.tide.src = 2 ∧ s.tide.st = 2 ∧ s.tide.port = n) →
      let y := z.counted (ethReg n + 0x80)
      let stamp := (t + 2 ^ 64 - hfAt x.cfg 28) % 2 ^ 64
      let rule := (List.range (cfgNcls x.cfg)).find? (clsMatch x.cfg f)
      let o := 256 + 16 * rule.getD 0
      let ring := rule.elim 0 fun _ => byAt x.cfg (o + 11)
      let strip := d.tag.testBit 12 && decide ((frameTag f).map (fun (c : Nat × Nat) => c.2) = some (d.tag % 2 ^ 12))
      let g := if strip then f.take 12 ++ f.drop 16 else f
      let info := rule.getD 0 + (if strip then 2 ^ 8 + 2 ^ 16 * (d.tag % 2 ^ 12) else 0)
      (∀ i < 64, s.open.streamOf f = some i →
        (s.strs.getD i ⟨[], 0, 0, 0, 0, true, 0, []⟩).ctl.testBit 16 = false ∨ (s.strs.getD i ⟨[], 0, 0, 0, 0, true, 0, []⟩).sdu < f.length + 4 →
        run = .next (y.ethTells n 6 3 i)) ∧
      (s.open.streamOf f = none →
        (rule.isSome = true → byAt x.cfg (o + 10) = 2 → run = .next y) ∧
        (rule = none ∨ byAt x.cfg (o + 10) = 0 →
          ((x.qu (8 + ring)).desc = none → run = .next (y.counted (ethReg n + 0x84))) ∧
          ((x.qu (8 + ring)).desc = some d → g.length ≤ (d.words.getD 2 0).toNat % 2 ^ 12 → ring < 4 →
            mtxMap (d.words.getD 1 0).toNat = .mem pc → (∀ k < g.length, s.open.accErr .eth (pc + k) true = none ∧ s.sound (pc + k)) →
            mtxMap d.addr = .mem pa → (∀ k < 32, s.open.accErr .eth (pa + k) true = none ∧ s.sound (pa + k)) →
            s.ringSees x (8 + ring) (if d.old then (x.qu (8 + ring)).idx else ((x.qu (8 + ring)).idx + 1) % max (x.count (8 + ring)) 1) pb →
            run = .next ({ y with mem := (List.range g.length).foldl (fun q k => q.write (pc + k) (g.getD k 0)) y.mem }.completed n (8 + ring) d pa pb g.length info stamp))) ∧
        (rule.isSome = true → byAt x.cfg (o + 10) = 1 → s.open.chanDiked 14 ring = false → (s.open.bindOf 14 ring).isSome → ring < 32 →
          let body := (f.drop (hfAt x.cfg (o + 12))).take 240
          let q := tget [] s.net.tx (32 * 14 + ring)
          let head := ({ data := n + 2 ^ 8 * rule.getD 0 + 2 ^ 16 * f.length + 2 ^ 64 * stamp, last := decide (body = []) } : Flit)
          let flits := head :: (List.range ((body.length + 15) / 16)).map fun k => ({ data := ((List.range 16).map fun j => 256 ^ j * (body.getD (16 * k + j) 0).toNat).sum, last := decide (body.length ≤ 16 * k + 16) } : Flit)
          run = .next (if 32 < q.length + flits.length then y.counted (ethReg n + 0x84)
            else { y with net := { s.net with tx := tset s.net.tx (32 * 14 + ring) (q ++ flits) } }))))) ∧
  (∀ (s : State) (n q t pa pb pc : Nat) (d : EthDesc) (fr : CycFrame) (l : List CycFrame), s.portOn n → s.open.now ≤ t → q < 8 → s.strs = [] →
    let x := s.open.port n
    let stamp := (t + d.corr) % 2 ^ 64
    let size := (d.words.getD 2 0).toNat % 2 ^ 12
    let wire := fun (f : List Byte) (tg : Nat) (y : EthPort) => (s.atTime t).counted (ethReg n + 0x88) |>.withPort n { y with wire := tagged q tg f }
    (x.gateOpen q = false → ∀ c : Bool, exec (.ethFrameSent n q t c) s = .next s) ∧
    (x.gateOpen q = true →
      ((x.qu q).desc = none → exec (.ethFrameSent n q t false) s = .next (s.atTime t)) ∧
      ((x.qu q).desc = some d → mtxMap (d.words.getD 1 0).toNat = .mem pc → s.cleanFor .eth pc size →
        mtxMap d.addr = .mem pa → (∀ k < 32, s.open.accErr .eth (pa + k) true = none ∧ s.sound (pa + k)) →
        s.ringSees x q (if d.old then (x.qu q).idx else ((x.qu q).idx + 1) % max (x.count q) 1) pb →
        exec (.ethFrameSent n q t false) s = .next ((wire (s.bytesAt pc size) d.tag x).completed n q d pa pb size 0 stamp)) ∧
      (tget [] x.txq q = fr :: l →
        let z := wire fr.bytes fr.tag { x with txq := tset x.txq q l }
        exec (.ethFrameSent n q t true) s = .next (if fr.sentEv then z.ethTells n (8 + fr.e) 1 (fr.c % 2 ^ 16) else z)))) ∧
  (∀ (s : State) (n e c pa : Nat) (fr : CycFrame), s.sys.held = false → n < 8 → cfgMode (s.open.port n).cfg ≠ 0 →
    let x := s.open.port n
    let o := offCyc x.cfg e
    let word := fun (k : Nat) => wdAt x.cfg (o + k)
    let t := c * word 0 + word 4
    let y := tget {} x.cyc e
    let nf := hfAt x.cfg (o + 22)
    let fo := offFld x.cfg (hfAt x.cfg (o + 20))
    let len := hfAt x.cfg (o + 16)
    let fields := fun (k : Nat) => byAt x.cfg (fo + k)
    let heard := fun (ch : Nat) => if ch = 0xFF then none else if (tget (0, []) s.nhub ch).1 ≠ tget 0 y.seen ch ∧ fields 2 + fields 3 ≤ (tget (0, []) s.nhub ch).2.length then some (((tget (0, []) s.nhub ch).2.drop (fields 2)).take (fields 3)) else none
    let chs := (if fields 0 < 32 then [fields 0] else []) ++ (if fields 1 < 32 ∧ fields 1 ≠ fields 0 then [fields 1] else [])
    let saw := fun (ks : List Nat) => ks.foldl (fun q ch => tset q ch (tget (0, []) s.nhub ch).1) y.seen
    let z := s.atTime (t - word 8)
    let frame := fun (bs : List Byte) => ({ e := e, due := t, c := c, tc := byAt x.cfg (o + 18), sentEv := (byAt x.cfg (o + 19)).testBit 1, bytes := bs } : CycFrame)
    let made := fun (g : State) (bs : Option (List Byte)) (was : Tbl (List Byte)) (ks : List Nat) => (Host.Outcome.next (g.withPort n { x with cyc := tset x.cyc e { built := bs.map frame, last := was, seen := saw ks } }) : Host.Outcome State Fault Refusal)
    (e < cfgNcyc x.cfg → word 8 ≤ t → s.open.now ≤ t - word 8 → mtxMap (word 0xC) = .mem pa → s.cleanFor .eth pa len →
      let tpl := s.bytesAt pa len
      let put := fun (v : List Byte) => tpl.take (hfAt x.cfg (fo + 4)) ++ v ++ tpl.drop (hfAt x.cfg (fo + 4) + v.length)
      let row := hfAt x.cfg (o + 20)
      let kept := fun (g : State) (v : List Byte) => made g (some (put v)) (tset y.last row v) chs
      let tells := fun (kind : Nat) => z.ethTells n (8 + e) kind (c % 2 ^ 16 + 2 ^ 16 * (row % 2 ^ 8))
      let run := exec (.cyclicBuild n e c) s
      let gone := fun (ch : Nat) => decide (ch = 0xFF) || s.open.hubWithdrawn ch
      (nf = 0 → run = made z (some tpl) y.last []) ∧
      (nf = 1 → (∀ ch < 32, (splitMsgs 32 (tget [] s.net.rx (32 * 14 + ch))).1 = []) →
        (heard (fields 0) ≠ none → heard (fields 0) = heard (fields 1) → run = kept z ((heard (fields 0)).getD [])) ∧
        (heard (fields 0) ≠ none → heard (fields 1) ≠ none → heard (fields 0) ≠ heard (fields 1) →
          run = kept (((z.counted (ethReg n + 0x90)).ethTells n (8 + e) 3 (c % 2 ^ 16 + 2 ^ 16 * (row % 2 ^ 8)))) ((heard (fields 0)).getD [])) ∧
        (heard (fields 0) ≠ none → heard (fields 1) = none →
          run = kept (if gone (fields 1) then z else tells 4) ((heard (fields 0)).getD [])) ∧
        (heard (fields 0) = none → heard (fields 1) ≠ none →
          run = kept (if gone (fields 0) then z else tells 4) ((heard (fields 1)).getD [])) ∧
        (heard (fields 0) = none → heard (fields 1) = none →
          let w := (z.counted (ethReg n + 0x94)).ethTells n (8 + e) 2 (c % 2 ^ 16)
          run = if byAt x.cfg (o + 19) % 2 = 1 then made w none ((tfind y.last row).elim y.last (tset y.last row)) chs
            else made w (some ((tfind y.last row).elim tpl put)) ((tfind y.last row).elim y.last (tset y.last row)) chs))) ∧
    (y.built = none → exec (.cyclicEnqueue n e) s = .next s) ∧
    (y.built = some fr →
      exec (.cyclicEnqueue n e) s = .next ((s.atTime (max s.open.now fr.due)).withPort n { x with
        cyc := tset x.cyc e { y with built := none }, txq := tset x.txq fr.tc (tget [] x.txq fr.tc ++ [{ fr with tag := wdAt x.cfg (64 + 16 * fr.tc + 8) }]) }))) ∧
  (∀ (s : State) (n : Nat), s.sys.held = false → n < 8 →
    let x := s.open.port n
    let m := cfgMode x.cfg
    (m = 0 → (∀ k < 5, 0 < k → exec (.ethLinkChange n k) s = .next s) ∧ exec (.gateControlListInterval n) s = .next s) ∧
    (m ≠ 0 →
      exec (.ethLinkChange n 1) s = .next (if x.link then s else (s.withPort n { x with link := true }).ethTells n 5 1 m) ∧
      exec (.ethLinkChange n 2) s = .next (if x.link then s.portDown n else s) ∧
      exec (.ethLinkChange n 3) s = .next (if x.link then (s.withPort n { x with verify := true }).ethTells n 5 3 m else s) ∧
      exec (.ethLinkChange n 4) s = .next (if x.link then (s.withPort n { x with verify := false }).ethTells n 5 4 m else s) ∧
      (cfgNgcl x.cfg ≠ 0 →
        let g := (x.gcl + 1) % cfgNgcl x.cfg
        exec (.gateControlListInterval n) s = .next ((s.atTime (max s.open.now x.gclAt)).withPort n { x with gcl := g, gclAt := x.gclAt + wdAt x.cfg (offGcl x.cfg g + 4) })))) ∧
  ∀ (s : State) (k pa : Nat), s.committing .str → s.snap .str 0x40400104 = w32 k →
    let rows := (List.range k).map fun i => ({ mac := s.bytesAt (pa + 16 * i) 6, vid := s.memNat (pa + 16 * i + 6) 2, ctl := s.memNat (pa + 16 * i + 8) 4, sdu := s.memNat (pa + 16 * i + 12) 4 } : Stream)
    let bad := fun (i : Nat) => !(decide ((rows.getD i ⟨[], 0, 0, 0, 0, true, 0, []⟩).vid < 4096) && decide (1 ≤ (rows.getD i ⟨[], 0, 0, 0, 0, true, 0, []⟩).ctl / 2 ^ 10 % 2 ^ 6) && decide ((rows.getD i ⟨[], 0, 0, 0, 0, true, 0, []⟩).ctl / 2 ^ 10 % 2 ^ 6 ≤ 32) && decide ((rows.getD i ⟨[], 0, 0, 0, 0, true, 0, []⟩).ctl < 2 ^ 17))
    (64 < k → k < 2 ^ 32 → exec .strCommit s = .next (s.finished .str .badValue 1 0xFFFF)) ∧
    (k ≤ 64 → mtxMap (s.snap .str 0x40400100).toNat = .mem pa → s.cleanFor .eth pa (16 * k) →
      exec .strCommit s = .next (((List.range k).find? bad).elim ({ s with strs := rows }.finished .str .ok) (fun i => s.finished .str .badValue 5 i)))

/-- Cameras (15 R579 to R584). A context's checks are made where it is enabled, and the packing of pixels is CSI-2's:
the model's readings, notes/assumptions/24, 64 and 16. -/
def Obligations.CamerasCaptureLinesAndPaceCulverts : Prop :=
  (∀ (s : State) (n : Nat), s.committing (.csi n) → n < 4 →
    let word := fun (v i : Nat) => s.snap (.csi n) (csiReg n + 0x100 + 0x20 * v + 4 * i)
    let sel := (s.snap (.csi n) (csiReg n)).toNat
    let bits := fun (v i lo k : Nat) => (word v i).toNat / 2 ^ lo % 2 ^ k
    let en := fun (v : Nat) => decide (bits v 2 31 1 = 1)
    let size := fun (v : Nat) => bits v 1 16 16 * bits v 1 0 16
    let base := fun (v : Nat) => (word v 0).toNat
    let first := fun (p : Nat → Bool) => (List.range 4).find? p
    let tests := [(1, if 4 ≤ sel then some 0xFFFF else none),
      (1, first fun v => decide (bits v 2 22 7 ≠ 0 ∨ bits v 2 13 3 ≠ 0 ∨ bits v 2 4 4 ≠ 0)),
      (2, if sel = 0 ∧ (first en).isSome then some 0xFFFF else none),
      (3, first fun v => en v && decide (bits v 2 16 6 ∉ [0x2A, 0x2B, 0x2C, 0x1E])),
      (4, first fun v => en v && decide (bits v 1 0 16 % 32 ≠ 0 ∨ bits v 1 0 16 = 0)),
      (5, first fun v => en v && decide (bits v 1 16 16 = 0)),
      (6, first fun v => en v && !decide (0x10000000 ≤ base v ∧ base v + size v ≤ 0x11000000) &&
        !(List.range 24).any fun p => decide (0x20000000 + 0x200000 * p ≤ base v ∧ base v + size v ≤ 0x20000000 + 0x200000 * p + 0x140000 ∧ base v < 0x20000000 + 0x200000 * p + 0x200000)),
      (7, first fun v => decide (bits v 2 29 1 = 1 ∧ 2 ^ 16 < bits v 3 16 16 + bits v 3 8 8 * bits v 3 0 8))]
    exec (.csiCommit n) s = (tests.findSome? fun (c : Nat × Option Nat) => c.2.map fun i => (c.1, i)).elim
      (.next ({ s with csi := tset s.csi n { lanes := sel, ctx := (List.range 4).foldl (fun t v => tset t v { s.open.cctx n v with next := some ((List.range 4).map (word v)) }) (s.open.cam n).ctx } }.finished (.csi n) .ok))
      fun (c : Nat × Nat) => .next (s.finished (.csi n) .badValue c.1 c.2)) ∧
  (∀ (s : State) (n v num t : Nat) (corrected : Bool), s.sys.held = false → n < 4 → v < 4 → num < 2 ^ 16 → s.open.now ≤ t →
    let x := s.open.cctx n v
    let z := if corrected then (s.atTime t).withEvent (0x500 + 16 * n + 8) v t else s.atTime t
    let left := x.blocks x.lines - x.used
    let late := if x.field 2 31 1 = 1 ∧ x.field 2 29 1 = 1 ∧ 0 < left then z.withEvent (0x500 + 16 * n + 11) (v + 2 ^ 16 * left) t else z
    let y := ({ words := x.next.getD x.words, next := none, frame := num, inFrame := true, lines := 0, used := 0 } : CsiCtx)
    ((s.open.cam n).lanes = 0 → exec (.frameStart n v num t corrected) s = .next s ∧ exec (.frameEnd n v num t corrected) s = .next s) ∧
    ((s.open.cam n).lanes ≠ 0 →
      exec (.frameStart n v num t corrected) s = .next ((((late.asked { x with lines := 0, used := 0 }).withCtx n v y).asked y).withEvent (0x500 + 16 * n + v) num t) ∧
      exec (.frameEnd n v num t corrected) s = .next ((z.withCtx n v { x with inFrame := false }).withEvent (0x500 + 16 * n + 4 + v) (num + 2 ^ 16 * (x.lines % 2 ^ 16)) t))) ∧
  (∀ (s : State) (n v dt pa : Nat) (b : List Byte) (good corrected : Bool), s.sys.held = false → n < 4 → v < 4 → dt < 64 →
    let x := s.open.cctx n v
    let told := if corrected then s.withEvent (0x500 + 16 * n + 8) v s.open.now else s
    let out := x.kept dt b
    ((s.open.cam n).lanes = 0 → exec (.csiLine n v dt b good corrected) s = .next s) ∧
    ((s.open.cam n).lanes ≠ 0 → dt = 2 ∨ dt = 3 → exec (.csiLine n v dt b good corrected) s = .next told) ∧
    ((s.open.cam n).lanes ≠ 0 → dt ≠ 2 → dt ≠ 3 → x.field 2 31 1 = 0 ∨ x.inFrame = false ∨ x.field 2 16 6 ≠ dt →
      exec (.csiLine n v dt b good corrected) s = .next (told.counted (csiReg n + 0x114 + 0x20 * v))) ∧
    ((s.open.cam n).lanes ≠ 0 → x.field 2 31 1 = 1 → x.inFrame = true → x.field 2 16 6 = dt → camType dt = true →
      mtxMap ((x.words.getD 0 0).toNat + x.lines % max (x.field 1 16 16) 1 * x.field 1 0 16) = .mem pa →
      (∀ k < out.length, s.open.accErr .csi (pa + k) true = none ∧ s.sound (pa + k)) →
      let put := { told with mem := (List.range out.length).foldl (fun q k => q.write (pa + k) (out.getD k 0)) told.mem }
      let marked := if good then put else put.withEvent (0x500 + 16 * n + 9) (v + 2 ^ 16 * (x.lines % 2 ^ 16)) s.open.now
      exec (.csiLine n v dt b good corrected) s = .next ((marked.withCtx n v { x with lines := x.lines + 1 }).asked { x with lines := x.lines + 1 }))) ∧
  ∀ (s : State) (n v mask : Nat) (header : Bool), s.sys.held = false → n < 4 → v < 4 → mask < 16 →
    let drop := s.counted (csiReg n + 0x114 + 0x20 * v)
    ((s.open.cam n).lanes = 0 → exec (.csiPacketDrop n v header) s = .next s ∧ exec (.csiPhyError n mask) s = .next s) ∧
    ((s.open.cam n).lanes ≠ 0 →
      exec (.csiPacketDrop n v header) s = .next (if header then drop.withEvent (0x500 + 16 * n + 10) 0 s.open.now else drop) ∧
      exec (.csiPhyError n mask) s = .next (s.withEvent (0x500 + 16 * n + 12) mask s.open.now))

/-- The PCIe endpoint (15 R585 to R590) and the annex link (15 R591 to R599; 03 R120 to R122; 06 R233). Host memory lies outside the device: what is
written there shows in the response (the model's form, notes/assumptions/20); corners of both are in notes/assumptions/64. -/
def Obligations.HostAndAnnexExchange : Prop :=
  (∀ (s : State) (bar off len : Nat) (b : List Byte) (poisoned correctable : Bool) (data : Option (List Byte)), s.sys.held = false → len ≤ 4096 →
    let z := if correctable then s.withEvent 0x543 0 s.open.now else s
    let bad := fun (k : Nat) => (Host.Outcome.next { z.withEvent 0x541 k s.open.now with resp := { err := some .busError } } : Host.Outcome State Fault Refusal)
    (s.pcie.width = 0 → exec (.pcieInbound bar off len data poisoned correctable) s = .next s) ∧
    (s.pcie.width ≠ 0 →
      exec (.pcieInbound bar off len data true correctable) s = bad 2 ∧
      (bar ∉ [0, 2] ∨ (if bar = 0 then 0x2000000 else 0x1000000) < off + len ∨ len = 0 ∨ (∃ c ∈ data.toList, c.length ≠ len) →
        exec (.pcieInbound bar off len data false correctable) s = bad 1) ∧
      (1 ≤ len → b.length = len → off + len ≤ 0x1000000 →
        ((∀ k < len, s.open.accErr .pcie (0x10000000 + off + k) false = none ∧ s.sound (0x10000000 + off + k)) →
          exec (.pcieInbound 2 off len none false correctable) s =
            .next { z with resp := { bytes := s.bytesAt (0x10000000 + off) len, data := w32 (s.memNat (0x10000000 + off) (min 4 len)) } }) ∧
        ((∀ k < len, s.open.accErr .pcie (0x10000000 + off + k) true = none ∧ s.sound (0x10000000 + off + k)) →
          exec (.pcieInbound 2 off len (some b) false correctable) s =
            .next { z with resp := {}, mem := (List.range len).foldl (fun q k => q.write (0x10000000 + off + k) (b.getD k 0)) s.mem })) ∧
      (1 ≤ len → b.length = len → off + len ≤ 0x2000000 → off % 4 ≠ 0 ∨ len % 4 ≠ 0 →
        exec (.pcieInbound 0 off len none false correctable) s = .next { z with resp := { err := some .busError } } ∧
        exec (.pcieInbound 0 off len (some b) false correctable) s = .next { z with resp := { err := some .busError } }))) ∧
  (∀ (s : State) (off k : Nat) (b : List Byte) (blk : Nat → Blk), s.sys.held = false → s.pcie.width ≠ 0 → off % 4 = 0 → off + 4 * k + 4 ≤ 0x2000000 → k < 1023 →
    let host := By.mk .pcie ((s.open.stg pcieReg).toNat % 4)
    let v := w32 (leNat (b.take 4))
    (b.length = 4 * k + 4 → ∃ m : State, exec (.registerWrite host (0x40000000 + off) v) s = .next m ∧
      (m.resp.err ≠ none ∨ k = 0 → exec (.pcieInbound 0 off (4 * k + 4) (some b) false false) s = .next m) ∧
      (m.resp.err = none → 0 < k → m.sys.held = false → m.pcie = s.pcie → m.open.stg pcieReg = s.open.stg pcieReg →
        exec (.pcieInbound 0 off (4 * k + 4) (some b) false false) s = exec (.pcieInbound 0 (off + 4) (4 * k) (some (b.drop 4)) false false) m)) ∧
    ((∀ i ≤ k, blkOk (blk i) = true ∧ blkHas (blk i) (0x40000000 + off + 4 * i) = true ∧ latches (0x40000000 + off + 4 * i) = [] ∧ latched (0x40000000 + off + 4 * i) = false) →
      exec (.pcieInbound 0 off (4 * k + 4) none false false) s = .next { s with
        resp := { data := s.open.stg (0x40000000 + off), bytes := (List.range (k + 1)).flatMap fun i => leBytes 4 (s.open.stg (0x40000000 + off + 4 * i)).toNat } }) ∧
    (clearsAt (0x40000000 + off) = true → exec (.pcieInbound 0 off 4 none false false) s = exec (.rclrRead host (0x40000000 + off)) s)) ∧
  (∀ (s : State) (v width speed : Nat) (ev : EvRec) (l q : List (Nat × EvRec)) (x : MtxTxn) (g h : List MtxTxn), s.sys.held = false → v < 64 → width ≤ 4 → speed ≤ 4 →
    let tail := s.open.rg (pcieReg + 0x50)
    let count := (s.open.rg (pcieReg + 0x48)).toNat % 2 ^ 16
    let kept := { s.pcie with inbox := l ++ q }
    let told := { ev with int := false, lost := decide (0 < s.pcie.lost), many := decide (s.pcie.lost = 65536) }
    let pba := pcieReg + 0x9000 + 4 * (v / 32)
    let masked := (s.open.stg (pcieReg + 0x8000 + 16 * v + 12)).getLsbD 0
    let run := exec (.pcieEventForward v) s
    (s.pcie.width = 0 ∨ (∀ c ∈ s.pcie.inbox, c.1 ≠ v) → run = .next s) ∧
    (s.pcie.width ≠ 0 → s.pcie.inbox = l ++ (v, ev) :: q → (∀ c ∈ l, c.1 ≠ v) →
      (count ≤ (s.pcie.head - tail).toNat → run = .next { s.counted (pcieReg + 0x54) with pcie := { kept with lost := min (s.pcie.lost + 1) 65536 } }) ∧
      ((s.pcie.head - tail).toNat < count → run = .next { s with
        pcie := { kept with lost := 0, head := s.pcie.head + 1 }
        resp := { bytes := told.words.flatMap fun (u : Word) => leBytes 4 u.toNat }
        regs := if masked then tset s.regs pba (s.open.rg pba ||| w32 (2 ^ (v % 32))) else s.regs })) ∧
    exec (.pcieLinkChange width speed) s =
      .next ({ s with pcie := { s.pcie with width := width, speed := if width = 0 then 0 else speed } }.withEvent 0x540 (width + 2 ^ 4 * (if width = 0 then 0 else speed)) s.open.now) ∧
    ((∀ y ∈ s.mtx, y.write ≠ none ∨ mtxTarget y.addr ≠ 33) → exec .outboundTimeout s = .next s) ∧
    (s.mtx = g ++ x :: h → (∀ y ∈ g, y.write ≠ none ∨ mtxTarget y.addr ≠ 33) → x.write = none → mtxTarget x.addr = 33 →
      exec .outboundTimeout s = .next { { s with mtx := g ++ h }.withEvent 0x542 0 s.open.now with resp := { err := some .busError } })) ∧
  (∀ (s : State) (u n : Nat) (ws : List Word) (code : Nat) (r : By) (v : Word), s.sys.held = false → u < 6 →
    let a := s.annex
    let w0 := (ws.getD 0 0).toNat
    let fits := w0 / 2 ^ 16 % 8 ≤ 5 ∧ 1 ≤ w0 / 2 ^ 8 % 2 ^ 8 ∧ w0 / 2 ^ 8 % 2 ^ 8 ≤ 64 ∧ 1 ≤ w0 % 2 ^ 8 ∧ ws.getD 2 0 = 0 ∧ ws.getD 3 0 = 0 ∧ ws.length = 4
    let but := fun (l : List Nat) => l.filter fun k => k != u
    let declared := ((tget [] a.desc u).getD 0 0).toNat / 2 ^ 8 % 2 ^ 8
    let units := a.desc.filter fun (c : Nat × List Word) => decide (c.1 ∈ a.got)
    (a.st ≠ 1 → exec (.desc u ws) s = .next s ∧ exec .ready s = .next s) ∧
    (a.st = 1 → fits → exec (.desc u ws) s = .next { s with annex := { a with desc := tset a.desc u ws, got := u :: but a.got, bad := but a.bad } }) ∧
    (a.st = 1 → ¬ fits → exec (.desc u ws) s = .next { s with annex := { a with bad := u :: but a.bad } }) ∧
    (a.st = 1 → exec .ready s = .next (if a.bad ≠ [] then s else
      ({ s with annex := { a with st := 2, desc := units, cred := (List.range 6).map fun k => (k, if k ∈ a.got then ((tget [] units k).getD 0 0).toNat / 2 ^ 8 % 2 ^ 8 else 0) } }).withEvent 0x630 (1 + 2 ^ 8 * presence units) s.open.now)) ∧
    (a.st ≠ 2 → exec (.cred u n) s = .next s) ∧
    (a.st = 2 → exec (.cred u n) s = .next (if declared < tget 0 a.cred u + n then s.annexFails 4 else { s with annex := { a with cred := tset a.cred u (tget 0 a.cred u + n) } })) ∧
    exec .annexRequestTimeout s = .next (if a.reqs = [] then s else s.annexFails 5) ∧
    (code ∈ [1, 2] → exec (.annexPacketError code) s = .next (s.annexFails code)) ∧
    (byOk r = true → s.open.diked (reqOf r).who 0 = false → (reqOf r).top = false →
      exec (.anxCtrlWrite r v) s = .next { s with resp := { err := some .busError } }) ∧
    (byOk r = true → s.open.diked (reqOf r).who 0 = false → (reqOf r).top = true →
      let kept := { s with regs := tset s.regs anxReg (v &&& 1) }
      exec (.anxCtrlWrite r v) s = .next { (if v.getLsbD 0 = false then (if (s.open.rg anxReg).getLsbD 0 then kept.linkLeft 0 else kept)
        else if (s.open.rg anxReg).getLsbD 0 = false ∨ v.getLsbD 1 then kept.linkLeft 1 else kept) with resp := {} })) ∧
  ∀ (s : State) (u e t tag : Nat) (shadow late err : Bool) (ws : List Word) (b : List Byte) (j : UxJob) (l q : List UxJob) (x : MtxTxn) (g h : List (Nat × MtxTxn)),
    s.sys.held = false → u < 6 → thrOk e t = true → tag < 256 →
    let a := s.annex
    let two := ((tget [] a.desc u).getD 0 0).getLsbD 20
    let given := (((s.thread e t).setSrc shadow (116 + 2 * u) (ws.getD 0 0)).setSrc shadow (117 + 2 * u) (if two then ws.getD 1 0 else 0)).setSrc shadow (200 + u) 0
    let had := ({ s with annex := { a with ops := l ++ q } } : State).withThread e t given
    let strict := t = 0 ∧ e < 192 ∧ (s.open.en e).strict = true ∧ (s.open.stg (sntReg e)).getLsbD 0 = true ∧ (s.thread e 0).stk = false ∧ (s.thread e 0).shadow = false
    let run := exec (.res u e t shadow ws late) s
    (a.st ≠ 2 → run = .next s) ∧
    (a.st = 2 → (∀ k ∈ a.ops, k.unit ≠ u) → run = .next (s.annexFails 3)) ∧
    (a.st = 2 → a.ops = l ++ j :: q → (∀ k ∈ l, k.unit ≠ u) → j.unit = u →
      (late = false ∨ ¬ strict → run = .next had) ∧
      (late = true → strict → ∃ m : State, run = .next m ∧ m.annex = had.annex ∧ (m.open.rg (sntReg e + 4)).getLsbD 5 = true ∧
        (m.open.rg (sntReg e + 0x34)).toNat = min ((s.open.rg (sntReg e + 0x34)).toNat + 1) 0xFFFFFFFF ∧
        (m.thread e 0).nb = given.nb ∧ (m.thread e 0).sb = given.sb)) ∧
    ((∀ y ∈ a.reqs, y.1 ≠ tag ∨ y.2.write ≠ none) → exec (.rdresp tag b err) s = .next s) ∧
    ((∀ y ∈ a.reqs, y.1 ≠ tag ∨ y.2.write = none) → exec (.wrack tag err) s = .next s) ∧
    (a.reqs = g ++ (tag, x) :: h →
      let gone := { s with annex := { a with reqs := g ++ h } }
      let failed := (Host.Outcome.next { gone.withEvent 0x633 tag s.open.now with resp := { err := some .busError } } : Host.Outcome State Fault Refusal)
      (x.write = none → (∀ y ∈ g, y.1 ≠ tag ∨ y.2.write ≠ none) → exec (.rdresp tag b err) s =
        if err then failed else .next { gone with resp := { bytes := b.take x.len, data := w32 (leNat (b.take (min 4 x.len))) } }) ∧
      (x.write ≠ none → (∀ y ∈ g, y.1 ≠ tag ∨ y.2.write = none) → exec (.wrack tag err) s =
        if err then failed else .next { gone with resp := {} }))

/-- The vault (16 R600 to R627). What the NAND medium does comes with the command, and VERSION of a log counts its
WRITEs, a load's DONE after a failed check carries its action: the model's choices, notes/assumptions/19 and 32. -/
def Obligations.TheVaultActsOnItsObjects : Prop :=
  (∀ (s : State) (act check : Nat) (st : St) (med : Med) (l q : List (Nat × St × Bool)), s.vltAsked act →
    let cmds := [exec (.vltWrite med) s, exec (.vltRead med) s, exec (.vltDelete med) s, exec (.vltAppend med) s, exec (.vltStat med) s, exec (.vltLoad med) s, exec (.vltTable med) s, exec (.vltFormat med) s, exec (.vltScrub med) s, exec (.vltConfig med) s]
    (s.vltTests = l ++ (check, st, true) :: q → (∀ c ∈ l, c.2.2 = false) → 1 ≤ act → act ≤ 10 →
      cmds.getD (act - 1) (.next s) = .next (s.vltEnds act st check)) ∧
    ((∀ c ∈ s.vltTests, c.2.2 = false) → s.vault.st = 2 → act ≠ 10 → cmds.getD (act - 1) (.next s) = .next s)) ∧
  (∀ (s : State) (med : Med) (pa : Nat) (o : VObj) (l : List (List Byte)), s.sys.held = false →
    let id := s.vltWord 4
    let len := s.vltWord 0xC
    let ty := s.vltField 0 20 3
    let found := tfind s.vault.objs id
    let ends := fun (act : Nat) (y : State) (st : St) => (Host.Outcome.next (y.vltEnds act st) : Host.Outcome State Fault Refusal)
    let came := s.bytesAt pa len
    (s.vltActs 1 →
      (id = 0 ∨ id = 0xFFFFFFFF ∨ (found = some o ∧ o.type ≠ ty) → exec (.vltWrite med) s = ends 1 s .badValue) ∧
      (id ≠ 0 → id ≠ 0xFFFFFFFF → found = none → 4096 ≤ s.vault.objs.length → exec (.vltWrite med) s = ends 1 s .vaultWorn) ∧
      (id ≠ 0 → id ≠ 0xFFFFFFFF → (found = none ∧ s.vault.objs.length < 4096) ∨ (found = some o ∧ o.type = ty) →
        ty = 3 ∨ (mtxMap (s.vltWord 8) = .mem pa ∧ s.cleanFor .vault pa len) →
        exec (.vltWrite med) s = if med.fail = 0 then ends 1 ((s.withObj id { type := ty, cls := s.vltField 0 8 1, ver := found.elim 1 fun p => p.ver + 1, time := s.open.now, data := if ty = 3 then [] else came, cap := if ty = 3 then len else 0 }).nandDid med) .ok
          else ends 1 (s.nandDid med) (nandStatus med))) ∧
    (s.vltActs 2 →
      (found = none → exec (.vltRead med) s = ends 2 s .badValue) ∧
      (found = some o → o.whole.length < s.vltWord 0x10 + len → exec (.vltRead med) s = ends 2 s .badValue) ∧
      (found = some o → s.vltWord 0x10 + len ≤ o.whole.length → mtxMap (s.vltWord 8) = .mem pa → s.writableFor .vault pa len →
        exec (.vltRead med) s = if med.fail = 0 then ends 2 { s.nandDid med with mem := laid s.mem pa ((o.whole.drop (s.vltWord 0x10)).take len) } .ok
          else ends 2 (s.nandDid med) (nandStatus med))) ∧
    (s.vltActs 3 → exec (.vltDelete med) s = if found = none then ends 3 s .badValue else if med.fail ≠ 0 then ends 3 (s.nandDid med) (nandStatus med)
      else ends 3 ({ s with vault := { s.vault with objs := tdel s.vault.objs id } }.nandDid med) .ok) ∧
    (s.vltActs 4 →
      (found = none ∨ (found = some o ∧ o.type ≠ 3) → exec (.vltAppend med) s = ends 4 s .badValue) ∧
      (found = some o → o.type = 3 → mtxMap (s.vltWord 8) = .mem pa → s.cleanFor .vault pa len → med.fail ≠ 0 → exec (.vltAppend med) s = ends 4 (s.nandDid med) (nandStatus med)) ∧
      (found = some o → o.type = 3 → mtxMap (s.vltWord 8) = .mem pa → s.cleanFor .vault pa len → med.fail = 0 → l <:+ o.recs ++ [came] → l.flatten.length ≤ o.cap →
        (l = o.recs ++ [came] ∨ ∃ r ∈ o.recs ++ [came], r :: l <:+ o.recs ++ [came] ∧ o.cap < (r :: l).flatten.length) →
        exec (.vltAppend med) s = ends 4 ((s.withObj id { o with recs := l, time := s.open.now }).nandDid med) .ok)) ∧
    (s.vltActs 5 →
      (found = none → exec (.vltStat med) s = ends 5 s .badValue) ∧
      (found = some o → mtxMap (s.vltWord 8) = .mem pa → s.writableFor .vault pa 32 →
        exec (.vltStat med) s = if med.fail = 0 then ends 5 { s.nandDid med with mem := laid s.mem pa (s.infoOf id o) } .ok else ends 5 (s.nandDid med) (nandStatus med)))) ∧
  (∀ (s : State) (med : Med) (f : Fmt) (r : State), s.sys.held = false →
    let ends := fun (act : Nat) (y : State) (st : St) => (Host.Outcome.next (y.vltEnds act st) : Host.Outcome State Fault Refusal)
    let slot := s.vltField 0 0 4
    let addr := s.vltWord 8
    let v := s.vault
    let period := fun (y : State) => y.open.now + (tget (stgReset (vltReg + 0x44)) y.live (vltReg + 0x44)).toNat / 2 ^ 16 * 3600000000000
    let scrubbed := fun (y : State) => ({ y.nandDid med with vault := { (y.nandDid med).vault with scrubAt := period y } }).withEvent 0x582 (3 * 2 ^ 28) y.open.now
    (s.vltActs 7 →
      (12 ≤ slot → exec (.vltTable med) s = .next (s.vltEnds 7 .badValue 1)) ∧
      (slot < 12 → addr % 64 ≠ 0 → exec (.vltTable med) s = .next (s.vltEnds 7 .badValue 6)) ∧
      (slot < 12 → addr % 64 = 0 → (s.open.readFmt .vault addr).1 = s.open → (s.open.readFmt .vault addr).2.toOption = some f →
        exec (.vltTable med) s = if f.cls = 3 ∧ f.els.length ≤ 64 then ends 7 { s with vault := { v with slots := tset v.slots slot f, kept := if v.st = 0 then v.kept else tset v.kept slot f } } .ok else .next (s.vltEnds 7 .badValue 9))) ∧
    (s.vltActs 8 → exec (.vltFormat med) s =
      if ∀ c ∈ v.ce, c = 0 then ends 8 s .vaultWorn
      else if med.fail ≠ 0 then ends 8 (s.nandDid med) (nandStatus med)
      else
        let z := { s with vault := { v with sys := true, objs := [], kept := v.slots, st := 1, prev := 1 } }
        ends 8 ((if v.st = 0 then z.withEvent 0x581 (2 ^ 28) s.open.now else z).nandDid med) .ok) ∧
    (s.vltActs 9 → exec (.vltScrub med) s = ends 9 (scrubbed s) .ok) ∧
    (s.vltActs 10 → ∃ m : State, exec (.vltConfig med) s = .next m ∧ m = ({ s with live := m.live } : State).vltEnds 10 .ok ∧
      (∀ k < 7, tget 0 m.live (vltReg + 0x30 + 4 * k) = s.snap .vlt (vltReg + 0x30 + 4 * k)) ∧
      (∀ k < 8, tget 0 m.live (vltReg + 0x60 + 4 * k) = s.snap .vlt (vltReg + 0x60 + 4 * k)) ∧
      ∀ c ∈ s.live, c.1 < vltReg + 0x30 ∨ vltReg + 0x80 ≤ c.1 → tget 0 m.live c.1 = tget 0 s.live c.1) ∧
    (r = s.atTime (max s.open.now v.scrubAt) →
      exec (.scrubPeriod med) s = .next (if v.st = 1 ∨ v.st = 3 then scrubbed r else s)) ∧
    exec (.vaultBackgroundMove med) s = .next (if (v.st = 1 ∨ v.st = 3) ∧ (s.open.cm .vlt).busy = false then s.nandDid med else s)) ∧
  ∀ (s : State) (med : Med) (o : VObj) (n ps pr : Nat) (dest : Nat → Nat), s.vltActs 6 → s.floorsMet →
    let found := tfind s.vault.objs (s.vltWord 4)
    let z := s.nandDid med
    let b := o.data
    let base := (tget 0 s.live (vltReg + 0x30)).toNat
    let rel := s.vltWord 0x14 + 2 ^ 32 * s.vltWord 0x18
    let free := (s.open.cm .slot).busy = false ∧ (s.open.cm .flt).busy = false ∧ ∀ e < 192, (s.open.cm (.tbl e)).busy = false
    let tells := fun (y : State) (st : St) (step : Nat) (recipe : Nat) => (Host.Outcome.next ({ y with mem := laid y.mem pr (loadTold st step 0xFFFF recipe) }.vltEnds 6 st step) : Host.Outcome State Fault Refusal)
    let sect := fun (i : Nat) => (b.drop (numAt b (numAt b 0x10 4 + 32 * i + 8) 4)).take (numAt b (numAt b 0x10 4 + 32 * i + 12) 4)
    let run := exec (.vltLoad med) s
    (¬ free → run = .next s) ∧
    (free → mtxMap (s.vltWord 0x1C / 64 * 64) = .mem pr → s.writableFor .vault pr 64 →
      (found = none ∨ (found = some o ∧ o.type ≠ 1) → run = tells s .badValue 1 0) ∧
      (found = some o → o.type = 1 → med.fail ≠ 0 → run = tells z (nandStatus med) 1 0) ∧
      (found = some o → o.type = 1 → med.fail = 0 → mtxMap base = .mem ps → s.writableFor .vault ps b.length → s.cleanFor .vault ps b.length →
        (max b.length (numAt b 8 4) ≤ (tget (stgReset (vltReg + 0x34)) s.live (vltReg + 0x34)).toNat → s.open.signed b = false →
          run = tells { z with mem := laid s.mem ps b } .imageSignature 2 (numAt b 12 4)) ∧
        (s.open.signed b = true → s.dataRecipe b n dest → s.open.now + 100000 < rel →
          let ended := { z with
            mem := laid ((List.range n).foldl (fun q i => laid q (dest i) (sect i)) (laid s.mem ps b)) pr (loadTold .ok 0 0xFFFF (numAt b 12 4))
            vault := { z.vault with arms := [] } }
          run = .next { ended.vltEnds 6 .ok with sys := { s.sys with phase := if s.sys.phase = 7 then 8 else s.sys.phase } }))) ∧
    (free → s.ecc = [] → ∃ m : State, run = .next m ∧ (m.open.cm .vlt).busy = false ∧ m.vault.objs = s.vault.objs ∧
      (1 ≤ (m.open.cm .vlt).check → (m.open.cm .vlt).check ≤ 3 → m.eng = s.eng ∧ m.thr = s.thr ∧ m.net = s.net ∧ m.live = s.live ∧ m.weir = s.weir) ∧
      ((m.open.cm .vlt).status = 0 → ∀ i < numAt b 6 2, found = some o → numAt b (numAt b 0x10 4 + 32 * i) 1 ≤ 3 →
        ∃ t ∈ ((m.open.en (numAt b (numAt b 0x10 4 + 32 * i + 4) 2)).slot (16 * (numAt b (numAt b 0x10 4 + 32 * i) 1 - 1) + numAt b (numAt b 0x10 4 + 32 * i + 1) 1)).armed.toList ++
          ((m.open.en (numAt b (numAt b 0x10 4 + 32 * i + 4) 2)).slot (16 * (numAt b (numAt b 0x10 4 + 32 * i) 1 - 1) + numAt b (numAt b 0x10 4 + 32 * i + 1) 1)).live.toList,
          t.addr.toNat = numAt b (numAt b 0x10 4 + 32 * i + 16) 4))

/-- Resets and start-up (17 R628 to R645, R654, R655; 13 R511, R528). The boot steps as single commands, the flash and
the test access port as no part of a device reset, and the free verdict of a test are the model's choices:
notes/assumptions/18, 19, 21, 28, 32 and 63. -/
def Obligations.ResetsBootTestsAndStarts : Prop :=
  (∀ (s : State) (r : By) (also mv : Nat) (v : Word), also < 64 → mv < 2 ^ 16 →
    let power := { ({} : State) with
      part := s.part, free := s.free, pending := s.pending, vault := { sys := s.vault.sys, objs := s.vault.objs, kept := s.vault.kept, retired := s.vault.retired }
      sys := { held := true, otp := s.sys.otp, last := 1 ||| also, sticky := 1 ||| also } }
    let refused := (Host.Outcome.next { s with resp := { err := some .busError } } : Host.Outcome State Fault Refusal)
    let low := fun (since : Nat) => roundUp (since + 2000) 10
    let hot := s.weir.meas.elim (w32 (2 ^ 16 * s.weir.sensor) ||| (BitVec.ofInt 16 s.weir.tmax).setWidth 32) fun m => w32 (2 ^ 16 * m.sensor) ||| (BitVec.ofInt 16 m.tmax).setWidth 32
    exec (.powerOnReset also) s = .next power ∧ exec (.pinReset also) s = .next (s.resetBy (2 ||| also)) ∧
    (s.sys.held = true → exec (.softwareReset r) s = .next s ∧ exec (.debugReset r) s = .next s ∧ exec (.thermalTrip also) s = .next s ∧ exec (.supplyReset mv also) s = .next s) ∧
    (s.sys.held = false → byOk r = true → s.open.diked (reqOf r).who 0 = false →
      exec (.softwareReset r) s = (if (reqOf r).top then .next (s.resetBy 16) else refused) ∧
      exec (.debugReset r) s = (if (reqOf r).top ∧ ((reqOf r).who = .dap → s.open.dapIsOpen) then .next (s.resetBy 32) else refused) ∧
      exec (.registerWrite r 0x4000000C v) s = (if (reqOf r).top = false then refused else if v = 0xA5A then .next (s.resetBy 16) else .next { s with resp := {} })) ∧
    (s.sys.held = false →
      exec (.thermalTrip also) s = .next (if 31 ≤ s.weir.trip then { s.resetBy (8 ||| also) with sys := { (s.resetBy (8 ||| also)).sys with info := hot } } else s) ∧
      (s.weir.dip = none → exec (.supplyReset mv also) s = .next s) ∧
      ∀ since ∈ s.weir.dip.toList,
        let seen := max s.open.now (low since)
        let z := { s with regs := tset (tset (tset (tset s.regs 0x40010024 (w32 mv)) 0x40010028 (w32 (seen - since))) 0x4001002C (w32 since)) 0x40010030 (w32 (since / 2 ^ 32)), weir := { s.weir with dipReset := true } }
        exec (.supplyReset mv also) s = .next (z.resetBy (4 ||| also)))) ∧
  (∀ (s : State) (pins : Nat) (fs : List (Nat × Nat × List Nat × Nat)) (ce blocks good : List Nat), pins < 8 →
    let ran := exec (.resetRelease pins fs ce blocks good) s
    let mounts := (ce.any fun c => decide (c % 16 ≠ 0)) && s.vault.sys
    (s.sys.phase ≠ 1 ∨ s.tap.hold = true → ran = .next s) ∧
    (s.sys.phase = 1 → s.tap.hold = false → ∃ m : State, ran = .next m ∧ m.mem = {} ∧ m.tide = {} ∧ m.pending = s.pending ∧
      m.sys = { last := s.sys.last, sticky := s.sys.sticky, count := s.sys.count, info := s.sys.info, otp := s.sys.otp, pins := pins
                phase := if pins = 0 ∧ mounts then 5 else 4, hold := decide (pins = 0) && !mounts } ∧
      m.vault.objs = s.vault.objs ∧ m.vault.kept = s.vault.kept ∧ m.vault.slots = (if mounts then s.vault.kept else []) ∧ (m.vault.st = 1 ∨ m.vault.st = 3 ↔ mounts) ∧ (m.vault.st = 0 ↔ mounts = false) ∧
      (fs = [] → (∀ e < 192, m.thread e 0 = { resetThread (4 * e) with run := .stopped } ∧ ∀ t < 4, 0 < t → m.thread e t = resetThread (4 * e + t)) ∧
        (∀ t < 4, m.thread 192 t = resetThread (768 + t)) ∧ m.eng = [] ∧ m.net = {} ∧ m.tio = [] ∧
        ∀ d < 25, (m.open.pat d).st = 0 ∧ ∀ b < 64, (m.open.bk d b).rows = (s.open.bk d b).rows ∧ (m.open.bk d b).st = 2))) ∧
  (∀ (s : State) (m1 m2 : Med) (o : VObj), s.sys.held = false →
    let ran := exec (.bootFirmware m1 m2) s
    let first := s.bootable 0x10 m1
    let missed := s.sys.fails + if first then 0 else if s.bootable 0x11 m2 then 1 else 2
    (s.sys.phase ≠ 5 → ran = .next s) ∧
    (s.sys.phase = 5 → first = true ∨ s.bootable 0x11 m2 = true → tfind s.vault.objs (if first then 0x10 else 0x11) = some o →
      ∃ m : State, ran = .next m ∧ m.eng = s.eng ∧ m.net = s.net ∧ m.vault.objs = s.vault.objs ∧ (∀ k, k ≠ 768 → m.open.th k = s.open.th k) ∧
        m.sys = { s.sys with phase := 6, src := if s.sys.src = 2 then 2 else if first then 0 else 1, fwid := w32 (numAt o.data 0xC 4), fails := if first then s.sys.fails else min missed 31, status := m.sys.status } ∧
        (first = true → m.sys.status = s.sys.status) ∧
        m.thread 192 0 = { s.thread 192 0 with run := .ready, stk := false, ring := 0, pc := w32 (numAt o.data 0x10 4), br := none, rpt := 0, latch := none, front := [], bub := 0, lineS := none, lineT := none } ∧
        m.mem = laid (laid (laid s.mem 0x100004000 (fwPart o.data 0x14)) 0x100010000 (fwPart o.data 0x1C)) 0x10E00000 (fwPart o.data 0x24) ∧
        tget 0 m.live (vltReg + 0x30) = 0x10000000 ∧ tget 0 m.live (vltReg + 0x34) = 0x800000 ∧ tget 0 m.live (vltReg + 0x38) = 0x10F00000) ∧
    (s.sys.phase = 5 → first = false → s.bootable 0x11 m2 = false → ∃ m : State, ran = .next m ∧ m.mem = s.mem ∧ m.thr = s.thr ∧
      m.sys = { s.sys with phase := 4, hold := true, fails := min missed 31, status := m.sys.status } ∧ m.sys.status ≠ 0)) ∧
  (∀ (s : State) (med : Med) (n k : Nat), s.sys.held = false →
    let rung := tget 0 s.evSeq 0x73F
    let ran := exec (.pcieBoot med) s
    let answered := { s with sys := { s.sys with bell := rung } }
    let tells := fun (st : St) => (Host.Outcome.next { answered with sys := { s.sys with bell := rung, status := st.code } } : Host.Outcome State Fault Refusal)
    let fw := s.bytesAt 0x10000000 n
    let rc := s.bytesAt 0x10100000 k
    let made := fun (id ty : Nat) (b : List Byte) => ({ type := ty, ver := (tfind s.vault.objs id).elim 1 fun p => p.ver + 1, time := s.open.now, data := b } : VObj)
    (s.sys.phase ≠ 4 ∨ (s.sys.pins ≠ 2 ∧ s.sys.hold = false) ∨ rung = s.sys.bell → ran = .next s) ∧
    (s.sys.phase = 4 → s.sys.pins = 2 ∨ s.sys.hold = true → rung ≠ s.sys.bell → s.cleanFor .keeper 0x10900000 8 →
      s.memNat 0x10900000 4 = n → s.memNat 0x10900004 4 = k →
      (0x100000 < n ∨ 0x800000 < k → ran = tells .badValue) ∧
      (n ≤ 0x100000 → k ≤ 0x800000 → s.cleanFor .keeper 0x10000000 n → s.cleanFor .keeper 0x10100000 k →
        (s.open.signed fw = false ∨ s.open.signed rc = false → ran = tells .imageSignature) ∧
        (s.open.signed fw = true → s.open.signed rc = true → s.vault.st ≠ 0 →
          ran = if med.fail ≠ 0 then tells (nandStatus med) else .next { ((answered.withObj 0x10 (made 0x10 4 fw)).withObj 0x100 (made 0x100 1 rc)).nandDid med with sys := { s.sys with bell := rung, phase := 5, src := 2 } }) ∧
        (s.open.signed fw = true → s.open.signed rc = true → s.vault.st = 0 →
          ((∀ c ∈ s.vault.ce, c = 0) → ran = tells .vaultWorn) ∧
          ((∃ c ∈ s.vault.ce, c ≠ 0) → med.fail = 0 → ∃ m : State, ran = .next m ∧ m.sys = { s.sys with bell := rung, phase := 5, src := 2 } ∧
            (m.vault.objs.map fun c => c.1) = [0x10, 0x100] ∧ (tget ⟨0, 0, 0, 0, [], 0, []⟩ m.vault.objs 0x10).data = fw ∧ (tget ⟨0, 0, 0, 0, [], 0, []⟩ m.vault.objs 0x100).data = rc))))) ∧
  (∀ (s : State) (e : Nat), s.committing .start →
    let bit := fun (j : Nat) => (s.snap .start (0x40000100 + 4 * (j / 32))).getLsbD (j % 32)
    let time := (s.snap .start 0x40000118).toNat + 2 ^ 32 * (s.snap .start 0x4000011C).toNat
    let named := (List.range 192).filter bit
    let bad := fun (j : Nat) => !((s.open.en j).loaded && s.startable j)
    let fails := fun (st : St) (check index : Nat) => (Host.Outcome.next (s.finished .start st check index) : Host.Outcome State Fault Refusal)
    (s.sys.starting = true → exec .sysStartCommit s = .next s) ∧ (s.sys.starting = false → exec .engineStart s = .next s) ∧
    (s.sys.starting = false → exec .sysStartCommit s = if named = [] ∨ time < (s.open.cm .start).acc + 1024 then fails .badValue 1 0xFFFF
      else (named.find? bad).elim (.next { s with sys := { s.sys with starting := true } }) fun j => fails .badValue 2 j) ∧
    (s.sys.starting = true → (∀ j ∈ named, s.noJob (4 * j)) → e < 192 →
      let now := max s.open.now time
      ∃ m : State, exec .engineStart s = .next m ∧
        m = { (s.atTime now).finished .start (if named.all s.startable then .ok else .badValue) 0 ((named.find? fun j => !s.startable j).getD 0) with
          thr := m.thr, sys := { s.sys with starting := false, phase := if 6 ≤ s.sys.phase then 15 else s.sys.phase } } ∧
        (∀ t < 4, (0 < t ∨ bit e = false ∨ s.startable e = false) → m.thread e t = s.thread e t) ∧
        (bit e = true → s.startable e = true → m.thread e 0 = { s.thread e 0 with
          run := .ready, pc := (s.open.en e).entry, ring := 0, stk := false, shadow := false, ie := false, dfault := false, rpt := 0, latch := none, br := none
          fence := none, under := [], front := [], bub := 0, hvSeen := false, oneMore := false, rcLeft := 0, rcRing := 0, wdFrom := now, startIn := s.weir.period }))) ∧
  (∀ (s : State) (u : Nat) (fs : List (Nat × Nat × List Nat × Nat)), s.committing .bist →
    let cmd := s.snap .bist 0x40000140
    let fails := fun (k : Nat) => (Host.Outcome.next (s.finished .bist .badValue k 0xFFFF) : Host.Outcome State Fault Refusal)
    let state := if u < 256 ∧ (tget {} s.flt.units (256 + u / 8)).st ≠ 0 then (tget {} s.flt.units (256 + u / 8)).st else (tget {} s.flt.units u).st
    let owned := (List.range 192).any (fun n => decide ((s.open.pin n).mode = 1) && (decide ((s.open.pin n).owner false = u) || (decide ((s.open.pin n).owner true = u) && (s.open.pin n).dual))) ||
      (List.range 48).any fun n => decide ((s.open.link n).st ≠ 0) && (decide ((s.open.link n).owner false = u) || (decide ((s.open.link n).owner true = u) && (s.open.link n).dual))
    let stopped := fun (t : Nat) => decide ((s.thread u t).run = .stopped)
    let result := fun (m : State) => (m.open.rg 0x4000014C).getLsbD 31 = decide ((m.open.rg 0x4000014C).toNat % 2 ^ 31 = 0)
    let ended := fun (m : State) => (m.open.cm .bist).busy = false ∧ (m.open.cm .bist).status = 0
    (cmd = w32 (2 ^ 24 + u) → u < 192 → (∀ c ∈ s.tio, tfind s.tio c.1 = some c.2 ∧ c.1 < 192) → (∀ c ∈ s.dlk, tfind s.dlk c.1 = some c.2 ∧ c.1 < 48) →
      (state ≠ 3 → owned = true ∨ (List.range 4).any (fun t => !stopped t) = true → exec .bistEngine s = fails 2) ∧
      (state = 3 ∨ (owned = false ∧ ∀ t < 4, stopped t = true) → ∃ m : State, exec .bistEngine s = .next m ∧ ended m ∧ result m ∧ m.tide = s.tide ∧
        (∀ t < 4, (m.thread u t).run = .stopped ∧ (m.thread u t).ops = []) ∧ (∀ e < 193, e ≠ u → ∀ t < 4, m.thread e t = s.thread e t) ∧ m.eth = s.eth ∧ m.vault = s.vault)) ∧
    (cmd = w32 (2 ^ 25 + u) → u < 24 →
      let there := (tget {} s.flt.units (256 + u)).st
      (there ≠ 3 → exec (.bistPolder fs) s = fails 2) ∧
      (there = 3 → fs = [] → ∃ m : State, exec (.bistPolder fs) s = .next m ∧ ended m ∧ result m ∧
        (∀ e < 8, ∀ t < 4, (m.thread (8 * u + e) t).run = .stopped) ∧ (∀ e < 193, e / 8 ≠ u → ∀ t < 4, m.thread e t = s.thread e t) ∧ m.eth = s.eth ∧ m.vault = s.vault)) ∧
    (cmd = w32 (3 * 2 ^ 24 + u) → u < 8 →
      (cfgMode (s.open.port u).cfg ≠ 0 → exec .bistSerdes s = fails 2) ∧
      (cfgMode (s.open.port u).cfg = 0 → ∃ m : State, exec .bistSerdes s = .next m ∧ result m ∧ (m.open.rg 0x4000014C).toNat % 2 ^ 31 < 2 ^ 24 ∧
        m = { s.finished .bist .ok with free := s.free + 1, regs := tset s.regs 0x4000014C (m.open.rg 0x4000014C) }))) ∧
  ∀ (s : State), s.committing .otp →
    let k := (s.snap .otp 0x404F0010).toNat
    let may := decide (s.sys.pins ≠ 0 ∧ s.sys.pins ≠ 2 ∧ k ≤ 32) && !(tget 0 s.sys.otp 32).getLsbD 31
    exec .otpProgram s = .next (if may then { s with sys := { s.sys with otp := tset s.sys.otp k (tget 0 s.sys.otp k ||| s.snap .otp 0x404F0014) } }.finished .otp .ok
      else s.finished .otp .badValue 1 0xFFFF)

/-- Debug and boundary scan (17 R646 to R655). What EXTEST and SAMPLE capture is free: notes/assumptions/22. -/
def Obligations.DebugPortAndTestAccess : Prop :=
  (∀ (s : State) (act e t : Nat), s.committing .thr → t < 4 → e < 256 →
    let word := s.snap .thr 0x404F0040
    let E := if e = 0xFE then 192 else e
    let x := s.thread E t
    let cmd := fun (k : Nat) => if k = 1 then exec .dbgHalt s else if k = 2 then exec .dbgResume s else exec .dbgStep s
    let fails := (Host.Outcome.next (s.finished .thr .badValue 1 0xFFFF) : Host.Outcome State Fault Refusal)
    let plain := fun (o : Nat) => o % 4 = 0 ∧ (o ≤ 0xC0 ∨ o = 0x104)
    let put := fun (y : Thread) (c : Nat × Word) =>
      if c.1 < 0x80 then y.setD y.shadow (c.1 / 4) c.2
      else if c.1 < 0xC0 then y.setA y.shadow ((c.1 - 0x80) / 4) c.2
      else if c.1 = 0xC0 then y.setPr y.shadow c.2
      else { y with pc := c.2, br := none, rpt := 0, latch := none, front := [], bub := 0 }
    let going := fun (y : Thread) => { y with halted := false, dbgHeld := [], stepReq := decide (act = 3), wdFrom := s.open.now, startIn := s.weir.period }
    (word = w32 (2 ^ 24 * act + 2 ^ 8 * t + e) → 1 ≤ act → act ≤ 3 →
      (192 ≤ e → e ≠ 0xFE → cmd act = fails) ∧
      (e < 192 ∨ e = 0xFE → act ≠ 1 → x.halted = false → cmd act = fails) ∧
      (e < 192 ∨ e = 0xFE → act = 1 → cmd act = .next ((s.withThread E t { x with halted := true, stepReq := false }).finished .thr .ok)) ∧
      (e < 192 ∨ e = 0xFE → act ≠ 1 → x.halted = true → (∀ c ∈ x.dbgHeld, plain c.1) →
        cmd act = .next ((s.withThread E t (going (x.dbgHeld.foldl put x))).finished .thr .ok)) ∧
      (e < 192 ∨ e = 0xFE → act ≠ 1 → x.halted = true → ∃ m : State, cmd act = .next m ∧ m.thread E t = going (m.thread E t) ∧
        (m.open.cm .thr).busy = false ∧ (m.open.cm .thr).status = 0 ∧ (∀ k, k ≠ tkey E t → m.open.th k = s.open.th k) ∧ m.mem = s.mem)) ∧
    (word.toNat / 2 ^ 24 % 16 = act → 1 ≤ act → act ≤ 3 → word.toNat / 2 ^ 28 ≠ 0 ∨ word.toNat / 2 ^ 10 % 2 ^ 14 ≠ 0 → cmd act = fails)) ∧
  (∀ (s : State) (r : By) (o p e t : Nat) (v : Word), s.sys.held = false → byOk r = true → s.open.diked (reqOf r).who 0 = false → o < 512 → o % 4 = 0 → p < 24 → e ≤ 192 → t < 4 →
    let may := (reqOf r).top && (decide ((reqOf r).who ≠ .dap) || s.open.dapIsOpen)
    let refused := (Host.Outcome.next { s with resp := { err := some .busError } } : Host.Outcome State Fault Refusal)
    let acked := { s with resp := {} }
    let named := (s.open.stg 0x404F0040).toNat % 2 ^ 10 = 2 ^ 8 * t + if e = 192 then 0xFE else e
    let ctrl := 0x404F0100 + 0x10 * p
    let old := s.open.rg ctrl
    (may = false → exec (.dbgTswWrite r o v) s = refused ∧ exec (.dbgUnlock r v) s = refused ∧ exec (.dbgTrcctrlWrite r p v) s = refused) ∧
    (may = true → named → exec (.dbgTswWrite r o v) s = .next (
      if (s.thread e t).halted ∧ (o ≤ 0xC0 ∨ (0x100 ≤ o ∧ o < 0x134)) then acked.withThread e t { s.thread e t with dbgHeld := (s.thread e t).dbgHeld ++ [(o, v)] } else acked)) ∧
    (may = true → exec (.dbgUnlock r v) s = .next (
      if (reqOf r).who = .keeper ∧ v = 1 ∧ (tget 0 s.sys.otp 32).toNat / 2 % 4 = 1 then { acked with sys := { s.sys with dapOpen := true } } else acked)) ∧
    (may = true → old.getLsbD 31 = true → exec (.dbgTrcctrlWrite r p v) s = .next { acked with regs := tset s.regs ctrl (if v.getLsbD 31 then old else old &&& 0x7FFFFFFF) }) ∧
    (may = true → old.getLsbD 31 = false → exec (.dbgTrcctrlWrite r p v) s = .next { acked with
      regs := tset s.regs ctrl (v &&& 0xC000003C)
      trace := if v.getLsbD 31 then tset s.trace p { tget ({} : Trace) s.trace p with eng := (s.open.stg 0x404F0040).toNat % 2 ^ 8 } else s.trace })) ∧
  (∀ (s : State) (a pa : Nat) (v : Word) (b : Blk), s.sys.held = false → a < 2 ^ 32 →
    let mode := (tget 0 s.sys.otp 32).toNat / 2 % 4
    let isOpen := mode = 0 ∨ (mode = 1 ∧ s.sys.dapOpen = true)
    let got := fun (z : State) (e : Bool) (d : Word) => (Host.Outcome.next { z with tap := { z.tap with err := e, data := d } } : Host.Outcome State Fault Refusal)
    (s.tap.ir ≠ 0x10 → exec (.dapRead a) s = .next s ∧ exec (.dapWrite a v) s = .next s) ∧
    (s.tap.ir = 0x10 → ¬ isOpen ∨ a % 4 ≠ 0 → exec (.dapRead a) s = got s true 0 ∧ exec (.dapWrite a v) s = got s true 0) ∧
    (s.tap.ir = 0x10 → isOpen → a % 4 = 0 → mtxMap a = .mem pa →
      (s.cleanFor .dap pa 4 → exec (.dapRead a) s = got s false (s.wordAt pa)) ∧
      (s.writableFor .dap pa 4 → exec (.dapWrite a v) s = got { s with mem := laid s.mem pa (leBytes 4 v.toNat) } false 0)) ∧
    (s.tap.ir = 0x10 → isOpen → blkOk b = true → blkHas b a = true → a % 4 = 0 → latches a = [] → latched a = false →
      exec (.dapRead a) s = got s false (s.open.stg a)) ∧
    (s.tap.ir = 0x10 → isOpen → a % 4 = 0 → mtxMap a = .reg a → ∃ m : State, exec (.registerWrite ⟨.dap, 0⟩ a v) s = .next m ∧ ∃ z : State, exec (.dapWrite a v) s = .next z ∧
      (m.sys.held = false → m.sys = s.sys → z = { m with resp := s.resp, tap := { s.tap with err := m.resp.err.isSome, data := 0 } }))) ∧
  ∀ (s : State) (bits : List Bool),
    let mode := (tget 0 s.sys.otp 32).toNat / 2 % 4
    let isOpen := mode = 0 ∨ (mode = 1 ∧ s.sys.dapOpen = true)
    let code := (if s.part.a1 then 0x119209C7 else 0x219209C7 : Word)
    let picked := fun (z : State) (ir : Nat) (hold : Bool) (d : Word) => { z with tap := { s.tap with ir := ir, hold := hold, err := false, data := d } }
    let held := if s.tap.hold then s else s.resetBy 32
    let passed := (Host.Outcome.next (picked s 0x3F false 0) : Host.Outcome State Fault Refusal)
    (2 ≤ mode → exec (.extest bits) s = passed ∧ exec .clamp s = passed ∧ exec .highz s = passed ∧ exec .dapacc s = passed) ∧
    (mode < 2 →
      (∃ m : State, exec (.extest bits) s = .next m ∧ m = { held with free := s.free + 1, tap := { s.tap with ir := 0, hold := true, err := false, data := m.tap.data, bsr := bits } }) ∧
      exec .clamp s = .next (picked held 4 true 0) ∧ exec .highz s = .next (picked held 5 true 0) ∧
      exec .dapacc s = .next { s with tap := { s.tap with ir := 0x10, hold := false, err := decide (¬ isOpen), data := if isOpen then s.tap.data else 0 } }) ∧
    exec .bypass s = passed ∧ exec .idcode s = .next (picked s 1 false code) ∧ exec .tapReset s = .next (picked s 1 false code) ∧
    ∃ m : State, exec (.samplePreload bits) s = .next m ∧ m = { s with free := s.free + 1, tap := { s.tap with ir := 2, hold := false, err := false, data := m.tap.data, bsr := bits } }

/-- The end of a commit (00 R19, R20). The command and what the medium and the tests find are the model's way to let a
commit end, notes/assumptions/1, 19 and 20. -/
def Obligations.AnyBlocksCommitEnds : Prop :=
  (∀ (s : State) (b : Blk) (med : Med) (fs : List (Nat × Nat × List Nat × Nat)), blkOk b = true →
    (s.open.cm b).busy = false → exec (.commitComplete b med fs) s = .next s) ∧
  (∀ (s : State) (b : Blk) (med : Med) (fs : List (Nat × Nat × List Nat × Nat)), blkOk b = true → s.committing b →
    b ≠ .vlt → b ≠ .flt → b ≠ .start → (b = .slot → s.floorsMet) →
    ∃ m : State, exec (.commitComplete b med fs) s = .next m ∧ (m.open.cm b).busy = false ∧
      (m.open.cm b).seq = (s.open.cm b).seq ∧
      ((m.open.cm b).status ≠ 0 →
        m = { s with
          com := tset s.com (blkCommit b)
            { s.open.cm b with
              busy := false, status := (m.open.cm b).status, check := (m.open.cm b).check, index := (m.open.cm b).index } })) ∧
  (∀ (s : State) (med : Med) (fs : List (Nat × Nat × List Nat × Nat)), s.committing .start →
    exec (.commitComplete .start med fs) s = exec .sysStartCommit s) ∧
  (∀ (s : State) (act : Nat) (med : Med) (fs : List (Nat × Nat × List Nat × Nat)), s.vltAsked act → 1 ≤ act → act ≤ 10 →
    exec (.commitComplete .vlt med fs) s =
      [exec (.vltWrite med) s, exec (.vltRead med) s, exec (.vltDelete med) s, exec (.vltAppend med) s, exec (.vltStat med) s, exec (.vltLoad med) s, exec (.vltTable med) s, exec (.vltFormat med) s, exec (.vltScrub med) s, exec (.vltConfig med) s].getD (act - 1) (.next s)) ∧
  (∀ (s : State) (act : Nat) (med : Med) (fs : List (Nat × Nat × List Nat × Nat)), s.committing .flt →
    (s.snap .flt fltReg).toNat / 2 ^ 24 % 16 = act → 1 ≤ act → act ≤ 6 →
    exec (.commitComplete .flt med fs) s =
      [exec .fltClose s, exec .fltReset s, exec .fltReadmit s, exec .fltJoin s, exec .fltDisarm s, exec .fltConfig s].getD (act - 1) (.next s)) ∧
  (∀ (s : State) (e act : Nat) (med : Med) (fs : List (Nat × Nat × List Nat × Nat)), engOk e = true → s.committing (.tbl e) →
    (s.snap (.tbl e) (tblReg e)).toNat / 2 ^ 24 % 16 = act → 1 ≤ act → act ≤ 4 →
    exec (.commitComplete (.tbl e) med fs) s =
      [exec (.tblInstall e) s, exec (.tblDisarm e) s, exec (.tblRemove e) s, exec (.tblRelease e) s].getD (act - 1) (.next s)) ∧
  (∀ (s : State) (n act : Nat) (med : Med) (fs : List (Nat × Nat × List Nat × Nat)), linkOk n = true → s.committing (.dlk n) →
    (s.snap (.dlk n) (dlkReg n + 0x2C)).toNat / 2 ^ 24 % 16 = act → 1 ≤ act → act ≤ 5 →
    exec (.commitComplete (.dlk n) med fs) s =
      [exec (.dlkStart n) s, exec (.dlkTables n) s, exec (.dlkStop n) s, exec (.dlkDisarm n) s, exec (.dlkJoin n) s].getD (act - 1) (.next s)) ∧
  ∀ (s : State) (act : Nat) (med : Med) (fs : List (Nat × Nat × List Nat × Nat)), s.committing .tide →
    (s.snap .tide (tideReg + 8)).toNat / 2 ^ 24 % 16 = act → 1 ≤ act → act ≤ 4 →
    exec (.commitComplete .tide med fs) s =
      [exec .tideSource s, exec .tideAdjust s, exec .tideStep s, exec .tideState s].getD (act - 1) (.next s)

/-- A step runs the command at the front of the queue (notes/assumptions/1). -/
def Obligations.QueueStepIsExec : Prop :=
  (∀ (c : Instr) (s : State), step { s with pending := c :: s.pending } = exec c s) ∧
  ∀ (c : Instr) (s : State) (rest : List Instr), s.pending = c :: rest → step s = exec c { s with pending := rest }

/-- The tick of the network clock (12 R461): what an empty queue does is the model's choice, notes/assumptions/2. -/
def Obligations.EmptyQueueTicks : Prop :=
  ∀ (s : State), s.pending = [] →
    (s.sys.held = false → step s = .next { s with tide := { s.tide with count := (s.tide.count + 1) % 2 ^ 64 } }) ∧
    (s.sys.held = true → step s = .next s)

/-- The state after power-on reset; which moment it is and what lies in memory are the model's choices,
notes/assumptions/5 and 18. -/
def Obligations.ResetLeavesItsValues : Prop :=
  let z := State.reset
  (∀ e < 193, ∀ t < 4,
    (z.thread e t).run = (if t = 0 then Run.ready else Run.stopped) ∧ (z.thread e t).stk = decide (t = 0) ∧
    (z.thread e t).ring = 0 ∧ (t = 0 → (z.thread e t).pc = 0 ∧ z.areg e t 15 = 0x1FF00) ∧
    (z.thread e t).nb = {} ∧ (z.thread e t).sb = {} ∧ (z.thread e t).ops = [] ∧ (z.thread e t).evq = [] ∧
    (z.open.en e).strict = false ∧ (z.open.en e).exposed = false) ∧
  z.open.now = 0 ∧
  (∀ b : Blk, (z.open.cm b).result = 0 ∧ (z.open.cm b).detail = 0) ∧
  z.sys = { phase := 1, src := 3, last := 1, sticky := 1 } ∧
  (∀ p < 25, ∀ b < 64, isBank p b → (z.open.bk p b).st = 2) ∧
  (∀ u < 280, u < 192 ∨ 256 ≤ u → (z.open.unit u).st = 0) ∧ z.flt.head = 0 ∧
  (∀ c ∈ ([(0x40060040, 0x02020202), (0x40050000, 0x11111111), (0x4005001C, 0x11), (dlkReg 7, 0xFFFF0000), (0x40010000, 19000),
      (0x40010008, 0x01A4017C), (pldReg 23, 790), (pldReg 23 + 4, 0x500), (pldReg 23 + 8, 256), (fltReg + 0x18, 0x2045),
      (sntReg 191 + 8, 0x0F800000)] : List (Nat × Word)), z.open.stg c.1 = c.2) ∧
  z.mem.cells = [] ∧ z.pending = []

/-- Reset has the invariant (notes/assumptions/5). -/
def Obligations.ResetHasTheInvariant : Prop := State.reset.inv

/-- Every step keeps the invariant (notes/assumptions/1 and 5). -/
def Obligations.EveryStepIsSafe : Prop :=
  ∀ s : State, s.inv →
    (∃ t : State, step s = .next t ∧ t.inv ∧ t.pending = s.pending.tail) ∧ ∀ t : State, step s = .next t → t.inv

/-- Every command completes; ill-formed operands do nothing (notes/assumptions/1). -/
def Obligations.EveryCommandLeavesTheQueue : Prop :=
  ∀ (c : Instr) (s : State),
    (∃ t : State, exec c s = .next t ∧ t.pending = s.pending ∧ (s.inv → t.inv)) ∧
    (c.wellFormed = false → exec c s = .next s)

/-- A device in reset (17 R628, R630, R646). -/
def Obligations.NothingRunsWhileResetIsAsserted : Prop :=
  ∀ (c : Instr) (s : State), s.sys.held = true → actsInReset c = false → exec c s = .next s

/-- Operation codes (04 R129, R130). -/
def Obligations.OperationCodesRoundTrip : Prop :=
  ∀ (u : UnitId) (f : UOp),
    (f.fits u = true → f.code < 2 ^ 32 ∧ decodeOp u (w32 f.code) = some f) ∧
    ∀ w : Word, decodeOp u w = some f → f.fits u = true ∧ w32 f.code = w
end

