-- ==== Sys2Proof/Laws/Tbl.lean ====
section
/-! SUPPORT. Laws of the tables: a read after a write. -/

namespace Sys2Proof.Machine

theorem tget_tset_same {α : Type} (d : α) (t : Tbl α) (n : Nat) (x : α) : tget d (tset t n x) n = x := by
  induction t with
  | nil => simp [tset, tget]
  | cons c r ih =>
    obtain ⟨k, v⟩ := c
    by_cases h1 : n < k
    · simp [tset, h1, tget]
    · by_cases h2 : n = k
      · simp [tset, h2, tget]
      · have h3 : k ≠ n := fun h => h2 h.symm
        simp [tset, h1, h2, tget, h3, ih]

theorem tget_tset_ne {α : Type} (d : α) (t : Tbl α) {n m : Nat} (x : α) (h : n ≠ m) :
    tget d (tset t n x) m = tget d t m := by
  induction t with
  | nil => simp [tset, tget, h]
  | cons c r ih =>
    obtain ⟨k, v⟩ := c
    by_cases h1 : n < k
    · simp [tset, h1, tget, h]
    · by_cases h2 : n = k
      · subst h2; simp [tset, tget, h]
      · by_cases h3 : k = m
        · subst h3; simp [tset, h1, h2, tget]
        · simp [tset, h1, h2, tget, h3, ih]

@[simp] theorem tget_tset {α : Type} (d : α) (t : Tbl α) (n m : Nat) (x : α) :
    tget d (tset t n x) m = if n = m then x else tget d t m := by
  by_cases h : n = m
  · subst h; simp [tget_tset_same]
  · simp [h, tget_tset_ne]

theorem tfind_tset {α : Type} (t : Tbl α) (n m : Nat) (x : α) :
    tfind (tset t n x) m = if n = m then some x else tfind t m := by
  induction t with
  | nil => simp [tset, tfind]
  | cons c r ih =>
    obtain ⟨k, v⟩ := c
    by_cases h1 : n < k
    · by_cases h : n = m
      · subst h; simp [tset, h1, tfind]
      · simp [tset, h1, tfind, h]
    · by_cases h2 : n = k
      · subst h2; by_cases h : n = m <;> simp [tset, tfind, h]
      · by_cases h3 : k = m
        · subst h3; simp [tset, h1, h2, tfind]
        · simp [tset, h1, h2, tfind, h3, ih]

@[simp] theorem tset_tset {α : Type} (t : Tbl α) (n : Nat) (x y : α) : tset (tset t n x) n y = tset t n y := by
  induction t with
  | nil => simp [tset]
  | cons c r ih =>
    obtain ⟨k, v⟩ := c
    by_cases h1 : n < k
    · simp [tset, h1]
    · by_cases h2 : n = k
      · subst h2; simp [tset]
      · simp [tset, h1, h2, ih]

theorem tget_eq_tfind {α : Type} (d : α) (t : Tbl α) (n : Nat) : tget d t n = (tfind t n).getD d := by
  induction t with
  | nil => rfl
  | cons c r ih => obtain ⟨k, v⟩ := c; by_cases h : k = n <;> simp [tget, tfind, h, ih]

theorem tget_filter {α : Type} (d : α) (t : Tbl α) (p : Nat → Bool) (n : Nat) :
    tget d (t.filter fun c => p c.1) n = if p n then tget d t n else d := by
  induction t with
  | nil => simp [tget]
  | cons c r ih =>
    obtain ⟨k, v⟩ := c
    by_cases hp : p k
    · by_cases h : k = n
      · subst h; simp [hp, tget]
      · simp [hp, tget, h, ih]
    · by_cases h : k = n
      · subst h; simp [hp, ih]
      · simp [hp, tget, h, ih]

theorem tget_tdel {α : Type} (d : α) (t : Tbl α) (n m : Nat) :
    tget d (tdel t n) m = if m = n then d else tget d t m := by
  have := tget_filter d t (fun k => k != n) m
  by_cases h : m = n <;> simp_all [tdel]

end Sys2Proof.Machine
end

