-- ==== Sys2Proof/Laws/Memory.lean ====
section
/-! SUPPORT. Laws of memory: a read after a write or a fill, the journal, and the canonical form. -/

namespace Sys2Proof.Machine

@[simp] theorem Memory.unlisted_write (m : Memory) (a b : Nat) (v : Byte) :
    (m.write a v).unlisted b = m.unlisted b := rfl

theorem Memory.read_write_same (m : Memory) (a : Nat) (v : Byte) : (m.write a v).read a = v := by
  by_cases h : v = m.unlisted a
  · simp [Memory.read, Memory.write, Memory.unlisted, Memory.backOf, h, tget_tdel]
  · unfold Memory.read Memory.write
    rw [if_neg h]
    exact tget_tset_same _ _ _ _

theorem Memory.read_write_ne (m : Memory) {a b : Nat} (v : Byte) (h : a ≠ b) :
    (m.write a v).read b = m.read b := by
  have hb : b ≠ a := fun e => h e.symm
  unfold Memory.read
  rw [Memory.unlisted_write]
  by_cases hv : v = m.unlisted a
  · simp [Memory.write, hv, tget_tdel, hb]
  · simp only [Memory.write, if_neg hv]
    exact tget_tset_ne _ _ _ h

theorem Memory.read_write (m : Memory) (a b : Nat) (v : Byte) :
    (m.write a v).read b = if a = b then v else m.read b := by
  by_cases h : a = b
  · subst h; simp [Memory.read_write_same]
  · simp [h, Memory.read_write_ne]

/-- The background of a region just filled. -/
def backByte (n : Option Nat) (a : Nat) : Byte := match n with | some k => Config.freeByte k a | none => 0

theorem Region.has_of_covers {r c : Region} {a : Nat} (h : r.covers c = true) (ha : c.has a = true) : r.has a = true := by
  simp only [Region.covers, Region.has, Bool.and_eq_true, Bool.or_eq_true, decide_eq_true_eq] at *
  omega

theorem Region.meets_of_has {r c : Region} {a : Nat} (h : r.has a = true) (ha : c.has a = true) : r.meets c = true := by
  simp only [Region.meets, Region.has, Bool.and_eq_true, decide_eq_true_eq] at *
  omega

/-- Outside a region, dropping what it covers changes no background. -/
theorem find_uncovered (l : List (Region × Option Nat)) {r : Region} {a : Nat} (h : r.has a = false) :
    (l.filter fun c => !r.covers c.1).find? (fun c => c.1.has a) = l.find? fun c => c.1.has a := by
  induction l with
  | nil => rfl
  | cons c l ih =>
    by_cases hc : r.covers c.1 = true
    · have : c.1.has a = false := by
        cases hx : c.1.has a
        · rfl
        · rw [Region.has_of_covers hc hx] at h; exact absurd h (by decide)
      simp [hc, this, ih]
    · by_cases hx : c.1.has a = true <;> simp [hc, hx, ih]

/-- The background entry of an address after a fill. -/
theorem find_backFill (l : List (Region × Option Nat)) (r : Region) (n : Option Nat) (a : Nat) :
    ((backFill l r n).find? fun c => c.1.has a) =
      if r.has a then
        if n = none ∧ (l.filter fun c => !r.covers c.1).all (fun c => !r.meets c.1) then none else some (r, n)
      else l.find? fun c => c.1.has a := by
  unfold backFill
  by_cases h : r.has a = true
  · by_cases hn : n = none ∧ (l.filter fun c => !r.covers c.1).all (fun c => !r.meets c.1) = true
    · simp only [if_pos hn, if_pos h]
      rw [List.find?_eq_none]
      intro c hc hx
      have := List.all_eq_true.1 hn.2 c hc
      rw [Region.meets_of_has h hx] at this
      exact absurd this (by decide)
    · rw [if_neg hn, if_pos h, if_neg hn]
      simp [h]
  · have hf : r.has a = false := by simpa using h
    rw [if_neg h]
    by_cases hn : n = none ∧ (l.filter fun c => !r.covers c.1).all (fun c => !r.meets c.1) = true
    · simp only [if_pos hn, find_uncovered l hf]
    · simp only [if_neg hn, List.find?_cons, hf, find_uncovered l hf]

theorem Memory.unlisted_fill (m : Memory) (r : Region) (n : Option Nat) (a : Nat) :
    (m.fill r n).unlisted a = if r.has a then backByte n a else m.unlisted a := by
  have hb : (m.fill r n).backOf a = _ := find_backFill m.back r n a
  unfold Memory.unlisted
  rw [hb]
  by_cases h : r.has a = true
  · rw [if_pos h, if_pos h]
    by_cases hn : n = none ∧ (m.back.filter fun c => !r.covers c.1).all (fun c => !r.meets c.1) = true
    · rw [if_pos hn, hn.1]; rfl
    · rw [if_neg hn]; cases n <;> rfl
  · rw [if_neg h, if_neg h]; rfl

theorem Memory.read_fill (m : Memory) (r : Region) (n : Option Nat) (a : Nat) :
    (m.fill r n).read a = if r.has a then backByte n a else m.read a := by
  have hc : (m.fill r n).cells = m.cells.filter fun c => !r.has c.1 := rfl
  unfold Memory.read
  rw [Memory.unlisted_fill, hc, tget_filter _ _ (fun k => !r.has k)]
  by_cases h : r.has a <;> simp [h]

theorem jrRead_eq (m : Memory) (j : List MemEff) (a : Nat) : jrRead m j a = (applyJr m j).read a := by
  induction j with
  | nil => rfl
  | cons e r ih =>
    cases e with
    | put k b =>
      simp only [jrRead, applyJr, MemEff.apply, Memory.read_write]
      by_cases h : k = a <;> simp [h, ih]
    | fill g n =>
      simp only [jrRead, applyJr, MemEff.apply, Memory.read_fill]
      by_cases h : g.has a
      · cases n <;> simp [h, backByte]
      · simp [h, ih]

/-! ### The canonical form -/

/-- The addresses of a list of cells rise strictly. -/
def Rises (t : List Host.Cell) : Prop := t.Pairwise fun a b => a.1 < b.1

theorem rising_iff (t : List Host.Cell) : rising t = true ↔ Rises t := by
  induction t with
  | nil => simp [rising, Rises]
  | cons a r ih =>
    cases r with
    | nil => simp [rising, Rises]
    | cons b r =>
      simp only [rising, Bool.and_eq_true, decide_eq_true_eq, ih, Rises, List.pairwise_cons]
      constructor
      · rintro ⟨h, hb, hr⟩
        refine ⟨?_, hb, hr⟩
        intro c hc
        rcases List.mem_cons.1 hc with rfl | hc
        · exact h
        · exact Nat.lt_trans h (hb c hc)
      · rintro ⟨ha, hb, hr⟩
        exact ⟨ha b (List.mem_cons_self ..), hb, hr⟩

theorem mem_tset {t : List Host.Cell} {n : Nat} {x : Byte} {c : Host.Cell} (h : c ∈ tset t n x) :
    c = (n, x) ∨ c ∈ t := by
  induction t with
  | nil => simp [tset] at h; exact .inl h
  | cons d r ih =>
    obtain ⟨k, v⟩ := d
    by_cases h1 : n < k
    · simp [tset, h1] at h
      rcases h with h | h | h
      · exact .inl h
      · exact .inr (by simp [h])
      · exact .inr (by simp [h])
    · by_cases h2 : n = k
      · subst h2
        simp [tset] at h
        rcases h with h | h
        · exact .inl h
        · exact .inr (by simp [h])
      · simp [tset, h1, h2] at h
        rcases h with h | h
        · exact .inr (by simp [h])
        · rcases ih h with h | h
          · exact .inl h
          · exact .inr (by simp [h])

theorem rises_tset {t : List Host.Cell} (n : Nat) (x : Byte) (h : Rises t) : Rises (tset t n x) := by
  induction t with
  | nil => simp [tset, Rises]
  | cons d r ih =>
    obtain ⟨k, v⟩ := d
    have hk := (List.pairwise_cons.1 h).1
    have hr : Rises r := (List.pairwise_cons.1 h).2
    by_cases h1 : n < k
    · simp only [tset, h1, if_true]
      refine List.pairwise_cons.2 ⟨?_, h⟩
      intro c hc
      rcases List.mem_cons.1 hc with rfl | hc
      · exact h1
      · exact Nat.lt_trans h1 (hk c hc)
    · by_cases h2 : n = k
      · subst h2
        simp only [tset, Nat.lt_irrefl, if_false, if_true]
        exact List.pairwise_cons.2 ⟨hk, hr⟩
      · simp only [tset, h1, h2, if_false]
        refine List.pairwise_cons.2 ⟨?_, ih hr⟩
        intro c hc
        rcases mem_tset hc with rfl | hc
        · show k < n
          omega
        · exact hk c hc

theorem Memory.wf_iff (m : Memory) :
    m.wf = true ↔ Rises m.cells ∧ ∀ c ∈ m.cells, c.2 ≠ m.unlisted c.1 := by
  simp [Memory.wf, rising_iff]

theorem Memory.wf_write (m : Memory) (a : Nat) (v : Byte) (h : m.wf = true) : (m.write a v).wf = true := by
  rw [Memory.wf_iff] at *
  obtain ⟨hr, hc⟩ := h
  by_cases hv : v = m.unlisted a
  · have hcells : (m.write a v).cells = tdel m.cells a := by simp [Memory.write, hv]
    rw [hcells]
    refine ⟨hr.filter _, fun c hc' => ?_⟩
    exact hc c (List.mem_filter.1 hc').1
  · have hcells : (m.write a v).cells = tset m.cells a v := by simp [Memory.write, hv]
    rw [hcells]
    refine ⟨rises_tset a v hr, fun c hc' => ?_⟩
    rcases mem_tset hc' with rfl | hc'
    · exact hv
    · exact hc c hc'

theorem Memory.wf_fill (m : Memory) (r : Region) (n : Option Nat) (h : m.wf = true) :
    (m.fill r n).wf = true := by
  rw [Memory.wf_iff] at *
  obtain ⟨hr, hc⟩ := h
  have hcells : (m.fill r n).cells = m.cells.filter fun c => !r.has c.1 := rfl
  rw [hcells]
  refine ⟨hr.filter _, fun c hc' => ?_⟩
  obtain ⟨hm, hn⟩ := List.mem_filter.1 hc'
  rw [Memory.unlisted_fill]
  have : r.has c.1 = false := by simpa using hn
  simpa [this] using hc c hm

/-- A journal keeps memory in canonical form. -/
theorem applyJr_wf (m : Memory) (j : List MemEff) (h : m.wf = true) : (applyJr m j).wf = true := by
  induction j with
  | nil => exact h
  | cons e r ih =>
    cases e with
    | put a b => exact Memory.wf_write _ _ _ ih
    | fill g n => exact Memory.wf_fill _ _ _ ih

end Sys2Proof.Machine
end

