-- ==== Sys2Proof/Laws/State.lean ====
section
/-! SUPPORT. What each named update of the working state changes, field by field: one lemma per update for the
machine and each of its other parts, and the accessors after an update. -/

namespace Sys2Proof.Machine

/-! ### Updates -/

@[simp] theorem W.setTh_toDev (w : W) (k : Nat) (x : Thread) :
    (w.setTh k x).toDev = { w.toDev with thr := tset w.thr k x } := rfl
@[simp] theorem W.setTh_base (w : W) (k : Nat) (x : Thread) : (w.setTh k x).base = w.base := rfl
@[simp] theorem W.setTh_jr (w : W) (k : Nat) (x : Thread) : (w.setTh k x).jr = w.jr := rfl
@[simp] theorem W.setTh_sig (w : W) (k : Nat) (x : Thread) : (w.setTh k x).sig = w.sig := rfl
@[simp] theorem W.modTh_toDev (w : W) (k : Nat) (f : Thread → Thread) :
    (w.modTh k f).toDev = { w.toDev with thr := tset w.thr k (f (w.th k)) } := rfl
@[simp] theorem W.modTh_base (w : W) (k : Nat) (f : Thread → Thread) : (w.modTh k f).base = w.base := rfl
@[simp] theorem W.modTh_jr (w : W) (k : Nat) (f : Thread → Thread) : (w.modTh k f).jr = w.jr := rfl
@[simp] theorem W.modTh_sig (w : W) (k : Nat) (f : Thread → Thread) : (w.modTh k f).sig = w.sig := rfl
@[simp] theorem W.modEn_toDev (w : W) (e : Nat) (f : Engine → Engine) :
    (w.modEn e f).toDev = { w.toDev with eng := tset w.eng e (f (w.en e)) } := rfl
@[simp] theorem W.modEn_base (w : W) (e : Nat) (f : Engine → Engine) : (w.modEn e f).base = w.base := rfl
@[simp] theorem W.modEn_jr (w : W) (e : Nat) (f : Engine → Engine) : (w.modEn e f).jr = w.jr := rfl
@[simp] theorem W.modEn_sig (w : W) (e : Nat) (f : Engine → Engine) : (w.modEn e f).sig = w.sig := rfl
@[simp] theorem W.setRg_toDev (w : W) (a : Nat) (v : Word) :
    (w.setRg a v).toDev = { w.toDev with regs := tset w.regs a v } := rfl
@[simp] theorem W.setRg_base (w : W) (a : Nat) (v : Word) : (w.setRg a v).base = w.base := rfl
@[simp] theorem W.setRg_jr (w : W) (a : Nat) (v : Word) : (w.setRg a v).jr = w.jr := rfl
@[simp] theorem W.setRg_sig (w : W) (a : Nat) (v : Word) : (w.setRg a v).sig = w.sig := rfl
@[simp] theorem W.setCm_toDev (w : W) (b : Blk) (c : Com) :
    (w.setCm b c).toDev = { w.toDev with com := tset w.com (blkCommit b) c } := rfl
@[simp] theorem W.setCm_base (w : W) (b : Blk) (c : Com) : (w.setCm b c).base = w.base := rfl
@[simp] theorem W.setCm_jr (w : W) (b : Blk) (c : Com) : (w.setCm b c).jr = w.jr := rfl
@[simp] theorem W.setCm_sig (w : W) (b : Blk) (c : Com) : (w.setCm b c).sig = w.sig := rfl
@[simp] theorem W.setBk_toDev (w : W) (d b : Nat) (x : MBank) :
    (w.setBk d b x).toDev = { w.toDev with bank := tset w.bank (64 * d + b) x } := rfl
@[simp] theorem W.setBk_base (w : W) (d b : Nat) (x : MBank) : (w.setBk d b x).base = w.base := rfl
@[simp] theorem W.setBk_jr (w : W) (d b : Nat) (x : MBank) : (w.setBk d b x).jr = w.jr := rfl
@[simp] theorem W.setBk_sig (w : W) (d b : Nat) (x : MBank) : (w.setBk d b x).sig = w.sig := rfl
@[simp] theorem W.setPat_toDev (w : W) (d : Nat) (p : Patrol) :
    (w.setPat d p).toDev = { w.toDev with patrol := tset w.patrol d p } := rfl
@[simp] theorem W.setPat_base (w : W) (d : Nat) (p : Patrol) : (w.setPat d p).base = w.base := rfl
@[simp] theorem W.setPat_jr (w : W) (d : Nat) (p : Patrol) : (w.setPat d p).jr = w.jr := rfl
@[simp] theorem W.setPat_sig (w : W) (d : Nat) (p : Patrol) : (w.setPat d p).sig = w.sig := rfl
@[simp] theorem W.setPin_toDev (w : W) (n : Nat) (p : Pin) :
    (w.setPin n p).toDev = { w.toDev with tio := tset w.tio n p } := rfl
@[simp] theorem W.setPin_base (w : W) (n : Nat) (p : Pin) : (w.setPin n p).base = w.base := rfl
@[simp] theorem W.setPin_jr (w : W) (n : Nat) (p : Pin) : (w.setPin n p).jr = w.jr := rfl
@[simp] theorem W.setPin_sig (w : W) (n : Nat) (p : Pin) : (w.setPin n p).sig = w.sig := rfl
@[simp] theorem W.setLink_toDev (w : W) (n : Nat) (l : Link) :
    (w.setLink n l).toDev = { w.toDev with dlk := tset w.dlk n l } := rfl
@[simp] theorem W.setLink_base (w : W) (n : Nat) (l : Link) : (w.setLink n l).base = w.base := rfl
@[simp] theorem W.setLink_jr (w : W) (n : Nat) (l : Link) : (w.setLink n l).jr = w.jr := rfl
@[simp] theorem W.setLink_sig (w : W) (n : Nat) (l : Link) : (w.setLink n l).sig = w.sig := rfl
@[simp] theorem W.setPol_toDev (w : W) (p : Nat) (x : Pol) :
    (w.setPol p x).toDev = { w.toDev with weir := { w.weir with pols := tset w.weir.pols p x } } := rfl
@[simp] theorem W.setPol_base (w : W) (p : Nat) (x : Pol) : (w.setPol p x).base = w.base := rfl
@[simp] theorem W.setPol_jr (w : W) (p : Nat) (x : Pol) : (w.setPol p x).jr = w.jr := rfl
@[simp] theorem W.setPol_sig (w : W) (p : Nat) (x : Pol) : (w.setPol p x).sig = w.sig := rfl
@[simp] theorem W.setDsp_toDev (w : W) (k : Nat) (x : Disp) :
    (w.setDsp k x).toDev = { w.toDev with disp := tset w.disp k x } := rfl
@[simp] theorem W.setDsp_base (w : W) (k : Nat) (x : Disp) : (w.setDsp k x).base = w.base := rfl
@[simp] theorem W.setDsp_jr (w : W) (k : Nat) (x : Disp) : (w.setDsp k x).jr = w.jr := rfl
@[simp] theorem W.setDsp_sig (w : W) (k : Nat) (x : Disp) : (w.setDsp k x).sig = w.sig := rfl
@[simp] theorem W.setUnit_toDev (w : W) (u : Nat) (x : FUnit) :
    (w.setUnit u x).toDev = { w.toDev with flt := { w.flt with units := tset w.flt.units u x } } := rfl
@[simp] theorem W.setUnit_base (w : W) (u : Nat) (x : FUnit) : (w.setUnit u x).base = w.base := rfl
@[simp] theorem W.setUnit_jr (w : W) (u : Nat) (x : FUnit) : (w.setUnit u x).jr = w.jr := rfl
@[simp] theorem W.setUnit_sig (w : W) (u : Nat) (x : FUnit) : (w.setUnit u x).sig = w.sig := rfl
@[simp] theorem W.setCh_toDev (w : W) (c n : Nat) (x : Chan) :
    (w.setCh c n x).toDev = { w.toDev with cul := tset w.cul (16 * c + n) x } := rfl
@[simp] theorem W.setCh_base (w : W) (c n : Nat) (x : Chan) : (w.setCh c n x).base = w.base := rfl
@[simp] theorem W.setCh_jr (w : W) (c n : Nat) (x : Chan) : (w.setCh c n x).jr = w.jr := rfl
@[simp] theorem W.setCh_sig (w : W) (c n : Nat) (x : Chan) : (w.setCh c n x).sig = w.sig := rfl
@[simp] theorem W.setVault_toDev (w : W) (v : Vault) :
    (w.setVault v).toDev = { w.toDev with vault := v } := rfl
@[simp] theorem W.setVault_base (w : W) (v : Vault) : (w.setVault v).base = w.base := rfl
@[simp] theorem W.setVault_jr (w : W) (v : Vault) : (w.setVault v).jr = w.jr := rfl
@[simp] theorem W.setVault_sig (w : W) (v : Vault) : (w.setVault v).sig = w.sig := rfl
@[simp] theorem W.setAnx_toDev (w : W) (a : Annex) :
    (w.setAnx a).toDev = { w.toDev with annex := a } := rfl
@[simp] theorem W.setAnx_base (w : W) (a : Annex) : (w.setAnx a).base = w.base := rfl
@[simp] theorem W.setAnx_jr (w : W) (a : Annex) : (w.setAnx a).jr = w.jr := rfl
@[simp] theorem W.setAnx_sig (w : W) (a : Annex) : (w.setAnx a).sig = w.sig := rfl
@[simp] theorem W.setPort_toDev (w : W) (n : Nat) (x : EthPort) :
    (w.setPort n x).toDev = { w.toDev with eth := tset w.eth n x } := rfl
@[simp] theorem W.setPort_base (w : W) (n : Nat) (x : EthPort) : (w.setPort n x).base = w.base := rfl
@[simp] theorem W.setPort_jr (w : W) (n : Nat) (x : EthPort) : (w.setPort n x).jr = w.jr := rfl
@[simp] theorem W.setPort_sig (w : W) (n : Nat) (x : EthPort) : (w.setPort n x).sig = w.sig := rfl
@[simp] theorem W.toTime_toDev (w : W) (t : Nat) :
    (w.toTime t).toDev = { w.toDev with tide := { w.tide with count := max w.tide.count t } } := rfl
@[simp] theorem W.toTime_base (w : W) (t : Nat) : (w.toTime t).base = w.base := rfl
@[simp] theorem W.toTime_jr (w : W) (t : Nat) : (w.toTime t).jr = w.jr := rfl
@[simp] theorem W.toTime_sig (w : W) (t : Nat) : (w.toTime t).sig = w.sig := rfl

/-! ### Accessors after an update -/

@[simp] theorem W.en_setTh (w : W) (k : Nat) (x : Thread) (i : Nat) : (w.setTh k x).en i = w.en i := rfl
@[simp] theorem W.en_modTh (w : W) (k : Nat) (f : Thread → Thread) (i : Nat) : (w.modTh k f).en i = w.en i := rfl
@[simp] theorem W.th_modEn (w : W) (e : Nat) (f : Engine → Engine) (i : Nat) : (w.modEn e f).th i = w.th i := rfl
@[simp] theorem W.th_setRg (w : W) (a : Nat) (v : Word) (i : Nat) : (w.setRg a v).th i = w.th i := rfl
@[simp] theorem W.en_setRg (w : W) (a : Nat) (v : Word) (i : Nat) : (w.setRg a v).en i = w.en i := rfl
@[simp] theorem W.th_setCm (w : W) (b : Blk) (c : Com) (i : Nat) : (w.setCm b c).th i = w.th i := rfl
@[simp] theorem W.en_setCm (w : W) (b : Blk) (c : Com) (i : Nat) : (w.setCm b c).en i = w.en i := rfl
@[simp] theorem W.th_setBk (w : W) (d b : Nat) (x : MBank) (i : Nat) : (w.setBk d b x).th i = w.th i := rfl
@[simp] theorem W.en_setBk (w : W) (d b : Nat) (x : MBank) (i : Nat) : (w.setBk d b x).en i = w.en i := rfl
@[simp] theorem W.th_setPat (w : W) (d : Nat) (p : Patrol) (i : Nat) : (w.setPat d p).th i = w.th i := rfl
@[simp] theorem W.en_setPat (w : W) (d : Nat) (p : Patrol) (i : Nat) : (w.setPat d p).en i = w.en i := rfl
@[simp] theorem W.th_setPin (w : W) (n : Nat) (p : Pin) (i : Nat) : (w.setPin n p).th i = w.th i := rfl
@[simp] theorem W.en_setPin (w : W) (n : Nat) (p : Pin) (i : Nat) : (w.setPin n p).en i = w.en i := rfl
@[simp] theorem W.th_setLink (w : W) (n : Nat) (l : Link) (i : Nat) : (w.setLink n l).th i = w.th i := rfl
@[simp] theorem W.en_setLink (w : W) (n : Nat) (l : Link) (i : Nat) : (w.setLink n l).en i = w.en i := rfl
@[simp] theorem W.th_setPol (w : W) (p : Nat) (x : Pol) (i : Nat) : (w.setPol p x).th i = w.th i := rfl
@[simp] theorem W.en_setPol (w : W) (p : Nat) (x : Pol) (i : Nat) : (w.setPol p x).en i = w.en i := rfl
@[simp] theorem W.th_setDsp (w : W) (k : Nat) (x : Disp) (i : Nat) : (w.setDsp k x).th i = w.th i := rfl
@[simp] theorem W.en_setDsp (w : W) (k : Nat) (x : Disp) (i : Nat) : (w.setDsp k x).en i = w.en i := rfl
@[simp] theorem W.th_setUnit (w : W) (u : Nat) (x : FUnit) (i : Nat) : (w.setUnit u x).th i = w.th i := rfl
@[simp] theorem W.en_setUnit (w : W) (u : Nat) (x : FUnit) (i : Nat) : (w.setUnit u x).en i = w.en i := rfl
@[simp] theorem W.th_setCh (w : W) (c n : Nat) (x : Chan) (i : Nat) : (w.setCh c n x).th i = w.th i := rfl
@[simp] theorem W.en_setCh (w : W) (c n : Nat) (x : Chan) (i : Nat) : (w.setCh c n x).en i = w.en i := rfl
@[simp] theorem W.th_setVault (w : W) (v : Vault) (i : Nat) : (w.setVault v).th i = w.th i := rfl
@[simp] theorem W.en_setVault (w : W) (v : Vault) (i : Nat) : (w.setVault v).en i = w.en i := rfl
@[simp] theorem W.th_setAnx (w : W) (a : Annex) (i : Nat) : (w.setAnx a).th i = w.th i := rfl
@[simp] theorem W.en_setAnx (w : W) (a : Annex) (i : Nat) : (w.setAnx a).en i = w.en i := rfl
@[simp] theorem W.th_setPort (w : W) (n : Nat) (x : EthPort) (i : Nat) : (w.setPort n x).th i = w.th i := rfl
@[simp] theorem W.en_setPort (w : W) (n : Nat) (x : EthPort) (i : Nat) : (w.setPort n x).en i = w.en i := rfl
@[simp] theorem W.th_toTime (w : W) (t : Nat) (i : Nat) : (w.toTime t).th i = w.th i := rfl
@[simp] theorem W.en_toTime (w : W) (t : Nat) (i : Nat) : (w.toTime t).en i = w.en i := rfl

@[simp] theorem W.th_setTh (w : W) (k : Nat) (x : Thread) (i : Nat) :
    (w.setTh k x).th i = if k = i then x else w.th i := by simp [W.th]

@[simp] theorem W.th_modTh (w : W) (k : Nat) (f : Thread → Thread) (i : Nat) :
    (w.modTh k f).th i = if k = i then f (w.th k) else w.th i := by simp [W.modTh]

@[simp] theorem W.en_modEn (w : W) (e : Nat) (f : Engine → Engine) (i : Nat) :
    (w.modEn e f).en i = if e = i then f (w.en e) else w.en i := by
  by_cases h : e = i <;> simp [W.en, h]

@[simp] theorem W.rg_setRg (w : W) (a : Nat) (v : Word) (b : Nat) :
    (w.setRg a v).rg b = if a = b then v else w.rg b := by simp [Dev.rg]

@[simp] theorem W.cm_setCm (w : W) (b : Blk) (c : Com) (i : Blk) :
    (w.setCm b c).cm i = if blkCommit b = blkCommit i then c else w.cm i := by simp [Dev.cm]

@[simp] theorem W.setTh_setTh (w : W) (k : Nat) (x y : Thread) : (w.setTh k x).setTh k y = w.setTh k y := by
  simp [W.setTh]

@[simp] theorem W.modTh_setTh (w : W) (k : Nat) (x : Thread) (f : Thread → Thread) :
    (w.setTh k x).modTh k f = w.setTh k (f x) := by simp [W.modTh]

/-! ### Opening and closing a state -/

@[simp] theorem State.open_toDev (s : State) : s.open.toDev = s.toDev := rfl
@[simp] theorem State.open_base (s : State) : s.open.base = s.mem := rfl
@[simp] theorem State.open_jr (s : State) : s.open.jr = [] := rfl
@[simp] theorem State.open_sig (s : State) : s.open.sig = [] := rfl
@[simp] theorem State.close_toDev (s : State) (w : W) : (s.close w).toDev = w.toDev := rfl
@[simp] theorem State.close_mem (s : State) (w : W) : (s.close w).mem = applyJr s.mem w.jr := rfl
@[simp] theorem State.close_pending (s : State) (w : W) : (s.close w).pending = s.pending := rfl
@[simp] theorem State.close_open (s : State) : s.close s.open = s := rfl

end Sys2Proof.Machine
end

