-- ==== Sys2Proof/Laws/Run.lean ====
section
/-! SUPPORT. How a command runs, said once: it answers a next state that its working state leaves, with the queue
as it was and memory in canonical form; while a reset is asserted, or on ill-formed operands, nothing changes. -/

namespace Sys2Proof.Machine

/-- A step's answer is the state that some working state leaves: a next state, the queue as it was. -/
def Leaves (s : State) (o : Host.Outcome State Fault Refusal) : Prop := ∃ w : W, o = .next (s.close w)

theorem Leaves.runW (f : W → W) (s : State) : Leaves s (runW f s) := ⟨_, rfl⟩

theorem Leaves.run (ok : Bool) (f : W → W) (s : State) : Leaves s (run ok f s) := ⟨_, rfl⟩

theorem Leaves.runAny (ok : Bool) (f : W → W) (s : State) : Leaves s (runAny ok f s) := ⟨_, rfl⟩

theorem Leaves.pending {s : State} {o : Host.Outcome State Fault Refusal} (h : Leaves s o) :
    ∃ t, o = .next t ∧ t.pending = s.pending :=
  h.elim fun w hw => ⟨s.close w, hw, rfl⟩

theorem Leaves.mem_wf {s t : State} (h : Leaves s (.next t)) (hs : s.mem.wf = true) : t.mem.wf = true := by
  obtain ⟨w, hw⟩ := h
  injection hw with hw
  subst hw
  exact applyJr_wf _ _ hs

/-- With no signal raised the fault controller does nothing. -/
theorem W.settle_quiet {w : W} (h : w.sig = []) : w.settle = w := by simp [W.settle, h]

theorem run_held {f : W → W} {s : State} (ok : Bool) (h : s.sys.held = true) : run ok f s = .next s := by
  simp [run, Machine.runW, h]

theorem run_bad {f : W → W} {s : State} : run false f s = .next s := by simp [run, Machine.runW]

theorem run_ill {ok : Bool} {f : W → W} (h : ok = false) (s : State) : run ok f s = .next s := by
  rw [h]; exact run_bad

theorem runAny_ill {ok : Bool} {f : W → W} (h : ok = false) (s : State) : runAny ok f s = .next s := by
  simp [runAny, Machine.runW, h]

/-- A command of the working device on well-formed operands. -/
theorem run_ok {f : W → W} {s : State} (h : s.sys.held = false) :
    run true f s = .next (s.close (f s.open).settle) := by simp [run, Machine.runW, h]

/-- A command of the working device that raises no signal. -/
theorem run_quiet {f : W → W} {s : State} (h : s.sys.held = false) (hq : (f s.open).sig = []) :
    run true f s = .next (s.close (f s.open)) := by rw [run_ok h, W.settle_quiet hq]

theorem runAny_quiet {f : W → W} {s : State} (hq : (f s.open).sig = []) :
    runAny true f s = .next (s.close (f s.open)) := by simp [runAny, Machine.runW, W.settle_quiet hq]

theorem step_cons {s : State} {c : Instr} {r : List Instr} (h : s.pending = c :: r) :
    step s = exec c { s with pending := r } := by simp [step, h]

theorem step_nil {s : State} (h : s.pending = []) : step s = tick s := by simp [step, h]

end Sys2Proof.Machine
end

