-- ==== Sys2Proof/Laws/Commit.lean ====
section
/-! SUPPORT. What the end of a commit does, said once: nothing without a commit under way; the work's effect, or the
failure that leaves the block's outcome alone. -/

namespace Sys2Proof.Machine

/-- The commit record after the commit ended: BUSY is 0, SEQ, the staging copy and the acceptance time stay. -/
theorem W.cm_finish (w : W) (b : Blk) (f : Fin3) :
    (w.finish b f).cm b = { w.cm b with busy := false, status := f.st.code, check := f.check, index := f.index } := by
  rw [W.finish, W.cm_setCm]; simp

theorem W.complete_idle {w : W} {b : Blk} {f : W → Com → Except Fin3 (W × Nat)} (h : (w.cm b).busy = false) :
    w.complete b f = w := by simp [W.complete, h]

/-- A commit under way ends in its work's effect, or in a failure that changes the block's outcome alone. -/
theorem W.complete_cases {w : W} {b : Blk} {f : W → Com → Except Fin3 (W × Nat)} (h : (w.cm b).busy = true) :
    (∃ w' i, f w (w.cm b) = .ok (w', i) ∧ w.complete b f = w'.finish b { index := i }) ∨
    (∃ e, f w (w.cm b) = .error e ∧ w.complete b f = w.finish b e) := by
  cases hf : f w (w.cm b) with
  | ok r => exact .inl ⟨r.1, r.2, rfl, by simp [W.complete, h, hf]⟩
  | error e => exact .inr ⟨e, rfl, by simp [W.complete, h, hf]⟩

theorem W.memCommit_idle {w : W} {d : Nat} (h : (w.cm (.memCfg d)).busy = false) : w.memCommit d = w := by
  simp [W.memCommit, W.complete_idle h]

theorem W.slotCommit_idle {w : W} (h : (w.cm .slot).busy = false) : w.slotCommit = w := by simp [W.slotCommit, h]

theorem W.tideCommit_idle {w : W} (h : (w.cm .tide).busy = false) : w.tideCommit = w := by simp [W.tideCommit, h]

theorem W.fltCommit_idle {w : W} (h : (w.cm .flt).busy = false) : w.fltCommit = w := by simp [W.fltCommit, h]

theorem W.sysStart_idle {w : W} (h : (w.cm .start).busy = false) : w.sysStart = w := by simp [W.sysStart, h]

theorem W.vltAct_idle {w : W} {a : Nat} {m : Med} (h : (w.cm .vlt).busy = false) : w.vltAct a m = w := by
  simp [W.vltAct, h]

theorem W.vltCommit_idle {w : W} {a : Nat} {m : Med} (h : (w.cm .vlt).busy = false) : w.vltCommit a m = w := by
  simp [W.vltCommit, W.vltAct_idle h, h]

/-- Without a commit under way a block has none to end. -/
theorem W.commitDone_idle {w : W} {b : Blk} {m : Med} {fs : List BootDefect} (h : (w.cm b).busy = false) :
    w.commitDone b m fs = w := by
  cases b <;>
    first
    | exact W.complete_idle h
    | exact W.memCommit_idle h
    | exact W.slotCommit_idle h
    | exact W.tideCommit_idle h
    | exact W.fltCommit_idle h
    | exact W.vltCommit_idle h
    | exact W.sysStart_idle h

theorem W.commitIf_false (w : W) (b : Blk) (m : Med) (fs : List BootDefect) : w.commitIf b false m fs = w := rfl

end Sys2Proof.Machine
end

