-- ==== Sys2Proof/Laws/Issue.lean ====
section
/-! SUPPORT. What a trigger of a unit does, said once: the sockets take the code and the operand, and the unit
starts its operation. -/

namespace Sys2Proof.Machine

@[simp] theorem th_setTh (w : W) (k j : Nat) (x : Thread) : (w.setTh k x).th j = if k = j then x else w.th j := by
  simp only [W.th, W.setTh, tget_tset]

@[simp] theorem th_modTh (w : W) (k j : Nat) (f : Thread → Thread) :
    (w.modTh k f).th j = if k = j then f (w.th k) else w.th j := by simp [W.modTh]

@[simp] theorem modTh_modTh (w : W) (k : Nat) (f g : Thread → Thread) :
    (w.modTh k f).modTh k g = w.modTh k (fun x => g (f x)) := by simp [W.modTh, W.setTh, W.th]

@[simp] theorem modTh_sig (w : W) (k : Nat) (f : Thread → Thread) : (w.modTh k f).sig = w.sig := rfl

/-- A thread changed and nothing else, as a state. -/
theorem close_modTh (s : State) (e t : Nat) (f : Thread → Thread) :
    s.close (s.open.modTh (tkey e t) f) = s.withThread e t (f (s.thread e t)) := rfl

@[simp] theorem bankOf_setBank (x : Thread) (sh : Bool) (b : Bank) : (x.setBank sh b).bankOf sh = b := by
  cases sh <;> rfl

@[simp] theorem shadow_setBank (x : Thread) (sh : Bool) (b : Bank) : (x.setBank sh b).shadow = x.shadow := by
  cases sh <;> rfl

/-- An O socket does not overlap the OP socket below it. -/
theorem dstSock_setDst (x : Thread) (sh : Bool) (n m : Nat) (v : Word) :
    (x.setDst sh n v).dstSock sh m = if n = m then v else x.dstSock sh m := by
  simp [Thread.setDst, Thread.dstSock]

theorem setDst_frame (x : Thread) (sh : Bool) (n : Nat) (v : Word) :
    (x.setDst sh n v).shadow = x.shadow ∧ (x.setDst sh n v).pc = x.pc ∧ (x.setDst sh n v).ops = x.ops ∧
    (x.setDst sh n v).accs = x.accs ∧ (x.setDst sh n v).sbuf = x.sbuf ∧ (x.setDst sh n v).seq = x.seq ∧
    (x.setDst sh n v).p = x.p ∧ (x.setDst sh n v).pSh = x.pSh ∧ (x.setDst sh n v).d = x.d ∧
    (x.setDst sh n v).dSh = x.dSh ∧ (x.setDst sh n v).a = x.a ∧ (x.setDst sh n v).aSh = x.aSh ∧
    (x.setDst sh n v).precise = x.precise ∧ (x.setDst sh n v).ovt = x.ovt ∧ (x.setDst sh n v).dzt = x.dzt ∧
    (x.setDst sh n v).evq = x.evq ∧ (x.setDst sh n v).ring = x.ring ∧ (x.setDst sh n v).stk = x.stk := by
  unfold Thread.setDst Thread.setBank
  cases sh <;> simp

/-- What a thread keeps when its sockets take a code and an operand: everything but the sockets and the run state. -/
theorem setOperands_frame (x : Thread) (u code : Nat) (o : Option Word) :
    (x.setOperands u code o).shadow = x.shadow ∧ (x.setOperands u code o).pc = x.pc ∧ (x.setOperands u code o).ops = x.ops ∧
    (x.setOperands u code o).accs = x.accs ∧ (x.setOperands u code o).sbuf = x.sbuf ∧ (x.setOperands u code o).seq = x.seq ∧
    (x.setOperands u code o).p = x.p ∧ (x.setOperands u code o).pSh = x.pSh ∧ (x.setOperands u code o).d = x.d ∧
    (x.setOperands u code o).dSh = x.dSh ∧ (x.setOperands u code o).a = x.a ∧ (x.setOperands u code o).aSh = x.aSh ∧
    (x.setOperands u code o).precise = x.precise ∧ (x.setOperands u code o).ovt = x.ovt ∧
    (x.setOperands u code o).dzt = x.dzt ∧ (x.setOperands u code o).evq = x.evq ∧
    (x.setOperands u code o).ring = x.ring ∧ (x.setOperands u code o).stk = x.stk := by
  unfold Thread.setOperands Thread.setDst Thread.setBank
  cases o <;> cases x.shadow <;> simp

/-- The operation code that a thread's socket holds after it took one. -/
theorem setOperands_code (x : Thread) (u code : Nat) (o : Option Word) :
    (x.setOperands u code o).dstSock x.shadow (4 * u) = w32 code := by
  unfold Thread.setOperands
  cases o <;> cases h : x.shadow <;> simp [Thread.dstSock, Thread.setDst, Thread.setBank, Thread.bankOf, h]

/-- The operand that a thread's socket holds after it took one. -/
theorem setOperands_o (x : Thread) (u code : Nat) (v : Word) :
    (x.setOperands u code (some v)).dstSock x.shadow (4 * u + 1) = v := by
  cases h : x.shadow <;> simp [Thread.setOperands, Thread.dstSock, Thread.setDst, Thread.setBank, Thread.bankOf, h]

theorem modTh_eng (w : W) (k e : Nat) (f : Thread → Thread) : (w.modTh k f).en e = w.en e := rfl

/-- What holds a register is read from the operations and accesses in flight alone. -/
theorem regHold_modTh (w : W) (k : Nat) (f : Thread → Thread) (sh : Bool) (r : RegId)
    (h1 : (f (w.th k)).ops = (w.th k).ops) (h2 : (f (w.th k)).accs = (w.th k).accs) :
    (w.modTh k f).regHold k sh r = w.regHold k sh r := by
  simp only [W.regHold, th_modTh, if_true, h1, h2]

/-- Operands in their sockets change nothing that holds a trigger. -/
theorem opHolds_setOperands (w : W) (k c code : Nat) (v : Option Word) (u : UnitId) (p : UOp) (o t : Word) :
    (w.modTh k fun x => x.setOperands c code v).opHolds k u p o t = w.opHolds k u p o t := by
  obtain ⟨h1, -, h2, h3, h4, -⟩ := setOperands_frame (w.th k) c code v
  have hr : ∀ r, (w.modTh k fun x => x.setOperands c code v).regHold k (w.th k).shadow r =
      w.regHold k (w.th k).shadow r := fun r => regHold_modTh w k _ _ r h2 h3
  have ho : ∀ j, ((w.modTh k fun x => x.setOperands c code v).th j).ops = (w.th j).ops := by
    intro j
    rw [th_modTh]
    split
    · rename_i hj; subst hj; exact h2
    · rfl
  have hs : ((w.modTh k fun x => x.setOperands c code v).th k).sbUsed = (w.th k).sbUsed := by
    simp only [th_modTh, if_true, Thread.sbUsed, h3, h4]
  unfold W.opHolds W.regHolds
  congr 1
  · simp only [th_modTh, if_true, h1, hr]
    rfl
  · unfold W.unitBusy
    cases p with
    | net op c q => cases op <;> rfl
    | _ => simp only [hs, ho]

/-- A trigger that nothing holds and whose code names an operation of a computing unit starts that operation. -/
theorem unitCmd_starts {w : W} {k : Nat} {u : UnitId} {op p : UOp} {o : Option Word} {t : Word}
    (hm : w.mayIssue k = true) (hn : w.notTurn k = false) (he : (w.th k).excDue = false) (hf : w.nextHolds k = [])
    (hd : decodeOp u (w32 op.code) = some p) (hl : ∀ a b c d, p ≠ .lsu a b c d)
    (hh : w.opHolds k u p ((w.modTh k fun x => x.setOperands u.num op.code o).oSock k u) t = []) :
    w.unitCmd k u op o t =
      (w.modTh k fun x => (x.setOperands u.num op.code o).goes).startOp k u p t (w.th k).pc := by
  obtain ⟨h1, h5, -⟩ := setOperands_frame (w.th k) u.num op.code o
  have hc := setOperands_code (w.th k) u.num op.code o
  have hb : ∀ b, blocking b (w.opHolds k u p ((w.modTh k fun x => x.setOperands u.num op.code o).oSock k u) t) = [] := by
    intro b; rw [hh]; cases b <;> rfl
  unfold W.unitCmd W.inTurn W.tryUnit W.trigCmd
  simp only [hm, hn, he, hf, hd, opHolds_setOperands, hb, List.isEmpty_nil, Bool.not_true, Bool.false_eq_true, if_false,
    or_self, th_modTh, if_true, h5, modTh_modTh, W.fireUnit]
  have hc' : ((w.th k).setOperands u.num op.code o).goes.dstSock
      ((w.th k).setOperands u.num op.code o).goes.shadow (4 * u.num) = w32 op.code := by
    rw [show ((w.th k).setOperands u.num op.code o).goes.shadow = (w.th k).shadow from h1]
    exact hc
  rw [hc', hd]
  cases p <;> first | rfl | exact absurd rfl (hl _ _ _ _)

/-- A command that triggers a computing unit: the operation that the unit starts is in flight, and nothing else has
changed. -/
theorem trigger_next {s : State} {e t : Nat} {ok : Bool} {u : UnitId} {op p : UOp} {o : Option Word} {x : Word}
    {f : Op} (h : s.issues e t) (hok : ok = true) (hd : decodeOp u (w32 op.code) = some p)
    (hl : ∀ a b c d, p ≠ .lsu a b c d)
    (hh : s.open.opHolds (tkey e t) u p
      ((s.open.modTh (tkey e t) fun x => x.setOperands u.num op.code o).oSock (tkey e t) u) x = [])
    (hs : (s.open.modTh (tkey e t) fun x => (x.setOperands u.num op.code o).goes).startOp (tkey e t) u p x
        (s.thread e t).pc =
      (s.open.modTh (tkey e t) fun x => (x.setOperands u.num op.code o).goes).launchOp (tkey e t) f) :
    run ok (fun w => w.unitCmd (tkey e t) u op o x) s = .next (s.triggered e t u.num op.code o f) := by
  subst hok
  have hc := unitCmd_starts h.2.2.1 h.2.2.2.1 h.2.2.2.2.1 h.2.2.2.2.2 hd hl hh
  have hq : s.open.unitCmd (tkey e t) u op o x =
      s.open.modTh (tkey e t) fun x => ((x.setOperands u.num op.code o).goes).launch f := by
    rw [hc]
    refine hs.trans ?_
    simp only [W.launchOp, modTh_modTh]
  rw [run_quiet h.1 (by rw [hq]; rfl), hq]
  rfl

end Sys2Proof.Machine
end

