-- ==== Sys2Proof/Laws/PerInstr.lean ====
section
/-! SUPPORT. Two facts about every command, one lemma for each constructor: its meaning answers a next state that a
working state leaves (it neither stops nor touches the queue, and memory changes by its journal alone); and on
ill-formed operands it changes nothing. -/

namespace Sys2Proof.Laws

open Sys2Proof.Machine

/-- The meaning of a command answers a next state that some working state leaves. -/
def Leaves.Statement (i : Instr) : Prop := ∀ s : State, Machine.Leaves s (exec i s)

/-- On ill-formed operands a command changes nothing (notes/assumptions/1). -/
def IllFormedIdle.Statement (i : Instr) : Prop := ∀ s : State, i.wellFormed = false → exec i s = .next s

theorem Leaves.bundleIssue (e t : Nat) (parity : Bool) (late : Nat) : Leaves.Statement (.bundleIssue e t parity late) := fun _ => ⟨_, rfl⟩
theorem Leaves.rep (e t : Nat) : Leaves.Statement (.rep e t) := fun _ => ⟨_, rfl⟩
theorem Leaves.operationResult (e t unit lost : Nat) : Leaves.Statement (.operationResult e t unit lost) := fun _ => ⟨_, rfl⟩
theorem Leaves.loadResponse (e t i upset lost : Nat) : Leaves.Statement (.loadResponse e t i upset lost) := fun _ => ⟨_, rfl⟩
theorem Leaves.eccWriteback (pa : Nat) : Leaves.Statement (.eccWriteback pa) := fun _ => ⟨_, rfl⟩
theorem Leaves.storeDrain (e t i lost : Nat) (clash : Bool) : Leaves.Statement (.storeDrain e t i lost clash) := fun _ => ⟨_, rfl⟩
theorem Leaves.add (e t u pd : Nat) (o x : Word) : Leaves.Statement (.add e t u pd o x) := fun _ => ⟨_, rfl⟩
theorem Leaves.sub (e t u pd : Nat) (o x : Word) : Leaves.Statement (.sub e t u pd o x) := fun _ => ⟨_, rfl⟩
theorem Leaves.addc (e t u pd : Nat) (o x : Word) : Leaves.Statement (.addc e t u pd o x) := fun _ => ⟨_, rfl⟩
theorem Leaves.subb (e t u pd : Nat) (o x : Word) : Leaves.Statement (.subb e t u pd o x) := fun _ => ⟨_, rfl⟩
theorem Leaves.adds (e t u : Nat) (o x : Word) : Leaves.Statement (.adds e t u o x) := fun _ => ⟨_, rfl⟩
theorem Leaves.subs (e t u : Nat) (o x : Word) : Leaves.Statement (.subs e t u o x) := fun _ => ⟨_, rfl⟩
theorem Leaves.neg (e t u : Nat) (o x : Word) : Leaves.Statement (.neg e t u o x) := fun _ => ⟨_, rfl⟩
theorem Leaves.abs (e t u : Nat) (o x : Word) : Leaves.Statement (.abs e t u o x) := fun _ => ⟨_, rfl⟩
theorem Leaves.and (e t u : Nat) (o x : Word) : Leaves.Statement (.and e t u o x) := fun _ => ⟨_, rfl⟩
theorem Leaves.or (e t u : Nat) (o x : Word) : Leaves.Statement (.or e t u o x) := fun _ => ⟨_, rfl⟩
theorem Leaves.xor (e t u : Nat) (o x : Word) : Leaves.Statement (.xor e t u o x) := fun _ => ⟨_, rfl⟩
theorem Leaves.andn (e t u : Nat) (o x : Word) : Leaves.Statement (.andn e t u o x) := fun _ => ⟨_, rfl⟩
theorem Leaves.not (e t u : Nat) (o x : Word) : Leaves.Statement (.not e t u o x) := fun _ => ⟨_, rfl⟩
theorem Leaves.shl (e t u : Nat) (o x : Word) : Leaves.Statement (.shl e t u o x) := fun _ => ⟨_, rfl⟩
theorem Leaves.shr (e t u : Nat) (o x : Word) : Leaves.Statement (.shr e t u o x) := fun _ => ⟨_, rfl⟩
theorem Leaves.sar (e t u : Nat) (o x : Word) : Leaves.Statement (.sar e t u o x) := fun _ => ⟨_, rfl⟩
theorem Leaves.rol (e t u : Nat) (o x : Word) : Leaves.Statement (.rol e t u o x) := fun _ => ⟨_, rfl⟩
theorem Leaves.ror (e t u : Nat) (o x : Word) : Leaves.Statement (.ror e t u o x) := fun _ => ⟨_, rfl⟩
theorem Leaves.min (e t u : Nat) (o x : Word) : Leaves.Statement (.min e t u o x) := fun _ => ⟨_, rfl⟩
theorem Leaves.max (e t u : Nat) (o x : Word) : Leaves.Statement (.max e t u o x) := fun _ => ⟨_, rfl⟩
theorem Leaves.minu (e t u : Nat) (o x : Word) : Leaves.Statement (.minu e t u o x) := fun _ => ⟨_, rfl⟩
theorem Leaves.maxu (e t u : Nat) (o x : Word) : Leaves.Statement (.maxu e t u o x) := fun _ => ⟨_, rfl⟩
theorem Leaves.sats (e t u : Nat) (o x : Word) : Leaves.Statement (.sats e t u o x) := fun _ => ⟨_, rfl⟩
theorem Leaves.satu (e t u : Nat) (o x : Word) : Leaves.Statement (.satu e t u o x) := fun _ => ⟨_, rfl⟩
theorem Leaves.sextb (e t u : Nat) (o x : Word) : Leaves.Statement (.sextb e t u o x) := fun _ => ⟨_, rfl⟩
theorem Leaves.sexth (e t u : Nat) (o x : Word) : Leaves.Statement (.sexth e t u o x) := fun _ => ⟨_, rfl⟩
theorem Leaves.zextb (e t u : Nat) (o x : Word) : Leaves.Statement (.zextb e t u o x) := fun _ => ⟨_, rfl⟩
theorem Leaves.zexth (e t u : Nat) (o x : Word) : Leaves.Statement (.zexth e t u o x) := fun _ => ⟨_, rfl⟩
theorem Leaves.clz (e t u : Nat) (o x : Word) : Leaves.Statement (.clz e t u o x) := fun _ => ⟨_, rfl⟩
theorem Leaves.popc (e t u : Nat) (o x : Word) : Leaves.Statement (.popc e t u o x) := fun _ => ⟨_, rfl⟩
theorem Leaves.cmpeq (e t u pd : Nat) (o x : Word) : Leaves.Statement (.cmpeq e t u pd o x) := fun _ => ⟨_, rfl⟩
theorem Leaves.cmpne (e t u pd : Nat) (o x : Word) : Leaves.Statement (.cmpne e t u pd o x) := fun _ => ⟨_, rfl⟩
theorem Leaves.cmplt (e t u pd : Nat) (o x : Word) : Leaves.Statement (.cmplt e t u pd o x) := fun _ => ⟨_, rfl⟩
theorem Leaves.cmple (e t u pd : Nat) (o x : Word) : Leaves.Statement (.cmple e t u pd o x) := fun _ => ⟨_, rfl⟩
theorem Leaves.cmpgt (e t u pd : Nat) (o x : Word) : Leaves.Statement (.cmpgt e t u pd o x) := fun _ => ⟨_, rfl⟩
theorem Leaves.cmpge (e t u pd : Nat) (o x : Word) : Leaves.Statement (.cmpge e t u pd o x) := fun _ => ⟨_, rfl⟩
theorem Leaves.cmpltu (e t u pd : Nat) (o x : Word) : Leaves.Statement (.cmpltu e t u pd o x) := fun _ => ⟨_, rfl⟩
theorem Leaves.cmpleu (e t u pd : Nat) (o x : Word) : Leaves.Statement (.cmpleu e t u pd o x) := fun _ => ⟨_, rfl⟩
theorem Leaves.cmpgtu (e t u pd : Nat) (o x : Word) : Leaves.Statement (.cmpgtu e t u pd o x) := fun _ => ⟨_, rfl⟩
theorem Leaves.cmpgeu (e t u pd : Nat) (o x : Word) : Leaves.Statement (.cmpgeu e t u pd o x) := fun _ => ⟨_, rfl⟩
theorem Leaves.tstz (e t u pd : Nat) (o x : Word) : Leaves.Statement (.tstz e t u pd o x) := fun _ => ⟨_, rfl⟩
theorem Leaves.tstnz (e t u pd : Nat) (o x : Word) : Leaves.Statement (.tstnz e t u pd o x) := fun _ => ⟨_, rfl⟩
theorem Leaves.lea (e t ar : Nat) (x : Word) : Leaves.Statement (.lea e t ar x) := fun _ => ⟨_, rfl⟩
theorem Leaves.aadd (e t ar : Nat) (x : Word) : Leaves.Statement (.aadd e t ar x) := fun _ => ⟨_, rfl⟩
theorem Leaves.amod (e t ar ab : Nat) (o x : Word) : Leaves.Statement (.amod e t ar ab o x) := fun _ => ⟨_, rfl⟩
theorem Leaves.muls (e t : Nat) (o x : Word) : Leaves.Statement (.muls e t o x) := fun _ => ⟨_, rfl⟩
theorem Leaves.mulu (e t : Nat) (o x : Word) : Leaves.Statement (.mulu e t o x) := fun _ => ⟨_, rfl⟩
theorem Leaves.mulsu (e t : Nat) (o x : Word) : Leaves.Statement (.mulsu e t o x) := fun _ => ⟨_, rfl⟩
theorem Leaves.mulq (e t sh : Nat) (o x : Word) : Leaves.Statement (.mulq e t sh o x) := fun _ => ⟨_, rfl⟩
theorem Leaves.divs (e t : Nat) (o x : Word) : Leaves.Statement (.divs e t o x) := fun _ => ⟨_, rfl⟩
theorem Leaves.divu (e t : Nat) (o x : Word) : Leaves.Statement (.divu e t o x) := fun _ => ⟨_, rfl⟩
theorem Leaves.mac16 (e t xa qa qb : Nat) (x : Word) : Leaves.Statement (.mac16 e t xa qa qb x) := fun _ => ⟨_, rfl⟩
theorem Leaves.mac8ss (e t xa qa qb : Nat) (x : Word) : Leaves.Statement (.mac8ss e t xa qa qb x) := fun _ => ⟨_, rfl⟩
theorem Leaves.mac8us (e t xa qa qb : Nat) (x : Word) : Leaves.Statement (.mac8us e t xa qa qb x) := fun _ => ⟨_, rfl⟩
theorem Leaves.mac8uu (e t xa qa qb : Nat) (x : Word) : Leaves.Statement (.mac8uu e t xa qa qb x) := fun _ => ⟨_, rfl⟩
theorem Leaves.nars16 (e t xa qd : Nat) (x : Word) : Leaves.Statement (.nars16 e t xa qd x) := fun _ => ⟨_, rfl⟩
theorem Leaves.nars8 (e t xa qd : Nat) (x : Word) : Leaves.Statement (.nars8 e t xa qd x) := fun _ => ⟨_, rfl⟩
theorem Leaves.naru8 (e t xa qd : Nat) (x : Word) : Leaves.Statement (.naru8 e t xa qd x) := fun _ => ⟨_, rfl⟩
theorem Leaves.packs8 (e t qa qb qd : Nat) : Leaves.Statement (.packs8 e t qa qb qd) := fun _ => ⟨_, rfl⟩
theorem Leaves.packu8 (e t qa qb qd : Nat) : Leaves.Statement (.packu8 e t qa qb qd) := fun _ => ⟨_, rfl⟩
theorem Leaves.unpkl8 (e t qa qd : Nat) : Leaves.Statement (.unpkl8 e t qa qd) := fun _ => ⟨_, rfl⟩
theorem Leaves.unpkh8 (e t qa qd : Nat) : Leaves.Statement (.unpkh8 e t qa qd) := fun _ => ⟨_, rfl⟩
theorem Leaves.unpklu8 (e t qa qd : Nat) : Leaves.Statement (.unpklu8 e t qa qd) := fun _ => ⟨_, rfl⟩
theorem Leaves.unpkhu8 (e t qa qd : Nat) : Leaves.Statement (.unpkhu8 e t qa qd) := fun _ => ⟨_, rfl⟩
theorem Leaves.xlane (e t xa : Nat) (x : Word) : Leaves.Statement (.xlane e t xa x) := fun _ => ⟨_, rfl⟩
theorem Leaves.dadd (e t pd : Nat) (o x : Word) : Leaves.Statement (.dadd e t pd o x) := fun _ => ⟨_, rfl⟩
theorem Leaves.dsub (e t pd : Nat) (o x : Word) : Leaves.Statement (.dsub e t pd o x) := fun _ => ⟨_, rfl⟩
theorem Leaves.dadj (e t pd : Nat) (o x : Word) : Leaves.Statement (.dadj e t pd o x) := fun _ => ⟨_, rfl⟩
theorem Leaves.b2d (e t : Nat) (o x : Word) : Leaves.Statement (.b2d e t o x) := fun _ => ⟨_, rfl⟩
theorem Leaves.d2b (e t : Nat) (o x : Word) : Leaves.Statement (.d2b e t o x) := fun _ => ⟨_, rfl⟩
theorem Leaves.dshl (e t : Nat) (o x : Word) : Leaves.Statement (.dshl e t o x) := fun _ => ⟨_, rfl⟩
theorem Leaves.dshr (e t : Nat) (o x : Word) : Leaves.Statement (.dshr e t o x) := fun _ => ⟨_, rfl⟩
theorem Leaves.ldb (e t u ar : Nat) (upd : Bool) (x : Word) : Leaves.Statement (.ldb e t u ar upd x) := fun _ => ⟨_, rfl⟩
theorem Leaves.ldbu (e t u ar : Nat) (upd : Bool) (x : Word) : Leaves.Statement (.ldbu e t u ar upd x) := fun _ => ⟨_, rfl⟩
theorem Leaves.ldh (e t u ar : Nat) (upd : Bool) (x : Word) : Leaves.Statement (.ldh e t u ar upd x) := fun _ => ⟨_, rfl⟩
theorem Leaves.ldhu (e t u ar : Nat) (upd : Bool) (x : Word) : Leaves.Statement (.ldhu e t u ar upd x) := fun _ => ⟨_, rfl⟩
theorem Leaves.ldw (e t u ar : Nat) (upd : Bool) (x : Word) : Leaves.Statement (.ldw e t u ar upd x) := fun _ => ⟨_, rfl⟩
theorem Leaves.ldd (e t u dr ar : Nat) (upd : Bool) (x : Word) : Leaves.Statement (.ldd e t u dr ar upd x) := fun _ => ⟨_, rfl⟩
theorem Leaves.stb (e t u ar : Nat) (upd : Bool) (o x : Word) : Leaves.Statement (.stb e t u ar upd o x) := fun _ => ⟨_, rfl⟩
theorem Leaves.sth (e t u ar : Nat) (upd : Bool) (o x : Word) : Leaves.Statement (.sth e t u ar upd o x) := fun _ => ⟨_, rfl⟩
theorem Leaves.stw (e t u ar : Nat) (upd : Bool) (o x : Word) : Leaves.Statement (.stw e t u ar upd o x) := fun _ => ⟨_, rfl⟩
theorem Leaves.std (e t u dr ar : Nat) (upd : Bool) (x : Word) : Leaves.Statement (.std e t u dr ar upd x) := fun _ => ⟨_, rfl⟩
theorem Leaves.afadd (e t u ar : Nat) (o x : Word) : Leaves.Statement (.afadd e t u ar o x) := fun _ => ⟨_, rfl⟩
theorem Leaves.aswap (e t u ar : Nat) (o x : Word) : Leaves.Statement (.aswap e t u ar o x) := fun _ => ⟨_, rfl⟩
theorem Leaves.acas (e t u dr ar : Nat) (o x : Word) : Leaves.Statement (.acas e t u dr ar o x) := fun _ => ⟨_, rfl⟩
theorem Leaves.br (e t : Nat) (hint : Bool) (x : Word) (wide : Bool) : Leaves.Statement (.br e t hint x wide) := fun _ => ⟨_, rfl⟩
theorem Leaves.jl (e t : Nat) (hint : Bool) (x : Word) (wide : Bool) : Leaves.Statement (.jl e t hint x wide) := fun _ => ⟨_, rfl⟩
theorem Leaves.cbrEq (e t : Nat) (hint : Bool) (o x : Word) (imm : Nat) : Leaves.Statement (.cbrEq e t hint o x imm) := fun _ => ⟨_, rfl⟩
theorem Leaves.cbrNe (e t : Nat) (hint : Bool) (o x : Word) (imm : Nat) : Leaves.Statement (.cbrNe e t hint o x imm) := fun _ => ⟨_, rfl⟩
theorem Leaves.cbrLt (e t : Nat) (hint : Bool) (o x : Word) (imm : Nat) : Leaves.Statement (.cbrLt e t hint o x imm) := fun _ => ⟨_, rfl⟩
theorem Leaves.cbrGe (e t : Nat) (hint : Bool) (o x : Word) (imm : Nat) : Leaves.Statement (.cbrGe e t hint o x imm) := fun _ => ⟨_, rfl⟩
theorem Leaves.cbrLtu (e t : Nat) (hint : Bool) (o x : Word) (imm : Nat) : Leaves.Statement (.cbrLtu e t hint o x imm) := fun _ => ⟨_, rfl⟩
theorem Leaves.cbrGeu (e t : Nat) (hint : Bool) (o x : Word) (imm : Nat) : Leaves.Statement (.cbrGeu e t hint o x imm) := fun _ => ⟨_, rfl⟩
theorem Leaves.enterS (e t : Nat) (x : Word) (wide : Bool) : Leaves.Statement (.enterS e t x wide) := fun _ => ⟨_, rfl⟩
theorem Leaves.mfc (e t n : Nat) (wide : Bool) : Leaves.Statement (.mfc e t n wide) := fun _ => ⟨_, rfl⟩
theorem Leaves.mtc (e t n : Nat) (x : Word) (wide : Bool) : Leaves.Statement (.mtc e t n x wide) := fun _ => ⟨_, rfl⟩
theorem Leaves.tstart (e t : Nat) (o x : Word) (wide : Bool) : Leaves.Statement (.tstart e t o x wide) := fun _ => ⟨_, rfl⟩
theorem Leaves.tstop (e t : Nat) (x : Word) (wide : Bool) : Leaves.Statement (.tstop e t x wide) := fun _ => ⟨_, rfl⟩
theorem Leaves.gate (e t n : Nat) (wide : Bool) : Leaves.Statement (.gate e t n wide) := fun _ => ⟨_, rfl⟩
theorem Leaves.retg (e t : Nat) (wide : Bool) : Leaves.Statement (.retg e t wide) := fun _ => ⟨_, rfl⟩
theorem Leaves.retx (e t : Nat) (wide : Bool) : Leaves.Statement (.retx e t wide) := fun _ => ⟨_, rfl⟩
theorem Leaves.iflush (e t : Nat) (x : Word) (wide : Bool) : Leaves.Statement (.iflush e t x wide) := fun _ => ⟨_, rfl⟩
theorem Leaves.syncM (e t : Nat) (wide : Bool) : Leaves.Statement (.syncM e t wide) := fun _ => ⟨_, rfl⟩
theorem Leaves.fenceA (e t : Nat) (wide : Bool) : Leaves.Statement (.fenceA e t wide) := fun _ => ⟨_, rfl⟩
theorem Leaves.eval (e t cs : Nat) (x : Word) : Leaves.Statement (.eval e t cs x) := fun _ => ⟨_, rfl⟩
theorem Leaves.beat (e t bg : Nat) (x : Word) : Leaves.Statement (.beat e t bg x) := fun _ => ⟨_, rfl⟩
theorem Leaves.step (e t sl pd : Nat) (o x : Word) : Leaves.Statement (.step e t sl pd o x) := fun _ => ⟨_, rfl⟩
theorem Leaves.tbla (e t sl kd : Nat) : Leaves.Statement (.tbla e t sl kd) := fun _ => ⟨_, rfl⟩
theorem Leaves.send (e t ch q : Nat) (x : Word) : Leaves.Statement (.send e t ch q x) := fun _ => ⟨_, rfl⟩
theorem Leaves.recv (e t ch pd : Nat) : Leaves.Statement (.recv e t ch pd) := fun _ => ⟨_, rfl⟩
theorem Leaves.rpoll (e t ch pd : Nat) : Leaves.Statement (.rpoll e t ch pd) := fun _ => ⟨_, rfl⟩
theorem Leaves.rskip (e t ch : Nat) : Leaves.Statement (.rskip e t ch) := fun _ => ⟨_, rfl⟩
theorem Leaves.take (e t pd : Nat) : Leaves.Statement (.take e t pd) := fun _ => ⟨_, rfl⟩
theorem Leaves.wait (e t pd : Nat) (x : Word) : Leaves.Statement (.wait e t pd x) := fun _ => ⟨_, rfl⟩
theorem Leaves.evqWaitTimeout (e t : Nat) : Leaves.Statement (.evqWaitTimeout e t) := fun _ => ⟨_, rfl⟩
theorem Leaves.poll (e t pd : Nat) : Leaves.Statement (.poll e t pd) := fun _ => ⟨_, rfl⟩
theorem Leaves.ring (e t dr : Nat) (x : Word) : Leaves.Statement (.ring e t dr x) := fun _ => ⟨_, rfl⟩
theorem Leaves.hash (e t : Nat) (block : Word) : Leaves.Statement (.hash e t block) := fun _ => ⟨_, rfl⟩
theorem Leaves.verify (e t : Nat) (block : Word) : Leaves.Statement (.verify e t block) := fun _ => ⟨_, rfl⟩
theorem Leaves.hashVerify (e t : Nat) (block : Word) : Leaves.Statement (.hashVerify e t block) := fun _ => ⟨_, rfl⟩
theorem Leaves.hvJobComplete (p : Nat) : Leaves.Statement (.hvJobComplete p) := fun _ => ⟨_, rfl⟩
theorem Leaves.uxOperation (e t u : Nat) (ws : List Word) : Leaves.Statement (.uxOperation e t u ws) := fun _ => ⟨_, rfl⟩
theorem Leaves.stkPushs (e t : Nat) : Leaves.Statement (.stkPushs e t) := fun _ => ⟨_, rfl⟩
theorem Leaves.stkPushw (e t : Nat) : Leaves.Statement (.stkPushw e t) := fun _ => ⟨_, rfl⟩
theorem Leaves.stkLdb (e t : Nat) : Leaves.Statement (.stkLdb e t) := fun _ => ⟨_, rfl⟩
theorem Leaves.stkLdbu (e t : Nat) : Leaves.Statement (.stkLdbu e t) := fun _ => ⟨_, rfl⟩
theorem Leaves.stkLdh (e t : Nat) : Leaves.Statement (.stkLdh e t) := fun _ => ⟨_, rfl⟩
theorem Leaves.stkLdhu (e t : Nat) : Leaves.Statement (.stkLdhu e t) := fun _ => ⟨_, rfl⟩
theorem Leaves.stkLdw (e t : Nat) : Leaves.Statement (.stkLdw e t) := fun _ => ⟨_, rfl⟩
theorem Leaves.stkStb (e t : Nat) : Leaves.Statement (.stkStb e t) := fun _ => ⟨_, rfl⟩
theorem Leaves.stkSth (e t : Nat) : Leaves.Statement (.stkSth e t) := fun _ => ⟨_, rfl⟩
theorem Leaves.stkStw (e t : Nat) : Leaves.Statement (.stkStw e t) := fun _ => ⟨_, rfl⟩
theorem Leaves.stkAdd (e t : Nat) : Leaves.Statement (.stkAdd e t) := fun _ => ⟨_, rfl⟩
theorem Leaves.stkSub (e t : Nat) : Leaves.Statement (.stkSub e t) := fun _ => ⟨_, rfl⟩
theorem Leaves.stkAnd (e t : Nat) : Leaves.Statement (.stkAnd e t) := fun _ => ⟨_, rfl⟩
theorem Leaves.stkOr (e t : Nat) : Leaves.Statement (.stkOr e t) := fun _ => ⟨_, rfl⟩
theorem Leaves.stkXor (e t : Nat) : Leaves.Statement (.stkXor e t) := fun _ => ⟨_, rfl⟩
theorem Leaves.stkShl (e t : Nat) : Leaves.Statement (.stkShl e t) := fun _ => ⟨_, rfl⟩
theorem Leaves.stkShr (e t : Nat) : Leaves.Statement (.stkShr e t) := fun _ => ⟨_, rfl⟩
theorem Leaves.stkSar (e t : Nat) : Leaves.Statement (.stkSar e t) := fun _ => ⟨_, rfl⟩
theorem Leaves.stkRol (e t : Nat) : Leaves.Statement (.stkRol e t) := fun _ => ⟨_, rfl⟩
theorem Leaves.stkMin (e t : Nat) : Leaves.Statement (.stkMin e t) := fun _ => ⟨_, rfl⟩
theorem Leaves.stkMax (e t : Nat) : Leaves.Statement (.stkMax e t) := fun _ => ⟨_, rfl⟩
theorem Leaves.stkEq (e t : Nat) : Leaves.Statement (.stkEq e t) := fun _ => ⟨_, rfl⟩
theorem Leaves.stkNe (e t : Nat) : Leaves.Statement (.stkNe e t) := fun _ => ⟨_, rfl⟩
theorem Leaves.stkLt (e t : Nat) : Leaves.Statement (.stkLt e t) := fun _ => ⟨_, rfl⟩
theorem Leaves.stkLtu (e t : Nat) : Leaves.Statement (.stkLtu e t) := fun _ => ⟨_, rfl⟩
theorem Leaves.stkNot (e t : Nat) : Leaves.Statement (.stkNot e t) := fun _ => ⟨_, rfl⟩
theorem Leaves.stkNeg (e t : Nat) : Leaves.Statement (.stkNeg e t) := fun _ => ⟨_, rfl⟩
theorem Leaves.stkNop (e t : Nat) : Leaves.Statement (.stkNop e t) := fun _ => ⟨_, rfl⟩
theorem Leaves.stkDup (e t : Nat) : Leaves.Statement (.stkDup e t) := fun _ => ⟨_, rfl⟩
theorem Leaves.stkDrop (e t : Nat) : Leaves.Statement (.stkDrop e t) := fun _ => ⟨_, rfl⟩
theorem Leaves.stkSwap (e t : Nat) : Leaves.Statement (.stkSwap e t) := fun _ => ⟨_, rfl⟩
theorem Leaves.stkOver (e t : Nat) : Leaves.Statement (.stkOver e t) := fun _ => ⟨_, rfl⟩
theorem Leaves.stkRot (e t : Nat) : Leaves.Statement (.stkRot e t) := fun _ => ⟨_, rfl⟩
theorem Leaves.stkSrc (e t : Nat) : Leaves.Statement (.stkSrc e t) := fun _ => ⟨_, rfl⟩
theorem Leaves.stkDst (e t : Nat) : Leaves.Statement (.stkDst e t) := fun _ => ⟨_, rfl⟩
theorem Leaves.stkMfc (e t : Nat) : Leaves.Statement (.stkMfc e t) := fun _ => ⟨_, rfl⟩
theorem Leaves.stkMtc (e t : Nat) : Leaves.Statement (.stkMtc e t) := fun _ => ⟨_, rfl⟩
theorem Leaves.stkCbrAl (e t : Nat) : Leaves.Statement (.stkCbrAl e t) := fun _ => ⟨_, rfl⟩
theorem Leaves.stkCbrCond (e t : Nat) : Leaves.Statement (.stkCbrCond e t) := fun _ => ⟨_, rfl⟩
theorem Leaves.stkCall (e t : Nat) : Leaves.Statement (.stkCall e t) := fun _ => ⟨_, rfl⟩
theorem Leaves.stkRet (e t : Nat) : Leaves.Statement (.stkRet e t) := fun _ => ⟨_, rfl⟩
theorem Leaves.stkLeave (e t : Nat) : Leaves.Statement (.stkLeave e t) := fun _ => ⟨_, rfl⟩
theorem Leaves.stkHalt (e t : Nat) : Leaves.Statement (.stkHalt e t) := fun _ => ⟨_, rfl⟩
theorem Leaves.stkIflush (e t : Nat) : Leaves.Statement (.stkIflush e t) := fun _ => ⟨_, rfl⟩
theorem Leaves.stkSyncM (e t : Nat) : Leaves.Statement (.stkSyncM e t) := fun _ => ⟨_, rfl⟩
theorem Leaves.stkFenceA (e t : Nat) : Leaves.Statement (.stkFenceA e t) := fun _ => ⟨_, rfl⟩
theorem Leaves.exceptionEntry (e t : Nat) : Leaves.Statement (.exceptionEntry e t) := fun _ => ⟨_, rfl⟩
theorem Leaves.watchdogExpiry (e t : Nat) : Leaves.Statement (.watchdogExpiry e t) := fun _ => ⟨_, rfl⟩
theorem Leaves.registerWrite (r : By) (a : Nat) (v : Word) : Leaves.Statement (.registerWrite r a v) := fun _ => ⟨_, rfl⟩
theorem Leaves.rclrRead (r : By) (a : Nat) : Leaves.Statement (.rclrRead r a) := fun _ => ⟨_, rfl⟩
theorem Leaves.latchedRead (r : By) (a : Nat) : Leaves.Statement (.latchedRead r a) := fun _ => ⟨_, rfl⟩
theorem Leaves.commitComplete (b : Blk) (m : Med) (fs : List (Nat × Nat × List Nat × Nat)) : Leaves.Statement (.commitComplete b m fs) := fun _ => ⟨_, rfl⟩
theorem Leaves.tideFrameBoundary (f : Nat) : Leaves.Statement (.tideFrameBoundary f) := fun _ => ⟨_, rfl⟩
theorem Leaves.tblInstall (e : Nat) : Leaves.Statement (.tblInstall e) := fun _ => ⟨_, rfl⟩
theorem Leaves.tblDisarm (e : Nat) : Leaves.Statement (.tblDisarm e) := fun _ => ⟨_, rfl⟩
theorem Leaves.tblRemove (e : Nat) : Leaves.Statement (.tblRemove e) := fun _ => ⟨_, rfl⟩
theorem Leaves.tblRelease (e : Nat) : Leaves.Statement (.tblRelease e) := fun _ => ⟨_, rfl⟩
theorem Leaves.tblReleaseTime (e : Nat) : Leaves.Statement (.tblReleaseTime e) := fun _ => ⟨_, rfl⟩
theorem Leaves.rngCommit (e : Nat) : Leaves.Statement (.rngCommit e) := fun _ => ⟨_, rfl⟩
theorem Leaves.patrolStart (d : Nat) : Leaves.Statement (.patrolStart d) := fun _ => ⟨_, rfl⟩
theorem Leaves.patrolStop (d : Nat) : Leaves.Statement (.patrolStop d) := fun _ => ⟨_, rfl⟩
theorem Leaves.patrolBlock (d n : Nat) (fs : List (Nat × Nat × Nat × List Nat × Nat)) : Leaves.Statement (.patrolBlock d n fs) := fun _ => ⟨_, rfl⟩
theorem Leaves.memCfgCommit (d : Nat) : Leaves.Statement (.memCfgCommit d) := fun _ => ⟨_, rfl⟩
theorem Leaves.bankTransitionDone (d b : Nat) : Leaves.Statement (.bankTransitionDone d b) := fun _ => ⟨_, rfl⟩
theorem Leaves.slotLoad : Leaves.Statement .slotLoad := fun _ => ⟨_, rfl⟩
theorem Leaves.slotCheck : Leaves.Statement .slotCheck := fun _ => ⟨_, rfl⟩
theorem Leaves.slotDisarm : Leaves.Statement .slotDisarm := fun _ => ⟨_, rfl⟩
theorem Leaves.reservationOccurrence (n f : Nat) : Leaves.Statement (.reservationOccurrence n f) := fun _ => ⟨_, rfl⟩
theorem Leaves.messageArrival (n ch src sch : Nat) (corrupt : Bool) : Leaves.Statement (.messageArrival n ch src sch corrupt) := fun _ => ⟨_, rfl⟩
theorem Leaves.bestEffortMessage (n ch : Nat) : Leaves.Statement (.bestEffortMessage n ch) := fun _ => ⟨_, rfl⟩
theorem Leaves.matrixRequest (r : By) (a len : Nat) (data : Option (List Byte)) : Leaves.Statement (.matrixRequest r a len data) := fun _ => ⟨_, rfl⟩
theorem Leaves.matrixResponse (r : By) (target beats upset : Nat) (host : List Byte) (refused : Bool) : Leaves.Statement (.matrixResponse r target beats upset host refused) := fun _ => ⟨_, rfl⟩
theorem Leaves.mtxCommit : Leaves.Statement .mtxCommit := fun _ => ⟨_, rfl⟩
theorem Leaves.culStart (c n : Nat) : Leaves.Statement (.culStart c n) := fun _ => ⟨_, rfl⟩
theorem Leaves.culChain (c n : Nat) : Leaves.Statement (.culChain c n) := fun _ => ⟨_, rfl⟩
theorem Leaves.culHalt (c n : Nat) : Leaves.Statement (.culHalt c n) := fun _ => ⟨_, rfl⟩
theorem Leaves.culResume (c n : Nat) : Leaves.Statement (.culResume c n) := fun _ => ⟨_, rfl⟩
theorem Leaves.culDoorbell (r : By) (c : Nat) (v : Word) : Leaves.Statement (.culDoorbell r c v) := fun _ => ⟨_, rfl⟩
theorem Leaves.culDisable (r : By) (c : Nat) (v : Word) : Leaves.Statement (.culDisable r c v) := fun _ => ⟨_, rfl⟩
theorem Leaves.descriptorFetch (c n : Nat) : Leaves.Statement (.descriptorFetch c n) := fun _ => ⟨_, rfl⟩
theorem Leaves.descriptorStart (c upset : Nat) : Leaves.Statement (.descriptorStart c upset) := fun _ => ⟨_, rfl⟩
theorem Leaves.portionStart (c : Nat) : Leaves.Statement (.portionStart c) := fun _ => ⟨_, rfl⟩
theorem Leaves.culvertRequestChange (c n : Nat) (active : Bool) : Leaves.Statement (.culvertRequestChange c n active) := fun _ => ⟨_, rfl⟩
theorem Leaves.descriptorComplete (c : Nat) : Leaves.Statement (.descriptorComplete c) := fun _ => ⟨_, rfl⟩
theorem Leaves.eventDelivery (src e t : Nat) : Leaves.Statement (.eventDelivery src e t) := fun _ => ⟨_, rfl⟩
theorem Leaves.evrRouteCommit : Leaves.Statement .evrRouteCommit := fun _ => ⟨_, rfl⟩
theorem Leaves.evrDoorbellWrite (r : By) (n : Nat) (v : Word) : Leaves.Statement (.evrDoorbellWrite r n v) := fun _ => ⟨_, rfl⟩
theorem Leaves.tideSource : Leaves.Statement .tideSource := fun _ => ⟨_, rfl⟩
theorem Leaves.tideAdjust : Leaves.Statement .tideAdjust := fun _ => ⟨_, rfl⟩
theorem Leaves.tideStep : Leaves.Statement .tideStep := fun _ => ⟨_, rfl⟩
theorem Leaves.tideState : Leaves.Statement .tideState := fun _ => ⟨_, rfl⟩
theorem Leaves.tideComparatorEnable : Leaves.Statement .tideComparatorEnable := fun _ => ⟨_, rfl⟩
theorem Leaves.tideComparatorDisable : Leaves.Statement .tideComparatorDisable := fun _ => ⟨_, rfl⟩
theorem Leaves.comparatorFire (c : Nat) : Leaves.Statement (.comparatorFire c) := fun _ => ⟨_, rfl⟩
theorem Leaves.ppsEdge (frac : Nat) : Leaves.Statement (.ppsEdge frac) := fun _ => ⟨_, rfl⟩
theorem Leaves.holdoverTimeout : Leaves.Statement .holdoverTimeout := fun _ => ⟨_, rfl⟩
theorem Leaves.tioConfigure (n : Nat) : Leaves.Statement (.tioConfigure n) := fun _ => ⟨_, rfl⟩
theorem Leaves.tioJoin (n : Nat) : Leaves.Statement (.tioJoin n) := fun _ => ⟨_, rfl⟩
theorem Leaves.tioFlush (n : Nat) : Leaves.Statement (.tioFlush n) := fun _ => ⟨_, rfl⟩
theorem Leaves.tioPush (r : By) (n : Nat) (side level : Bool) (tag : Nat) : Leaves.Statement (.tioPush r n side level tag) := fun _ => ⟨_, rfl⟩
theorem Leaves.tioWithdraw (r : By) (n : Nat) (side : Bool) : Leaves.Statement (.tioWithdraw r n side) := fun _ => ⟨_, rfl⟩
theorem Leaves.edgeFire (n : Nat) : Leaves.Statement (.edgeFire n) := fun _ => ⟨_, rfl⟩
theorem Leaves.safeDrive (n : Nat) : Leaves.Statement (.safeDrive n) := fun _ => ⟨_, rfl⟩
theorem Leaves.captureEdge (n : Nat) (ball : Bool) (at' frac : Nat) : Leaves.Statement (.captureEdge n ball at' frac) := fun _ => ⟨_, rfl⟩
theorem Leaves.capPop (r : By) (n : Nat) : Leaves.Statement (.capPop r n) := fun _ => ⟨_, rfl⟩
theorem Leaves.encoderCount (n : Nat) (a b : Bool) : Leaves.Statement (.encoderCount n a b) := fun _ => ⟨_, rfl⟩
theorem Leaves.encoderSample (n at' : Nat) : Leaves.Statement (.encoderSample n at') := fun _ => ⟨_, rfl⟩
theorem Leaves.pwmPeriod (n at' : Nat) : Leaves.Statement (.pwmPeriod n at') := fun _ => ⟨_, rfl⟩
theorem Leaves.ssiFrame (n at' : Nat) (ready : Bool) (bits : Nat) : Leaves.Statement (.ssiFrame n at' ready bits) := fun _ => ⟨_, rfl⟩
theorem Leaves.dlkStart (n : Nat) : Leaves.Statement (.dlkStart n) := fun _ => ⟨_, rfl⟩
theorem Leaves.dlkTables (n : Nat) : Leaves.Statement (.dlkTables n) := fun _ => ⟨_, rfl⟩
theorem Leaves.dlkStop (n : Nat) : Leaves.Statement (.dlkStop n) := fun _ => ⟨_, rfl⟩
theorem Leaves.dlkDisarm (n : Nat) : Leaves.Statement (.dlkDisarm n) := fun _ => ⟨_, rfl⟩
theorem Leaves.dlkJoin (n : Nat) : Leaves.Statement (.dlkJoin n) := fun _ => ⟨_, rfl⟩
theorem Leaves.dlkPush (r : By) (n : Nat) (side : Bool) (tag : Nat) : Leaves.Statement (.dlkPush r n side tag) := fun _ => ⟨_, rfl⟩
theorem Leaves.dlkWithdraw (r : By) (n : Nat) (side : Bool) : Leaves.Statement (.dlkWithdraw r n side) := fun _ => ⟨_, rfl⟩
theorem Leaves.dlkExchange (n : Nat) : Leaves.Statement (.dlkExchange n) := fun _ => ⟨_, rfl⟩
theorem Leaves.dlkFrameReceived (n at' : Nat) (bits : List Bool) (coded : Bool) : Leaves.Statement (.dlkFrameReceived n at' bits coded) := fun _ => ⟨_, rfl⟩
theorem Leaves.dlkRxTimeout (n : Nat) : Leaves.Statement (.dlkRxTimeout n) := fun _ => ⟨_, rfl⟩
theorem Leaves.weirPeriodBoundary (n : Nat) (temps : List Int) (pols : List (Nat × Nat × Nat)) : Leaves.Statement (.weirPeriodBoundary n temps pols) := fun _ => ⟨_, rfl⟩
theorem Leaves.weirGrantApply : Leaves.Statement .weirGrantApply := fun _ => ⟨_, rfl⟩
theorem Leaves.thermalTrip (also : Nat) : Leaves.Statement (.thermalTrip also) := fun _ => ⟨_, rfl⟩
theorem Leaves.scaleUpdate : Leaves.Statement .scaleUpdate := fun _ => ⟨_, rfl⟩
theorem Leaves.dispatchEntryWrite (r : By) (p j o : Nat) (v : Word) : Leaves.Statement (.dispatchEntryWrite r p j o v) := fun _ => ⟨_, rfl⟩
theorem Leaves.jobRelease (p j : Nat) : Leaves.Statement (.jobRelease p j) := fun _ => ⟨_, rfl⟩
theorem Leaves.jobAdmit (p : Nat) : Leaves.Statement (.jobAdmit p) := fun _ => ⟨_, rfl⟩
theorem Leaves.jobStart (p j : Nat) : Leaves.Statement (.jobStart p j) := fun _ => ⟨_, rfl⟩
theorem Leaves.jobDeadline (p j : Nat) : Leaves.Statement (.jobDeadline p j) := fun _ => ⟨_, rfl⟩
theorem Leaves.regulatorSettled (p : Nat) : Leaves.Statement (.regulatorSettled p) := fun _ => ⟨_, rfl⟩
theorem Leaves.weirCommit : Leaves.Statement .weirCommit := fun _ => ⟨_, rfl⟩
theorem Leaves.supplyWarning : Leaves.Statement .supplyWarning := fun _ => ⟨_, rfl⟩
theorem Leaves.supplyWarningEnd (minMv lastLow : Nat) : Leaves.Statement (.supplyWarningEnd minMv lastLow) := fun _ => ⟨_, rfl⟩
theorem Leaves.supplyReset (minMv also : Nat) : Leaves.Statement (.supplyReset minMv also) := fun _ => ⟨_, rfl⟩
theorem Leaves.powerFault (p detail : Nat) : Leaves.Statement (.powerFault p detail) := fun _ => ⟨_, rfl⟩
theorem Leaves.closureComplete (u : Nat) : Leaves.Statement (.closureComplete u) := fun _ => ⟨_, rfl⟩
theorem Leaves.pldWdtWrite (r : By) (e t : Nat) (v : Word) : Leaves.Statement (.pldWdtWrite r e t v) := fun _ => ⟨_, rfl⟩
theorem Leaves.keeperMismatch (pc : Word) : Leaves.Statement (.keeperMismatch pc) := fun _ => ⟨_, rfl⟩
theorem Leaves.keeperResyncDone : Leaves.Statement .keeperResyncDone := fun _ => ⟨_, rfl⟩
theorem Leaves.fltClose : Leaves.Statement .fltClose := fun _ => ⟨_, rfl⟩
theorem Leaves.fltReset : Leaves.Statement .fltReset := fun _ => ⟨_, rfl⟩
theorem Leaves.fltReadmit : Leaves.Statement .fltReadmit := fun _ => ⟨_, rfl⟩
theorem Leaves.fltJoin : Leaves.Statement .fltJoin := fun _ => ⟨_, rfl⟩
theorem Leaves.fltDisarm : Leaves.Statement .fltDisarm := fun _ => ⟨_, rfl⟩
theorem Leaves.fltConfig : Leaves.Statement .fltConfig := fun _ => ⟨_, rfl⟩
theorem Leaves.ethConfig (n : Nat) : Leaves.Statement (.ethConfig n) := fun _ => ⟨_, rfl⟩
theorem Leaves.ethDisarm (n : Nat) : Leaves.Statement (.ethDisarm n) := fun _ => ⟨_, rfl⟩
theorem Leaves.ethLinkreset (n : Nat) : Leaves.Statement (.ethLinkreset n) := fun _ => ⟨_, rfl⟩
theorem Leaves.ethConfigSwap (n : Nat) : Leaves.Statement (.ethConfigSwap n) := fun _ => ⟨_, rfl⟩
theorem Leaves.ethDbWrite (r : By) (n : Nat) (v : Word) : Leaves.Statement (.ethDbWrite r n v) := fun _ => ⟨_, rfl⟩
theorem Leaves.ethFrameReceived (n : Nat) (f : List Byte) (fcsOk : Bool) (at' : Nat) : Leaves.Statement (.ethFrameReceived n f fcsOk at') := fun _ => ⟨_, rfl⟩
theorem Leaves.ethFrameSent (n q at' : Nat) (cyclic : Bool) : Leaves.Statement (.ethFrameSent n q at' cyclic) := fun _ => ⟨_, rfl⟩
theorem Leaves.cyclicBuild (n j c : Nat) : Leaves.Statement (.cyclicBuild n j c) := fun _ => ⟨_, rfl⟩
theorem Leaves.cyclicEnqueue (n j : Nat) : Leaves.Statement (.cyclicEnqueue n j) := fun _ => ⟨_, rfl⟩
theorem Leaves.ethLinkChange (n kind : Nat) : Leaves.Statement (.ethLinkChange n kind) := fun _ => ⟨_, rfl⟩
theorem Leaves.strCommit : Leaves.Statement .strCommit := fun _ => ⟨_, rfl⟩
theorem Leaves.csiCommit (n : Nat) : Leaves.Statement (.csiCommit n) := fun _ => ⟨_, rfl⟩
theorem Leaves.frameStart (n v num at' : Nat) (corrected : Bool) : Leaves.Statement (.frameStart n v num at' corrected) := fun _ => ⟨_, rfl⟩
theorem Leaves.frameEnd (n v num at' : Nat) (corrected : Bool) : Leaves.Statement (.frameEnd n v num at' corrected) := fun _ => ⟨_, rfl⟩
theorem Leaves.csiLine (n v dt : Nat) (bs : List Byte) (crcOk corrected : Bool) : Leaves.Statement (.csiLine n v dt bs crcOk corrected) := fun _ => ⟨_, rfl⟩
theorem Leaves.pcieInbound (bar off len : Nat) (data : Option (List Byte)) (poisoned correctable : Bool) : Leaves.Statement (.pcieInbound bar off len data poisoned correctable) := fun _ => ⟨_, rfl⟩
theorem Leaves.outboundTimeout : Leaves.Statement .outboundTimeout := fun _ => ⟨_, rfl⟩
theorem Leaves.pcieEventForward (v : Nat) : Leaves.Statement (.pcieEventForward v) := fun _ => ⟨_, rfl⟩
theorem Leaves.pcieLinkChange (width speed : Nat) : Leaves.Statement (.pcieLinkChange width speed) := fun _ => ⟨_, rfl⟩
theorem Leaves.desc (u : Nat) (ws : List Word) : Leaves.Statement (.desc u ws) := fun _ => ⟨_, rfl⟩
theorem Leaves.ready : Leaves.Statement .ready := fun _ => ⟨_, rfl⟩
theorem Leaves.res (u e t : Nat) (shadow : Bool) (ws : List Word) (late : Bool) : Leaves.Statement (.res u e t shadow ws late) := fun _ => ⟨_, rfl⟩
theorem Leaves.cred (u n : Nat) : Leaves.Statement (.cred u n) := fun _ => ⟨_, rfl⟩
theorem Leaves.rdresp (tag : Nat) (bytes : List Byte) (err : Bool) : Leaves.Statement (.rdresp tag bytes err) := fun _ => ⟨_, rfl⟩
theorem Leaves.wrack (tag : Nat) (err : Bool) : Leaves.Statement (.wrack tag err) := fun _ => ⟨_, rfl⟩
theorem Leaves.annexRequestTimeout : Leaves.Statement .annexRequestTimeout := fun _ => ⟨_, rfl⟩
theorem Leaves.anxCtrlWrite (r : By) (v : Word) : Leaves.Statement (.anxCtrlWrite r v) := fun _ => ⟨_, rfl⟩
theorem Leaves.vltWrite (m : Med) : Leaves.Statement (.vltWrite m) := fun _ => ⟨_, rfl⟩
theorem Leaves.vltRead (m : Med) : Leaves.Statement (.vltRead m) := fun _ => ⟨_, rfl⟩
theorem Leaves.vltDelete (m : Med) : Leaves.Statement (.vltDelete m) := fun _ => ⟨_, rfl⟩
theorem Leaves.vltAppend (m : Med) : Leaves.Statement (.vltAppend m) := fun _ => ⟨_, rfl⟩
theorem Leaves.vltStat (m : Med) : Leaves.Statement (.vltStat m) := fun _ => ⟨_, rfl⟩
theorem Leaves.vltLoad (m : Med) : Leaves.Statement (.vltLoad m) := fun _ => ⟨_, rfl⟩
theorem Leaves.vltTable (m : Med) : Leaves.Statement (.vltTable m) := fun _ => ⟨_, rfl⟩
theorem Leaves.vltFormat (m : Med) : Leaves.Statement (.vltFormat m) := fun _ => ⟨_, rfl⟩
theorem Leaves.vltScrub (m : Med) : Leaves.Statement (.vltScrub m) := fun _ => ⟨_, rfl⟩
theorem Leaves.vltConfig (m : Med) : Leaves.Statement (.vltConfig m) := fun _ => ⟨_, rfl⟩
theorem Leaves.scrubPeriod (m : Med) : Leaves.Statement (.scrubPeriod m) := fun _ => ⟨_, rfl⟩
theorem Leaves.vaultBackgroundMove (m : Med) : Leaves.Statement (.vaultBackgroundMove m) := fun _ => ⟨_, rfl⟩
theorem Leaves.powerOnReset (also : Nat) : Leaves.Statement (.powerOnReset also) := fun _ => ⟨_, rfl⟩
theorem Leaves.pinReset (also : Nat) : Leaves.Statement (.pinReset also) := fun _ => ⟨_, rfl⟩
theorem Leaves.softwareReset (r : By) : Leaves.Statement (.softwareReset r) := fun _ => ⟨_, rfl⟩
theorem Leaves.debugReset (r : By) : Leaves.Statement (.debugReset r) := fun _ => ⟨_, rfl⟩
theorem Leaves.resetRelease (pins : Nat) (fs : List (Nat × Nat × List Nat × Nat)) (ce blocks good : List Nat) : Leaves.Statement (.resetRelease pins fs ce blocks good) := fun _ => ⟨_, rfl⟩
theorem Leaves.bootFirmware (m1 m2 : Med) : Leaves.Statement (.bootFirmware m1 m2) := fun _ => ⟨_, rfl⟩
theorem Leaves.pcieBoot (m : Med) : Leaves.Statement (.pcieBoot m) := fun _ => ⟨_, rfl⟩
theorem Leaves.sysStartCommit : Leaves.Statement .sysStartCommit := fun _ => ⟨_, rfl⟩
theorem Leaves.engineStart : Leaves.Statement .engineStart := fun _ => ⟨_, rfl⟩
theorem Leaves.bistEngine : Leaves.Statement .bistEngine := fun _ => ⟨_, rfl⟩
theorem Leaves.bistPolder (fs : List (Nat × Nat × List Nat × Nat)) : Leaves.Statement (.bistPolder fs) := fun _ => ⟨_, rfl⟩
theorem Leaves.bistSerdes : Leaves.Statement .bistSerdes := fun _ => ⟨_, rfl⟩
theorem Leaves.otpProgram : Leaves.Statement .otpProgram := fun _ => ⟨_, rfl⟩
theorem Leaves.dbgHalt : Leaves.Statement .dbgHalt := fun _ => ⟨_, rfl⟩
theorem Leaves.dbgResume : Leaves.Statement .dbgResume := fun _ => ⟨_, rfl⟩
theorem Leaves.dbgStep : Leaves.Statement .dbgStep := fun _ => ⟨_, rfl⟩
theorem Leaves.dbgTswWrite (r : By) (o : Nat) (v : Word) : Leaves.Statement (.dbgTswWrite r o v) := fun _ => ⟨_, rfl⟩
theorem Leaves.dbgUnlock (r : By) (v : Word) : Leaves.Statement (.dbgUnlock r v) := fun _ => ⟨_, rfl⟩
theorem Leaves.dbgTrcctrlWrite (r : By) (p : Nat) (v : Word) : Leaves.Statement (.dbgTrcctrlWrite r p v) := fun _ => ⟨_, rfl⟩
theorem Leaves.dapRead (a : Nat) : Leaves.Statement (.dapRead a) := fun _ => ⟨_, rfl⟩
theorem Leaves.dapWrite (a : Nat) (v : Word) : Leaves.Statement (.dapWrite a v) := fun _ => ⟨_, rfl⟩
theorem Leaves.extest (bits : List Bool) : Leaves.Statement (.extest bits) := fun _ => ⟨_, rfl⟩
theorem Leaves.idcode : Leaves.Statement .idcode := fun _ => ⟨_, rfl⟩
theorem Leaves.samplePreload (bits : List Bool) : Leaves.Statement (.samplePreload bits) := fun _ => ⟨_, rfl⟩
theorem Leaves.clamp : Leaves.Statement .clamp := fun _ => ⟨_, rfl⟩
theorem Leaves.highz : Leaves.Statement .highz := fun _ => ⟨_, rfl⟩
theorem Leaves.dapacc : Leaves.Statement .dapacc := fun _ => ⟨_, rfl⟩
theorem Leaves.bypass : Leaves.Statement .bypass := fun _ => ⟨_, rfl⟩
theorem Leaves.stkIllegalInstruction (e t : Nat) : Leaves.Statement (.stkIllegalInstruction e t) := fun _ => ⟨_, rfl⟩
theorem Leaves.annexPacketError (code : Nat) : Leaves.Statement (.annexPacketError code) := fun _ => ⟨_, rfl⟩
theorem Leaves.csiPacketDrop (n v : Nat) (header : Bool) : Leaves.Statement (.csiPacketDrop n v header) := fun _ => ⟨_, rfl⟩
theorem Leaves.csiPhyError (n mask : Nat) : Leaves.Statement (.csiPhyError n mask) := fun _ => ⟨_, rfl⟩
theorem Leaves.gateControlListInterval (n : Nat) : Leaves.Statement (.gateControlListInterval n) := fun _ => ⟨_, rfl⟩
theorem Leaves.tapReset : Leaves.Statement .tapReset := fun _ => ⟨_, rfl⟩

theorem IllFormedIdle.bundleIssue (e t : Nat) (parity : Bool) (late : Nat) : IllFormedIdle.Statement (.bundleIssue e t parity late) := fun s h =>
  show execBundleIssue e t parity late s = _ from run_ill h s
theorem IllFormedIdle.rep (e t : Nat) : IllFormedIdle.Statement (.rep e t) := fun s h =>
  show execRep e t s = _ from run_ill h s
theorem IllFormedIdle.operationResult (e t unit lost : Nat) : IllFormedIdle.Statement (.operationResult e t unit lost) := fun s h =>
  show execOperationResult e t unit lost s = _ from run_ill h s
theorem IllFormedIdle.loadResponse (e t i upset lost : Nat) : IllFormedIdle.Statement (.loadResponse e t i upset lost) := fun s h =>
  show execLoadResponse e t i upset lost s = _ from run_ill h s
theorem IllFormedIdle.eccWriteback (pa : Nat) : IllFormedIdle.Statement (.eccWriteback pa) := fun s h =>
  show execEccWriteback pa s = _ from run_ill h s
theorem IllFormedIdle.storeDrain (e t i lost : Nat) (clash : Bool) : IllFormedIdle.Statement (.storeDrain e t i lost clash) := fun s h =>
  show execStoreDrain e t i lost clash s = _ from run_ill h s
theorem IllFormedIdle.add (e t u pd : Nat) (o x : Word) : IllFormedIdle.Statement (.add e t u pd o x) := fun s h =>
  show execAdd e t u pd o x s = _ from run_ill h s
theorem IllFormedIdle.sub (e t u pd : Nat) (o x : Word) : IllFormedIdle.Statement (.sub e t u pd o x) := fun s h =>
  show execSub e t u pd o x s = _ from run_ill h s
theorem IllFormedIdle.addc (e t u pd : Nat) (o x : Word) : IllFormedIdle.Statement (.addc e t u pd o x) := fun s h =>
  show execAddc e t u pd o x s = _ from run_ill h s
theorem IllFormedIdle.subb (e t u pd : Nat) (o x : Word) : IllFormedIdle.Statement (.subb e t u pd o x) := fun s h =>
  show execSubb e t u pd o x s = _ from run_ill h s
theorem IllFormedIdle.adds (e t u : Nat) (o x : Word) : IllFormedIdle.Statement (.adds e t u o x) := fun s h =>
  show execAdds e t u o x s = _ from run_ill h s
theorem IllFormedIdle.subs (e t u : Nat) (o x : Word) : IllFormedIdle.Statement (.subs e t u o x) := fun s h =>
  show execSubs e t u o x s = _ from run_ill h s
theorem IllFormedIdle.neg (e t u : Nat) (o x : Word) : IllFormedIdle.Statement (.neg e t u o x) := fun s h =>
  show execNeg e t u o x s = _ from run_ill h s
theorem IllFormedIdle.abs (e t u : Nat) (o x : Word) : IllFormedIdle.Statement (.abs e t u o x) := fun s h =>
  show execAbs e t u o x s = _ from run_ill h s
theorem IllFormedIdle.and (e t u : Nat) (o x : Word) : IllFormedIdle.Statement (.and e t u o x) := fun s h =>
  show execAnd e t u o x s = _ from run_ill h s
theorem IllFormedIdle.or (e t u : Nat) (o x : Word) : IllFormedIdle.Statement (.or e t u o x) := fun s h =>
  show execOr e t u o x s = _ from run_ill h s
theorem IllFormedIdle.xor (e t u : Nat) (o x : Word) : IllFormedIdle.Statement (.xor e t u o x) := fun s h =>
  show execXor e t u o x s = _ from run_ill h s
theorem IllFormedIdle.andn (e t u : Nat) (o x : Word) : IllFormedIdle.Statement (.andn e t u o x) := fun s h =>
  show execAndn e t u o x s = _ from run_ill h s
theorem IllFormedIdle.not (e t u : Nat) (o x : Word) : IllFormedIdle.Statement (.not e t u o x) := fun s h =>
  show execNot e t u o x s = _ from run_ill h s
theorem IllFormedIdle.shl (e t u : Nat) (o x : Word) : IllFormedIdle.Statement (.shl e t u o x) := fun s h =>
  show execShl e t u o x s = _ from run_ill h s
theorem IllFormedIdle.shr (e t u : Nat) (o x : Word) : IllFormedIdle.Statement (.shr e t u o x) := fun s h =>
  show execShr e t u o x s = _ from run_ill h s
theorem IllFormedIdle.sar (e t u : Nat) (o x : Word) : IllFormedIdle.Statement (.sar e t u o x) := fun s h =>
  show execSar e t u o x s = _ from run_ill h s
theorem IllFormedIdle.rol (e t u : Nat) (o x : Word) : IllFormedIdle.Statement (.rol e t u o x) := fun s h =>
  show execRol e t u o x s = _ from run_ill h s
theorem IllFormedIdle.ror (e t u : Nat) (o x : Word) : IllFormedIdle.Statement (.ror e t u o x) := fun s h =>
  show execRor e t u o x s = _ from run_ill h s
theorem IllFormedIdle.min (e t u : Nat) (o x : Word) : IllFormedIdle.Statement (.min e t u o x) := fun s h =>
  show execMin e t u o x s = _ from run_ill h s
theorem IllFormedIdle.max (e t u : Nat) (o x : Word) : IllFormedIdle.Statement (.max e t u o x) := fun s h =>
  show execMax e t u o x s = _ from run_ill h s
theorem IllFormedIdle.minu (e t u : Nat) (o x : Word) : IllFormedIdle.Statement (.minu e t u o x) := fun s h =>
  show execMinu e t u o x s = _ from run_ill h s
theorem IllFormedIdle.maxu (e t u : Nat) (o x : Word) : IllFormedIdle.Statement (.maxu e t u o x) := fun s h =>
  show execMaxu e t u o x s = _ from run_ill h s
theorem IllFormedIdle.sats (e t u : Nat) (o x : Word) : IllFormedIdle.Statement (.sats e t u o x) := fun s h =>
  show execSats e t u o x s = _ from run_ill h s
theorem IllFormedIdle.satu (e t u : Nat) (o x : Word) : IllFormedIdle.Statement (.satu e t u o x) := fun s h =>
  show execSatu e t u o x s = _ from run_ill h s
theorem IllFormedIdle.sextb (e t u : Nat) (o x : Word) : IllFormedIdle.Statement (.sextb e t u o x) := fun s h =>
  show execSextb e t u o x s = _ from run_ill h s
theorem IllFormedIdle.sexth (e t u : Nat) (o x : Word) : IllFormedIdle.Statement (.sexth e t u o x) := fun s h =>
  show execSexth e t u o x s = _ from run_ill h s
theorem IllFormedIdle.zextb (e t u : Nat) (o x : Word) : IllFormedIdle.Statement (.zextb e t u o x) := fun s h =>
  show execZextb e t u o x s = _ from run_ill h s
theorem IllFormedIdle.zexth (e t u : Nat) (o x : Word) : IllFormedIdle.Statement (.zexth e t u o x) := fun s h =>
  show execZexth e t u o x s = _ from run_ill h s
theorem IllFormedIdle.clz (e t u : Nat) (o x : Word) : IllFormedIdle.Statement (.clz e t u o x) := fun s h =>
  show execClz e t u o x s = _ from run_ill h s
theorem IllFormedIdle.popc (e t u : Nat) (o x : Word) : IllFormedIdle.Statement (.popc e t u o x) := fun s h =>
  show execPopc e t u o x s = _ from run_ill h s
theorem IllFormedIdle.cmpeq (e t u pd : Nat) (o x : Word) : IllFormedIdle.Statement (.cmpeq e t u pd o x) := fun s h =>
  show execCmpeq e t u pd o x s = _ from run_ill h s
theorem IllFormedIdle.cmpne (e t u pd : Nat) (o x : Word) : IllFormedIdle.Statement (.cmpne e t u pd o x) := fun s h =>
  show execCmpne e t u pd o x s = _ from run_ill h s
theorem IllFormedIdle.cmplt (e t u pd : Nat) (o x : Word) : IllFormedIdle.Statement (.cmplt e t u pd o x) := fun s h =>
  show execCmplt e t u pd o x s = _ from run_ill h s
theorem IllFormedIdle.cmple (e t u pd : Nat) (o x : Word) : IllFormedIdle.Statement (.cmple e t u pd o x) := fun s h =>
  show execCmple e t u pd o x s = _ from run_ill h s
theorem IllFormedIdle.cmpgt (e t u pd : Nat) (o x : Word) : IllFormedIdle.Statement (.cmpgt e t u pd o x) := fun s h =>
  show execCmpgt e t u pd o x s = _ from run_ill h s
theorem IllFormedIdle.cmpge (e t u pd : Nat) (o x : Word) : IllFormedIdle.Statement (.cmpge e t u pd o x) := fun s h =>
  show execCmpge e t u pd o x s = _ from run_ill h s
theorem IllFormedIdle.cmpltu (e t u pd : Nat) (o x : Word) : IllFormedIdle.Statement (.cmpltu e t u pd o x) := fun s h =>
  show execCmpltu e t u pd o x s = _ from run_ill h s
theorem IllFormedIdle.cmpleu (e t u pd : Nat) (o x : Word) : IllFormedIdle.Statement (.cmpleu e t u pd o x) := fun s h =>
  show execCmpleu e t u pd o x s = _ from run_ill h s
theorem IllFormedIdle.cmpgtu (e t u pd : Nat) (o x : Word) : IllFormedIdle.Statement (.cmpgtu e t u pd o x) := fun s h =>
  show execCmpgtu e t u pd o x s = _ from run_ill h s
theorem IllFormedIdle.cmpgeu (e t u pd : Nat) (o x : Word) : IllFormedIdle.Statement (.cmpgeu e t u pd o x) := fun s h =>
  show execCmpgeu e t u pd o x s = _ from run_ill h s
theorem IllFormedIdle.tstz (e t u pd : Nat) (o x : Word) : IllFormedIdle.Statement (.tstz e t u pd o x) := fun s h =>
  show execTstz e t u pd o x s = _ from run_ill h s
theorem IllFormedIdle.tstnz (e t u pd : Nat) (o x : Word) : IllFormedIdle.Statement (.tstnz e t u pd o x) := fun s h =>
  show execTstnz e t u pd o x s = _ from run_ill h s
theorem IllFormedIdle.lea (e t ar : Nat) (x : Word) : IllFormedIdle.Statement (.lea e t ar x) := fun s h =>
  show execLea e t ar x s = _ from run_ill h s
theorem IllFormedIdle.aadd (e t ar : Nat) (x : Word) : IllFormedIdle.Statement (.aadd e t ar x) := fun s h =>
  show execAadd e t ar x s = _ from run_ill h s
theorem IllFormedIdle.amod (e t ar ab : Nat) (o x : Word) : IllFormedIdle.Statement (.amod e t ar ab o x) := fun s h =>
  show execAmod e t ar ab o x s = _ from run_ill h s
theorem IllFormedIdle.muls (e t : Nat) (o x : Word) : IllFormedIdle.Statement (.muls e t o x) := fun s h =>
  show execMuls e t o x s = _ from run_ill h s
theorem IllFormedIdle.mulu (e t : Nat) (o x : Word) : IllFormedIdle.Statement (.mulu e t o x) := fun s h =>
  show execMulu e t o x s = _ from run_ill h s
theorem IllFormedIdle.mulsu (e t : Nat) (o x : Word) : IllFormedIdle.Statement (.mulsu e t o x) := fun s h =>
  show execMulsu e t o x s = _ from run_ill h s
theorem IllFormedIdle.mulq (e t sh : Nat) (o x : Word) : IllFormedIdle.Statement (.mulq e t sh o x) := fun s h =>
  show execMulq e t sh o x s = _ from run_ill h s
theorem IllFormedIdle.divs (e t : Nat) (o x : Word) : IllFormedIdle.Statement (.divs e t o x) := fun s h =>
  show execDivs e t o x s = _ from run_ill h s
theorem IllFormedIdle.divu (e t : Nat) (o x : Word) : IllFormedIdle.Statement (.divu e t o x) := fun s h =>
  show execDivu e t o x s = _ from run_ill h s
theorem IllFormedIdle.mac16 (e t xa qa qb : Nat) (x : Word) : IllFormedIdle.Statement (.mac16 e t xa qa qb x) := fun s h =>
  show execMac16 e t xa qa qb x s = _ from run_ill h s
theorem IllFormedIdle.mac8ss (e t xa qa qb : Nat) (x : Word) : IllFormedIdle.Statement (.mac8ss e t xa qa qb x) := fun s h =>
  show execMac8ss e t xa qa qb x s = _ from run_ill h s
theorem IllFormedIdle.mac8us (e t xa qa qb : Nat) (x : Word) : IllFormedIdle.Statement (.mac8us e t xa qa qb x) := fun s h =>
  show execMac8us e t xa qa qb x s = _ from run_ill h s
theorem IllFormedIdle.mac8uu (e t xa qa qb : Nat) (x : Word) : IllFormedIdle.Statement (.mac8uu e t xa qa qb x) := fun s h =>
  show execMac8uu e t xa qa qb x s = _ from run_ill h s
theorem IllFormedIdle.nars16 (e t xa qd : Nat) (x : Word) : IllFormedIdle.Statement (.nars16 e t xa qd x) := fun s h =>
  show execNars16 e t xa qd x s = _ from run_ill h s
theorem IllFormedIdle.nars8 (e t xa qd : Nat) (x : Word) : IllFormedIdle.Statement (.nars8 e t xa qd x) := fun s h =>
  show execNars8 e t xa qd x s = _ from run_ill h s
theorem IllFormedIdle.naru8 (e t xa qd : Nat) (x : Word) : IllFormedIdle.Statement (.naru8 e t xa qd x) := fun s h =>
  show execNaru8 e t xa qd x s = _ from run_ill h s
theorem IllFormedIdle.packs8 (e t qa qb qd : Nat) : IllFormedIdle.Statement (.packs8 e t qa qb qd) := fun s h =>
  show execPacks8 e t qa qb qd s = _ from run_ill h s
theorem IllFormedIdle.packu8 (e t qa qb qd : Nat) : IllFormedIdle.Statement (.packu8 e t qa qb qd) := fun s h =>
  show execPacku8 e t qa qb qd s = _ from run_ill h s
theorem IllFormedIdle.unpkl8 (e t qa qd : Nat) : IllFormedIdle.Statement (.unpkl8 e t qa qd) := fun s h =>
  show execUnpkl8 e t qa qd s = _ from run_ill h s
theorem IllFormedIdle.unpkh8 (e t qa qd : Nat) : IllFormedIdle.Statement (.unpkh8 e t qa qd) := fun s h =>
  show execUnpkh8 e t qa qd s = _ from run_ill h s
theorem IllFormedIdle.unpklu8 (e t qa qd : Nat) : IllFormedIdle.Statement (.unpklu8 e t qa qd) := fun s h =>
  show execUnpklu8 e t qa qd s = _ from run_ill h s
theorem IllFormedIdle.unpkhu8 (e t qa qd : Nat) : IllFormedIdle.Statement (.unpkhu8 e t qa qd) := fun s h =>
  show execUnpkhu8 e t qa qd s = _ from run_ill h s
theorem IllFormedIdle.xlane (e t xa : Nat) (x : Word) : IllFormedIdle.Statement (.xlane e t xa x) := fun s h =>
  show execXlane e t xa x s = _ from run_ill h s
theorem IllFormedIdle.dadd (e t pd : Nat) (o x : Word) : IllFormedIdle.Statement (.dadd e t pd o x) := fun s h =>
  show execDadd e t pd o x s = _ from run_ill h s
theorem IllFormedIdle.dsub (e t pd : Nat) (o x : Word) : IllFormedIdle.Statement (.dsub e t pd o x) := fun s h =>
  show execDsub e t pd o x s = _ from run_ill h s
theorem IllFormedIdle.dadj (e t pd : Nat) (o x : Word) : IllFormedIdle.Statement (.dadj e t pd o x) := fun s h =>
  show execDadj e t pd o x s = _ from run_ill h s
theorem IllFormedIdle.b2d (e t : Nat) (o x : Word) : IllFormedIdle.Statement (.b2d e t o x) := fun s h =>
  show execB2d e t o x s = _ from run_ill h s
theorem IllFormedIdle.d2b (e t : Nat) (o x : Word) : IllFormedIdle.Statement (.d2b e t o x) := fun s h =>
  show execD2b e t o x s = _ from run_ill h s
theorem IllFormedIdle.dshl (e t : Nat) (o x : Word) : IllFormedIdle.Statement (.dshl e t o x) := fun s h =>
  show execDshl e t o x s = _ from run_ill h s
theorem IllFormedIdle.dshr (e t : Nat) (o x : Word) : IllFormedIdle.Statement (.dshr e t o x) := fun s h =>
  show execDshr e t o x s = _ from run_ill h s
theorem IllFormedIdle.ldb (e t u ar : Nat) (upd : Bool) (x : Word) : IllFormedIdle.Statement (.ldb e t u ar upd x) := fun s h =>
  show execLdb e t u ar upd x s = _ from run_ill h s
theorem IllFormedIdle.ldbu (e t u ar : Nat) (upd : Bool) (x : Word) : IllFormedIdle.Statement (.ldbu e t u ar upd x) := fun s h =>
  show execLdbu e t u ar upd x s = _ from run_ill h s
theorem IllFormedIdle.ldh (e t u ar : Nat) (upd : Bool) (x : Word) : IllFormedIdle.Statement (.ldh e t u ar upd x) := fun s h =>
  show execLdh e t u ar upd x s = _ from run_ill h s
theorem IllFormedIdle.ldhu (e t u ar : Nat) (upd : Bool) (x : Word) : IllFormedIdle.Statement (.ldhu e t u ar upd x) := fun s h =>
  show execLdhu e t u ar upd x s = _ from run_ill h s
theorem IllFormedIdle.ldw (e t u ar : Nat) (upd : Bool) (x : Word) : IllFormedIdle.Statement (.ldw e t u ar upd x) := fun s h =>
  show execLdw e t u ar upd x s = _ from run_ill h s
theorem IllFormedIdle.ldd (e t u dr ar : Nat) (upd : Bool) (x : Word) : IllFormedIdle.Statement (.ldd e t u dr ar upd x) := fun s h =>
  show execLdd e t u dr ar upd x s = _ from run_ill h s
theorem IllFormedIdle.stb (e t u ar : Nat) (upd : Bool) (o x : Word) : IllFormedIdle.Statement (.stb e t u ar upd o x) := fun s h =>
  show execStb e t u ar upd o x s = _ from run_ill h s
theorem IllFormedIdle.sth (e t u ar : Nat) (upd : Bool) (o x : Word) : IllFormedIdle.Statement (.sth e t u ar upd o x) := fun s h =>
  show execSth e t u ar upd o x s = _ from run_ill h s
theorem IllFormedIdle.stw (e t u ar : Nat) (upd : Bool) (o x : Word) : IllFormedIdle.Statement (.stw e t u ar upd o x) := fun s h =>
  show execStw e t u ar upd o x s = _ from run_ill h s
theorem IllFormedIdle.std (e t u dr ar : Nat) (upd : Bool) (x : Word) : IllFormedIdle.Statement (.std e t u dr ar upd x) := fun s h =>
  show execStd e t u dr ar upd x s = _ from run_ill h s
theorem IllFormedIdle.afadd (e t u ar : Nat) (o x : Word) : IllFormedIdle.Statement (.afadd e t u ar o x) := fun s h =>
  show execAfadd e t u ar o x s = _ from run_ill h s
theorem IllFormedIdle.aswap (e t u ar : Nat) (o x : Word) : IllFormedIdle.Statement (.aswap e t u ar o x) := fun s h =>
  show execAswap e t u ar o x s = _ from run_ill h s
theorem IllFormedIdle.acas (e t u dr ar : Nat) (o x : Word) : IllFormedIdle.Statement (.acas e t u dr ar o x) := fun s h =>
  show execAcas e t u dr ar o x s = _ from run_ill h s
theorem IllFormedIdle.br (e t : Nat) (hint : Bool) (x : Word) (wide : Bool) : IllFormedIdle.Statement (.br e t hint x wide) := fun s h =>
  show execBr e t hint x wide s = _ from run_ill h s
theorem IllFormedIdle.jl (e t : Nat) (hint : Bool) (x : Word) (wide : Bool) : IllFormedIdle.Statement (.jl e t hint x wide) := fun s h =>
  show execJl e t hint x wide s = _ from run_ill h s
theorem IllFormedIdle.cbrEq (e t : Nat) (hint : Bool) (o x : Word) (imm : Nat) : IllFormedIdle.Statement (.cbrEq e t hint o x imm) := fun s h =>
  show execCbrEq e t hint o x imm s = _ from run_ill h s
theorem IllFormedIdle.cbrNe (e t : Nat) (hint : Bool) (o x : Word) (imm : Nat) : IllFormedIdle.Statement (.cbrNe e t hint o x imm) := fun s h =>
  show execCbrNe e t hint o x imm s = _ from run_ill h s
theorem IllFormedIdle.cbrLt (e t : Nat) (hint : Bool) (o x : Word) (imm : Nat) : IllFormedIdle.Statement (.cbrLt e t hint o x imm) := fun s h =>
  show execCbrLt e t hint o x imm s = _ from run_ill h s
theorem IllFormedIdle.cbrGe (e t : Nat) (hint : Bool) (o x : Word) (imm : Nat) : IllFormedIdle.Statement (.cbrGe e t hint o x imm) := fun s h =>
  show execCbrGe e t hint o x imm s = _ from run_ill h s
theorem IllFormedIdle.cbrLtu (e t : Nat) (hint : Bool) (o x : Word) (imm : Nat) : IllFormedIdle.Statement (.cbrLtu e t hint o x imm) := fun s h =>
  show execCbrLtu e t hint o x imm s = _ from run_ill h s
theorem IllFormedIdle.cbrGeu (e t : Nat) (hint : Bool) (o x : Word) (imm : Nat) : IllFormedIdle.Statement (.cbrGeu e t hint o x imm) := fun s h =>
  show execCbrGeu e t hint o x imm s = _ from run_ill h s
theorem IllFormedIdle.enterS (e t : Nat) (x : Word) (wide : Bool) : IllFormedIdle.Statement (.enterS e t x wide) := fun s h =>
  show execEnterS e t x wide s = _ from run_ill h s
theorem IllFormedIdle.mfc (e t n : Nat) (wide : Bool) : IllFormedIdle.Statement (.mfc e t n wide) := fun s h =>
  show execMfc e t n wide s = _ from run_ill h s
theorem IllFormedIdle.mtc (e t n : Nat) (x : Word) (wide : Bool) : IllFormedIdle.Statement (.mtc e t n x wide) := fun s h =>
  show execMtc e t n x wide s = _ from run_ill h s
theorem IllFormedIdle.tstart (e t : Nat) (o x : Word) (wide : Bool) : IllFormedIdle.Statement (.tstart e t o x wide) := fun s h =>
  show execTstart e t o x wide s = _ from run_ill h s
theorem IllFormedIdle.tstop (e t : Nat) (x : Word) (wide : Bool) : IllFormedIdle.Statement (.tstop e t x wide) := fun s h =>
  show execTstop e t x wide s = _ from run_ill h s
theorem IllFormedIdle.gate (e t n : Nat) (wide : Bool) : IllFormedIdle.Statement (.gate e t n wide) := fun s h =>
  show execGate e t n wide s = _ from run_ill h s
theorem IllFormedIdle.retg (e t : Nat) (wide : Bool) : IllFormedIdle.Statement (.retg e t wide) := fun s h =>
  show execRetg e t wide s = _ from run_ill h s
theorem IllFormedIdle.retx (e t : Nat) (wide : Bool) : IllFormedIdle.Statement (.retx e t wide) := fun s h =>
  show execRetx e t wide s = _ from run_ill h s
theorem IllFormedIdle.iflush (e t : Nat) (x : Word) (wide : Bool) : IllFormedIdle.Statement (.iflush e t x wide) := fun s h =>
  show execIflush e t x wide s = _ from run_ill h s
theorem IllFormedIdle.syncM (e t : Nat) (wide : Bool) : IllFormedIdle.Statement (.syncM e t wide) := fun s h =>
  show execSyncM e t wide s = _ from run_ill h s
theorem IllFormedIdle.fenceA (e t : Nat) (wide : Bool) : IllFormedIdle.Statement (.fenceA e t wide) := fun s h =>
  show execFenceA e t wide s = _ from run_ill h s
theorem IllFormedIdle.eval (e t cs : Nat) (x : Word) : IllFormedIdle.Statement (.eval e t cs x) := fun s h =>
  show execEval e t cs x s = _ from run_ill h s
theorem IllFormedIdle.beat (e t bg : Nat) (x : Word) : IllFormedIdle.Statement (.beat e t bg x) := fun s h =>
  show execBeat e t bg x s = _ from run_ill h s
theorem IllFormedIdle.step (e t sl pd : Nat) (o x : Word) : IllFormedIdle.Statement (.step e t sl pd o x) := fun s h =>
  show execStep e t sl pd o x s = _ from run_ill h s
theorem IllFormedIdle.tbla (e t sl kd : Nat) : IllFormedIdle.Statement (.tbla e t sl kd) := fun s h =>
  show execTbla e t sl kd s = _ from run_ill h s
theorem IllFormedIdle.send (e t ch q : Nat) (x : Word) : IllFormedIdle.Statement (.send e t ch q x) := fun s h =>
  show execSend e t ch q x s = _ from run_ill h s
theorem IllFormedIdle.recv (e t ch pd : Nat) : IllFormedIdle.Statement (.recv e t ch pd) := fun s h =>
  show execRecv e t ch pd s = _ from run_ill h s
theorem IllFormedIdle.rpoll (e t ch pd : Nat) : IllFormedIdle.Statement (.rpoll e t ch pd) := fun s h =>
  show execRpoll e t ch pd s = _ from run_ill h s
theorem IllFormedIdle.rskip (e t ch : Nat) : IllFormedIdle.Statement (.rskip e t ch) := fun s h =>
  show execRskip e t ch s = _ from run_ill h s
theorem IllFormedIdle.take (e t pd : Nat) : IllFormedIdle.Statement (.take e t pd) := fun s h =>
  show execTake e t pd s = _ from run_ill h s
theorem IllFormedIdle.wait (e t pd : Nat) (x : Word) : IllFormedIdle.Statement (.wait e t pd x) := fun s h =>
  show execWait e t pd x s = _ from run_ill h s
theorem IllFormedIdle.evqWaitTimeout (e t : Nat) : IllFormedIdle.Statement (.evqWaitTimeout e t) := fun s h =>
  show execEvqWaitTimeout e t s = _ from run_ill h s
theorem IllFormedIdle.poll (e t pd : Nat) : IllFormedIdle.Statement (.poll e t pd) := fun s h =>
  show execPoll e t pd s = _ from run_ill h s
theorem IllFormedIdle.ring (e t dr : Nat) (x : Word) : IllFormedIdle.Statement (.ring e t dr x) := fun s h =>
  show execRing e t dr x s = _ from run_ill h s
theorem IllFormedIdle.hash (e t : Nat) (block : Word) : IllFormedIdle.Statement (.hash e t block) := fun s h =>
  show execHash e t block s = _ from run_ill h s
theorem IllFormedIdle.verify (e t : Nat) (block : Word) : IllFormedIdle.Statement (.verify e t block) := fun s h =>
  show execVerify e t block s = _ from run_ill h s
theorem IllFormedIdle.hashVerify (e t : Nat) (block : Word) : IllFormedIdle.Statement (.hashVerify e t block) := fun s h =>
  show execHashVerify e t block s = _ from run_ill h s
theorem IllFormedIdle.hvJobComplete (p : Nat) : IllFormedIdle.Statement (.hvJobComplete p) := fun s h =>
  show execHvJobComplete p s = _ from run_ill h s
theorem IllFormedIdle.uxOperation (e t u : Nat) (ws : List Word) : IllFormedIdle.Statement (.uxOperation e t u ws) := fun s h =>
  show execUxOperation e t u ws s = _ from run_ill h s
theorem IllFormedIdle.stkPushs (e t : Nat) : IllFormedIdle.Statement (.stkPushs e t) := fun s h =>
  show execStkPushs e t s = _ from run_ill h s
theorem IllFormedIdle.stkPushw (e t : Nat) : IllFormedIdle.Statement (.stkPushw e t) := fun s h =>
  show execStkPushw e t s = _ from run_ill h s
theorem IllFormedIdle.stkLdb (e t : Nat) : IllFormedIdle.Statement (.stkLdb e t) := fun s h =>
  show execStkLdb e t s = _ from run_ill h s
theorem IllFormedIdle.stkLdbu (e t : Nat) : IllFormedIdle.Statement (.stkLdbu e t) := fun s h =>
  show execStkLdbu e t s = _ from run_ill h s
theorem IllFormedIdle.stkLdh (e t : Nat) : IllFormedIdle.Statement (.stkLdh e t) := fun s h =>
  show execStkLdh e t s = _ from run_ill h s
theorem IllFormedIdle.stkLdhu (e t : Nat) : IllFormedIdle.Statement (.stkLdhu e t) := fun s h =>
  show execStkLdhu e t s = _ from run_ill h s
theorem IllFormedIdle.stkLdw (e t : Nat) : IllFormedIdle.Statement (.stkLdw e t) := fun s h =>
  show execStkLdw e t s = _ from run_ill h s
theorem IllFormedIdle.stkStb (e t : Nat) : IllFormedIdle.Statement (.stkStb e t) := fun s h =>
  show execStkStb e t s = _ from run_ill h s
theorem IllFormedIdle.stkSth (e t : Nat) : IllFormedIdle.Statement (.stkSth e t) := fun s h =>
  show execStkSth e t s = _ from run_ill h s
theorem IllFormedIdle.stkStw (e t : Nat) : IllFormedIdle.Statement (.stkStw e t) := fun s h =>
  show execStkStw e t s = _ from run_ill h s
theorem IllFormedIdle.stkAdd (e t : Nat) : IllFormedIdle.Statement (.stkAdd e t) := fun s h =>
  show execStkAdd e t s = _ from run_ill h s
theorem IllFormedIdle.stkSub (e t : Nat) : IllFormedIdle.Statement (.stkSub e t) := fun s h =>
  show execStkSub e t s = _ from run_ill h s
theorem IllFormedIdle.stkAnd (e t : Nat) : IllFormedIdle.Statement (.stkAnd e t) := fun s h =>
  show execStkAnd e t s = _ from run_ill h s
theorem IllFormedIdle.stkOr (e t : Nat) : IllFormedIdle.Statement (.stkOr e t) := fun s h =>
  show execStkOr e t s = _ from run_ill h s
theorem IllFormedIdle.stkXor (e t : Nat) : IllFormedIdle.Statement (.stkXor e t) := fun s h =>
  show execStkXor e t s = _ from run_ill h s
theorem IllFormedIdle.stkShl (e t : Nat) : IllFormedIdle.Statement (.stkShl e t) := fun s h =>
  show execStkShl e t s = _ from run_ill h s
theorem IllFormedIdle.stkShr (e t : Nat) : IllFormedIdle.Statement (.stkShr e t) := fun s h =>
  show execStkShr e t s = _ from run_ill h s
theorem IllFormedIdle.stkSar (e t : Nat) : IllFormedIdle.Statement (.stkSar e t) := fun s h =>
  show execStkSar e t s = _ from run_ill h s
theorem IllFormedIdle.stkRol (e t : Nat) : IllFormedIdle.Statement (.stkRol e t) := fun s h =>
  show execStkRol e t s = _ from run_ill h s
theorem IllFormedIdle.stkMin (e t : Nat) : IllFormedIdle.Statement (.stkMin e t) := fun s h =>
  show execStkMin e t s = _ from run_ill h s
theorem IllFormedIdle.stkMax (e t : Nat) : IllFormedIdle.Statement (.stkMax e t) := fun s h =>
  show execStkMax e t s = _ from run_ill h s
theorem IllFormedIdle.stkEq (e t : Nat) : IllFormedIdle.Statement (.stkEq e t) := fun s h =>
  show execStkEq e t s = _ from run_ill h s
theorem IllFormedIdle.stkNe (e t : Nat) : IllFormedIdle.Statement (.stkNe e t) := fun s h =>
  show execStkNe e t s = _ from run_ill h s
theorem IllFormedIdle.stkLt (e t : Nat) : IllFormedIdle.Statement (.stkLt e t) := fun s h =>
  show execStkLt e t s = _ from run_ill h s
theorem IllFormedIdle.stkLtu (e t : Nat) : IllFormedIdle.Statement (.stkLtu e t) := fun s h =>
  show execStkLtu e t s = _ from run_ill h s
theorem IllFormedIdle.stkNot (e t : Nat) : IllFormedIdle.Statement (.stkNot e t) := fun s h =>
  show execStkNot e t s = _ from run_ill h s
theorem IllFormedIdle.stkNeg (e t : Nat) : IllFormedIdle.Statement (.stkNeg e t) := fun s h =>
  show execStkNeg e t s = _ from run_ill h s
theorem IllFormedIdle.stkNop (e t : Nat) : IllFormedIdle.Statement (.stkNop e t) := fun s h =>
  show execStkNop e t s = _ from run_ill h s
theorem IllFormedIdle.stkDup (e t : Nat) : IllFormedIdle.Statement (.stkDup e t) := fun s h =>
  show execStkDup e t s = _ from run_ill h s
theorem IllFormedIdle.stkDrop (e t : Nat) : IllFormedIdle.Statement (.stkDrop e t) := fun s h =>
  show execStkDrop e t s = _ from run_ill h s
theorem IllFormedIdle.stkSwap (e t : Nat) : IllFormedIdle.Statement (.stkSwap e t) := fun s h =>
  show execStkSwap e t s = _ from run_ill h s
theorem IllFormedIdle.stkOver (e t : Nat) : IllFormedIdle.Statement (.stkOver e t) := fun s h =>
  show execStkOver e t s = _ from run_ill h s
theorem IllFormedIdle.stkRot (e t : Nat) : IllFormedIdle.Statement (.stkRot e t) := fun s h =>
  show execStkRot e t s = _ from run_ill h s
theorem IllFormedIdle.stkSrc (e t : Nat) : IllFormedIdle.Statement (.stkSrc e t) := fun s h =>
  show execStkSrc e t s = _ from run_ill h s
theorem IllFormedIdle.stkDst (e t : Nat) : IllFormedIdle.Statement (.stkDst e t) := fun s h =>
  show execStkDst e t s = _ from run_ill h s
theorem IllFormedIdle.stkMfc (e t : Nat) : IllFormedIdle.Statement (.stkMfc e t) := fun s h =>
  show execStkMfc e t s = _ from run_ill h s
theorem IllFormedIdle.stkMtc (e t : Nat) : IllFormedIdle.Statement (.stkMtc e t) := fun s h =>
  show execStkMtc e t s = _ from run_ill h s
theorem IllFormedIdle.stkCbrAl (e t : Nat) : IllFormedIdle.Statement (.stkCbrAl e t) := fun s h =>
  show execStkCbrAl e t s = _ from run_ill h s
theorem IllFormedIdle.stkCbrCond (e t : Nat) : IllFormedIdle.Statement (.stkCbrCond e t) := fun s h =>
  show execStkCbrCond e t s = _ from run_ill h s
theorem IllFormedIdle.stkCall (e t : Nat) : IllFormedIdle.Statement (.stkCall e t) := fun s h =>
  show execStkCall e t s = _ from run_ill h s
theorem IllFormedIdle.stkRet (e t : Nat) : IllFormedIdle.Statement (.stkRet e t) := fun s h =>
  show execStkRet e t s = _ from run_ill h s
theorem IllFormedIdle.stkLeave (e t : Nat) : IllFormedIdle.Statement (.stkLeave e t) := fun s h =>
  show execStkLeave e t s = _ from run_ill h s
theorem IllFormedIdle.stkHalt (e t : Nat) : IllFormedIdle.Statement (.stkHalt e t) := fun s h =>
  show execStkHalt e t s = _ from run_ill h s
theorem IllFormedIdle.stkIflush (e t : Nat) : IllFormedIdle.Statement (.stkIflush e t) := fun s h =>
  show execStkIflush e t s = _ from run_ill h s
theorem IllFormedIdle.stkSyncM (e t : Nat) : IllFormedIdle.Statement (.stkSyncM e t) := fun s h =>
  show execStkSyncM e t s = _ from run_ill h s
theorem IllFormedIdle.stkFenceA (e t : Nat) : IllFormedIdle.Statement (.stkFenceA e t) := fun s h =>
  show execStkFenceA e t s = _ from run_ill h s
theorem IllFormedIdle.exceptionEntry (e t : Nat) : IllFormedIdle.Statement (.exceptionEntry e t) := fun s h =>
  show execExceptionEntry e t s = _ from run_ill h s
theorem IllFormedIdle.watchdogExpiry (e t : Nat) : IllFormedIdle.Statement (.watchdogExpiry e t) := fun s h =>
  show execWatchdogExpiry e t s = _ from run_ill h s
theorem IllFormedIdle.registerWrite (r : By) (a : Nat) (v : Word) : IllFormedIdle.Statement (.registerWrite r a v) := fun s h =>
  show execRegisterWrite r a v s = _ from run_ill h s
theorem IllFormedIdle.rclrRead (r : By) (a : Nat) : IllFormedIdle.Statement (.rclrRead r a) := fun s h =>
  show execRclrRead r a s = _ from run_ill h s
theorem IllFormedIdle.latchedRead (r : By) (a : Nat) : IllFormedIdle.Statement (.latchedRead r a) := fun s h =>
  show execLatchedRead r a s = _ from run_ill h s
theorem IllFormedIdle.commitComplete (b : Blk) (m : Med) (fs : List (Nat × Nat × List Nat × Nat)) : IllFormedIdle.Statement (.commitComplete b m fs) := fun s h =>
  show execCommitComplete b m fs s = _ from run_ill h s
theorem IllFormedIdle.tideFrameBoundary (f : Nat) : IllFormedIdle.Statement (.tideFrameBoundary f) := fun s h =>
  show execTideFrameBoundary f s = _ from run_ill h s
theorem IllFormedIdle.tblInstall (e : Nat) : IllFormedIdle.Statement (.tblInstall e) := fun s h =>
  show execTblInstall e s = _ from run_ill h s
theorem IllFormedIdle.tblDisarm (e : Nat) : IllFormedIdle.Statement (.tblDisarm e) := fun s h =>
  show execTblDisarm e s = _ from run_ill h s
theorem IllFormedIdle.tblRemove (e : Nat) : IllFormedIdle.Statement (.tblRemove e) := fun s h =>
  show execTblRemove e s = _ from run_ill h s
theorem IllFormedIdle.tblRelease (e : Nat) : IllFormedIdle.Statement (.tblRelease e) := fun s h =>
  show execTblRelease e s = _ from run_ill h s
theorem IllFormedIdle.tblReleaseTime (e : Nat) : IllFormedIdle.Statement (.tblReleaseTime e) := fun s h =>
  show execTblReleaseTime e s = _ from run_ill h s
theorem IllFormedIdle.rngCommit (e : Nat) : IllFormedIdle.Statement (.rngCommit e) := fun s h =>
  show execRngCommit e s = _ from run_ill h s
theorem IllFormedIdle.patrolStart (d : Nat) : IllFormedIdle.Statement (.patrolStart d) := fun s h =>
  show execPatrolStart d s = _ from run_ill h s
theorem IllFormedIdle.patrolStop (d : Nat) : IllFormedIdle.Statement (.patrolStop d) := fun s h =>
  show execPatrolStop d s = _ from run_ill h s
theorem IllFormedIdle.patrolBlock (d n : Nat) (fs : List (Nat × Nat × Nat × List Nat × Nat)) : IllFormedIdle.Statement (.patrolBlock d n fs) := fun s h =>
  show execPatrolBlock d n fs s = _ from run_ill h s
theorem IllFormedIdle.memCfgCommit (d : Nat) : IllFormedIdle.Statement (.memCfgCommit d) := fun s h =>
  show execMemCfgCommit d s = _ from run_ill h s
theorem IllFormedIdle.bankTransitionDone (d b : Nat) : IllFormedIdle.Statement (.bankTransitionDone d b) := fun s h =>
  show execBankTransitionDone d b s = _ from run_ill h s
theorem IllFormedIdle.slotLoad : IllFormedIdle.Statement .slotLoad := fun s h =>
  show execSlotLoad s = _ from run_ill h s
theorem IllFormedIdle.slotCheck : IllFormedIdle.Statement .slotCheck := fun s h =>
  show execSlotCheck s = _ from run_ill h s
theorem IllFormedIdle.slotDisarm : IllFormedIdle.Statement .slotDisarm := fun s h =>
  show execSlotDisarm s = _ from run_ill h s
theorem IllFormedIdle.reservationOccurrence (n f : Nat) : IllFormedIdle.Statement (.reservationOccurrence n f) := fun s h =>
  show execReservationOccurrence n f s = _ from run_ill h s
theorem IllFormedIdle.messageArrival (n ch src sch : Nat) (corrupt : Bool) : IllFormedIdle.Statement (.messageArrival n ch src sch corrupt) := fun s h =>
  show execMessageArrival n ch src sch corrupt s = _ from run_ill h s
theorem IllFormedIdle.bestEffortMessage (n ch : Nat) : IllFormedIdle.Statement (.bestEffortMessage n ch) := fun s h =>
  show execBestEffortMessage n ch s = _ from run_ill h s
theorem IllFormedIdle.matrixRequest (r : By) (a len : Nat) (data : Option (List Byte)) : IllFormedIdle.Statement (.matrixRequest r a len data) := fun s h =>
  show execMatrixRequest r a len data s = _ from run_ill h s
theorem IllFormedIdle.matrixResponse (r : By) (target beats upset : Nat) (host : List Byte) (refused : Bool) : IllFormedIdle.Statement (.matrixResponse r target beats upset host refused) := fun s h =>
  show execMatrixResponse r target beats upset host refused s = _ from run_ill h s
theorem IllFormedIdle.mtxCommit : IllFormedIdle.Statement .mtxCommit := fun s h =>
  show execMtxCommit s = _ from run_ill h s
theorem IllFormedIdle.culStart (c n : Nat) : IllFormedIdle.Statement (.culStart c n) := fun s h =>
  show execCulStart c n s = _ from run_ill h s
theorem IllFormedIdle.culChain (c n : Nat) : IllFormedIdle.Statement (.culChain c n) := fun s h =>
  show execCulChain c n s = _ from run_ill h s
theorem IllFormedIdle.culHalt (c n : Nat) : IllFormedIdle.Statement (.culHalt c n) := fun s h =>
  show execCulHalt c n s = _ from run_ill h s
theorem IllFormedIdle.culResume (c n : Nat) : IllFormedIdle.Statement (.culResume c n) := fun s h =>
  show execCulResume c n s = _ from run_ill h s
theorem IllFormedIdle.culDoorbell (r : By) (c : Nat) (v : Word) : IllFormedIdle.Statement (.culDoorbell r c v) := fun s h =>
  show execCulDoorbell r c v s = _ from run_ill h s
theorem IllFormedIdle.culDisable (r : By) (c : Nat) (v : Word) : IllFormedIdle.Statement (.culDisable r c v) := fun s h =>
  show execCulDisable r c v s = _ from run_ill h s
theorem IllFormedIdle.descriptorFetch (c n : Nat) : IllFormedIdle.Statement (.descriptorFetch c n) := fun s h =>
  show execDescriptorFetch c n s = _ from run_ill h s
theorem IllFormedIdle.descriptorStart (c upset : Nat) : IllFormedIdle.Statement (.descriptorStart c upset) := fun s h =>
  show execDescriptorStart c upset s = _ from run_ill h s
theorem IllFormedIdle.portionStart (c : Nat) : IllFormedIdle.Statement (.portionStart c) := fun s h =>
  show execPortionStart c s = _ from run_ill h s
theorem IllFormedIdle.culvertRequestChange (c n : Nat) (active : Bool) : IllFormedIdle.Statement (.culvertRequestChange c n active) := fun s h =>
  show execCulvertRequestChange c n active s = _ from run_ill h s
theorem IllFormedIdle.descriptorComplete (c : Nat) : IllFormedIdle.Statement (.descriptorComplete c) := fun s h =>
  show execDescriptorComplete c s = _ from run_ill h s
theorem IllFormedIdle.eventDelivery (src e t : Nat) : IllFormedIdle.Statement (.eventDelivery src e t) := fun s h =>
  show execEventDelivery src e t s = _ from run_ill h s
theorem IllFormedIdle.evrRouteCommit : IllFormedIdle.Statement .evrRouteCommit := fun s h =>
  show execEvrRouteCommit s = _ from run_ill h s
theorem IllFormedIdle.evrDoorbellWrite (r : By) (n : Nat) (v : Word) : IllFormedIdle.Statement (.evrDoorbellWrite r n v) := fun s h =>
  show execEvrDoorbellWrite r n v s = _ from run_ill h s
theorem IllFormedIdle.tideSource : IllFormedIdle.Statement .tideSource := fun s h =>
  show execTideSource s = _ from run_ill h s
theorem IllFormedIdle.tideAdjust : IllFormedIdle.Statement .tideAdjust := fun s h =>
  show execTideAdjust s = _ from run_ill h s
theorem IllFormedIdle.tideStep : IllFormedIdle.Statement .tideStep := fun s h =>
  show execTideStep s = _ from run_ill h s
theorem IllFormedIdle.tideState : IllFormedIdle.Statement .tideState := fun s h =>
  show execTideState s = _ from run_ill h s
theorem IllFormedIdle.tideComparatorEnable : IllFormedIdle.Statement .tideComparatorEnable := fun s h =>
  show execTideComparatorEnable s = _ from run_ill h s
theorem IllFormedIdle.tideComparatorDisable : IllFormedIdle.Statement .tideComparatorDisable := fun s h =>
  show execTideComparatorDisable s = _ from run_ill h s
theorem IllFormedIdle.comparatorFire (c : Nat) : IllFormedIdle.Statement (.comparatorFire c) := fun s h =>
  show execComparatorFire c s = _ from run_ill h s
theorem IllFormedIdle.ppsEdge (frac : Nat) : IllFormedIdle.Statement (.ppsEdge frac) := fun s h =>
  show execPpsEdge frac s = _ from run_ill h s
theorem IllFormedIdle.holdoverTimeout : IllFormedIdle.Statement .holdoverTimeout := fun s h =>
  show execHoldoverTimeout s = _ from run_ill h s
theorem IllFormedIdle.tioConfigure (n : Nat) : IllFormedIdle.Statement (.tioConfigure n) := fun s h =>
  show execTioConfigure n s = _ from run_ill h s
theorem IllFormedIdle.tioJoin (n : Nat) : IllFormedIdle.Statement (.tioJoin n) := fun s h =>
  show execTioJoin n s = _ from run_ill h s
theorem IllFormedIdle.tioFlush (n : Nat) : IllFormedIdle.Statement (.tioFlush n) := fun s h =>
  show execTioFlush n s = _ from run_ill h s
theorem IllFormedIdle.tioPush (r : By) (n : Nat) (side level : Bool) (tag : Nat) : IllFormedIdle.Statement (.tioPush r n side level tag) := fun s h =>
  show execTioPush r n side level tag s = _ from run_ill h s
theorem IllFormedIdle.tioWithdraw (r : By) (n : Nat) (side : Bool) : IllFormedIdle.Statement (.tioWithdraw r n side) := fun s h =>
  show execTioWithdraw r n side s = _ from run_ill h s
theorem IllFormedIdle.edgeFire (n : Nat) : IllFormedIdle.Statement (.edgeFire n) := fun s h =>
  show execEdgeFire n s = _ from run_ill h s
theorem IllFormedIdle.safeDrive (n : Nat) : IllFormedIdle.Statement (.safeDrive n) := fun s h =>
  show execSafeDrive n s = _ from run_ill h s
theorem IllFormedIdle.captureEdge (n : Nat) (ball : Bool) (at' frac : Nat) : IllFormedIdle.Statement (.captureEdge n ball at' frac) := fun s h =>
  show execCaptureEdge n ball at' frac s = _ from run_ill h s
theorem IllFormedIdle.capPop (r : By) (n : Nat) : IllFormedIdle.Statement (.capPop r n) := fun s h =>
  show execCapPop r n s = _ from run_ill h s
theorem IllFormedIdle.encoderCount (n : Nat) (a b : Bool) : IllFormedIdle.Statement (.encoderCount n a b) := fun s h =>
  show execEncoderCount n a b s = _ from run_ill h s
theorem IllFormedIdle.encoderSample (n at' : Nat) : IllFormedIdle.Statement (.encoderSample n at') := fun s h =>
  show execEncoderSample n at' s = _ from run_ill h s
theorem IllFormedIdle.pwmPeriod (n at' : Nat) : IllFormedIdle.Statement (.pwmPeriod n at') := fun s h =>
  show execPwmPeriod n at' s = _ from run_ill h s
theorem IllFormedIdle.ssiFrame (n at' : Nat) (ready : Bool) (bits : Nat) : IllFormedIdle.Statement (.ssiFrame n at' ready bits) := fun s h =>
  show execSsiFrame n at' ready bits s = _ from run_ill h s
theorem IllFormedIdle.dlkStart (n : Nat) : IllFormedIdle.Statement (.dlkStart n) := fun s h =>
  show execDlkStart n s = _ from run_ill h s
theorem IllFormedIdle.dlkTables (n : Nat) : IllFormedIdle.Statement (.dlkTables n) := fun s h =>
  show execDlkTables n s = _ from run_ill h s
theorem IllFormedIdle.dlkStop (n : Nat) : IllFormedIdle.Statement (.dlkStop n) := fun s h =>
  show execDlkStop n s = _ from run_ill h s
theorem IllFormedIdle.dlkDisarm (n : Nat) : IllFormedIdle.Statement (.dlkDisarm n) := fun s h =>
  show execDlkDisarm n s = _ from run_ill h s
theorem IllFormedIdle.dlkJoin (n : Nat) : IllFormedIdle.Statement (.dlkJoin n) := fun s h =>
  show execDlkJoin n s = _ from run_ill h s
theorem IllFormedIdle.dlkPush (r : By) (n : Nat) (side : Bool) (tag : Nat) : IllFormedIdle.Statement (.dlkPush r n side tag) := fun s h =>
  show execDlkPush r n side tag s = _ from run_ill h s
theorem IllFormedIdle.dlkWithdraw (r : By) (n : Nat) (side : Bool) : IllFormedIdle.Statement (.dlkWithdraw r n side) := fun s h =>
  show execDlkWithdraw r n side s = _ from run_ill h s
theorem IllFormedIdle.dlkExchange (n : Nat) : IllFormedIdle.Statement (.dlkExchange n) := fun s h =>
  show execDlkExchange n s = _ from run_ill h s
theorem IllFormedIdle.dlkFrameReceived (n at' : Nat) (bits : List Bool) (coded : Bool) : IllFormedIdle.Statement (.dlkFrameReceived n at' bits coded) := fun s h =>
  show execDlkFrameReceived n at' bits coded s = _ from run_ill h s
theorem IllFormedIdle.dlkRxTimeout (n : Nat) : IllFormedIdle.Statement (.dlkRxTimeout n) := fun s h =>
  show execDlkRxTimeout n s = _ from run_ill h s
theorem IllFormedIdle.weirPeriodBoundary (n : Nat) (temps : List Int) (pols : List (Nat × Nat × Nat)) : IllFormedIdle.Statement (.weirPeriodBoundary n temps pols) := fun s h =>
  show execWeirPeriodBoundary n temps pols s = _ from run_ill h s
theorem IllFormedIdle.weirGrantApply : IllFormedIdle.Statement .weirGrantApply := fun s h =>
  show execWeirGrantApply s = _ from run_ill h s
theorem IllFormedIdle.thermalTrip (also : Nat) : IllFormedIdle.Statement (.thermalTrip also) := fun s h =>
  show execThermalTrip also s = _ from run_ill h s
theorem IllFormedIdle.scaleUpdate : IllFormedIdle.Statement .scaleUpdate := fun s h =>
  show execScaleUpdate s = _ from run_ill h s
theorem IllFormedIdle.dispatchEntryWrite (r : By) (p j o : Nat) (v : Word) : IllFormedIdle.Statement (.dispatchEntryWrite r p j o v) := fun s h =>
  show execDispatchEntryWrite r p j o v s = _ from run_ill h s
theorem IllFormedIdle.jobRelease (p j : Nat) : IllFormedIdle.Statement (.jobRelease p j) := fun s h =>
  show execJobRelease p j s = _ from run_ill h s
theorem IllFormedIdle.jobAdmit (p : Nat) : IllFormedIdle.Statement (.jobAdmit p) := fun s h =>
  show execJobAdmit p s = _ from run_ill h s
theorem IllFormedIdle.jobStart (p j : Nat) : IllFormedIdle.Statement (.jobStart p j) := fun s h =>
  show execJobStart p j s = _ from run_ill h s
theorem IllFormedIdle.jobDeadline (p j : Nat) : IllFormedIdle.Statement (.jobDeadline p j) := fun s h =>
  show execJobDeadline p j s = _ from run_ill h s
theorem IllFormedIdle.regulatorSettled (p : Nat) : IllFormedIdle.Statement (.regulatorSettled p) := fun s h =>
  show execRegulatorSettled p s = _ from run_ill h s
theorem IllFormedIdle.weirCommit : IllFormedIdle.Statement .weirCommit := fun s h =>
  show execWeirCommit s = _ from run_ill h s
theorem IllFormedIdle.supplyWarning : IllFormedIdle.Statement .supplyWarning := fun s h =>
  show execSupplyWarning s = _ from run_ill h s
theorem IllFormedIdle.supplyWarningEnd (minMv lastLow : Nat) : IllFormedIdle.Statement (.supplyWarningEnd minMv lastLow) := fun s h =>
  show execSupplyWarningEnd minMv lastLow s = _ from run_ill h s
theorem IllFormedIdle.supplyReset (minMv also : Nat) : IllFormedIdle.Statement (.supplyReset minMv also) := fun s h =>
  show execSupplyReset minMv also s = _ from run_ill h s
theorem IllFormedIdle.powerFault (p detail : Nat) : IllFormedIdle.Statement (.powerFault p detail) := fun s h =>
  show execPowerFault p detail s = _ from run_ill h s
theorem IllFormedIdle.closureComplete (u : Nat) : IllFormedIdle.Statement (.closureComplete u) := fun s h =>
  show execClosureComplete u s = _ from run_ill h s
theorem IllFormedIdle.pldWdtWrite (r : By) (e t : Nat) (v : Word) : IllFormedIdle.Statement (.pldWdtWrite r e t v) := fun s h =>
  show execPldWdtWrite r e t v s = _ from run_ill h s
theorem IllFormedIdle.keeperMismatch (pc : Word) : IllFormedIdle.Statement (.keeperMismatch pc) := fun s h =>
  show execKeeperMismatch pc s = _ from run_ill h s
theorem IllFormedIdle.keeperResyncDone : IllFormedIdle.Statement .keeperResyncDone := fun s h =>
  show execKeeperResyncDone s = _ from run_ill h s
theorem IllFormedIdle.fltClose : IllFormedIdle.Statement .fltClose := fun s h =>
  show execFltClose s = _ from run_ill h s
theorem IllFormedIdle.fltReset : IllFormedIdle.Statement .fltReset := fun s h =>
  show execFltReset s = _ from run_ill h s
theorem IllFormedIdle.fltReadmit : IllFormedIdle.Statement .fltReadmit := fun s h =>
  show execFltReadmit s = _ from run_ill h s
theorem IllFormedIdle.fltJoin : IllFormedIdle.Statement .fltJoin := fun s h =>
  show execFltJoin s = _ from run_ill h s
theorem IllFormedIdle.fltDisarm : IllFormedIdle.Statement .fltDisarm := fun s h =>
  show execFltDisarm s = _ from run_ill h s
theorem IllFormedIdle.fltConfig : IllFormedIdle.Statement .fltConfig := fun s h =>
  show execFltConfig s = _ from run_ill h s
theorem IllFormedIdle.ethConfig (n : Nat) : IllFormedIdle.Statement (.ethConfig n) := fun s h =>
  show execEthConfig n s = _ from run_ill h s
theorem IllFormedIdle.ethDisarm (n : Nat) : IllFormedIdle.Statement (.ethDisarm n) := fun s h =>
  show execEthDisarm n s = _ from run_ill h s
theorem IllFormedIdle.ethLinkreset (n : Nat) : IllFormedIdle.Statement (.ethLinkreset n) := fun s h =>
  show execEthLinkreset n s = _ from run_ill h s
theorem IllFormedIdle.ethConfigSwap (n : Nat) : IllFormedIdle.Statement (.ethConfigSwap n) := fun s h =>
  show execEthConfigSwap n s = _ from run_ill h s
theorem IllFormedIdle.ethDbWrite (r : By) (n : Nat) (v : Word) : IllFormedIdle.Statement (.ethDbWrite r n v) := fun s h =>
  show execEthDbWrite r n v s = _ from run_ill h s
theorem IllFormedIdle.ethFrameReceived (n : Nat) (f : List Byte) (fcsOk : Bool) (at' : Nat) : IllFormedIdle.Statement (.ethFrameReceived n f fcsOk at') := fun s h =>
  show execEthFrameReceived n f fcsOk at' s = _ from run_ill h s
theorem IllFormedIdle.ethFrameSent (n q at' : Nat) (cyclic : Bool) : IllFormedIdle.Statement (.ethFrameSent n q at' cyclic) := fun s h =>
  show execEthFrameSent n q at' cyclic s = _ from run_ill h s
theorem IllFormedIdle.cyclicBuild (n j c : Nat) : IllFormedIdle.Statement (.cyclicBuild n j c) := fun s h =>
  show execCyclicBuild n j c s = _ from run_ill h s
theorem IllFormedIdle.cyclicEnqueue (n j : Nat) : IllFormedIdle.Statement (.cyclicEnqueue n j) := fun s h =>
  show execCyclicEnqueue n j s = _ from run_ill h s
theorem IllFormedIdle.ethLinkChange (n kind : Nat) : IllFormedIdle.Statement (.ethLinkChange n kind) := fun s h =>
  show execEthLinkChange n kind s = _ from run_ill h s
theorem IllFormedIdle.strCommit : IllFormedIdle.Statement .strCommit := fun s h =>
  show execStrCommit s = _ from run_ill h s
theorem IllFormedIdle.csiCommit (n : Nat) : IllFormedIdle.Statement (.csiCommit n) := fun s h =>
  show execCsiCommit n s = _ from run_ill h s
theorem IllFormedIdle.frameStart (n v num at' : Nat) (corrected : Bool) : IllFormedIdle.Statement (.frameStart n v num at' corrected) := fun s h =>
  show execFrameStart n v num at' corrected s = _ from run_ill h s
theorem IllFormedIdle.frameEnd (n v num at' : Nat) (corrected : Bool) : IllFormedIdle.Statement (.frameEnd n v num at' corrected) := fun s h =>
  show execFrameEnd n v num at' corrected s = _ from run_ill h s
theorem IllFormedIdle.csiLine (n v dt : Nat) (bs : List Byte) (crcOk corrected : Bool) : IllFormedIdle.Statement (.csiLine n v dt bs crcOk corrected) := fun s h =>
  show execCsiLine n v dt bs crcOk corrected s = _ from run_ill h s
theorem IllFormedIdle.pcieInbound (bar off len : Nat) (data : Option (List Byte)) (poisoned correctable : Bool) : IllFormedIdle.Statement (.pcieInbound bar off len data poisoned correctable) := fun s h =>
  show execPcieInbound bar off len data poisoned correctable s = _ from run_ill h s
theorem IllFormedIdle.outboundTimeout : IllFormedIdle.Statement .outboundTimeout := fun s h =>
  show execOutboundTimeout s = _ from run_ill h s
theorem IllFormedIdle.pcieEventForward (v : Nat) : IllFormedIdle.Statement (.pcieEventForward v) := fun s h =>
  show execPcieEventForward v s = _ from run_ill h s
theorem IllFormedIdle.pcieLinkChange (width speed : Nat) : IllFormedIdle.Statement (.pcieLinkChange width speed) := fun s h =>
  show execPcieLinkChange width speed s = _ from run_ill h s
theorem IllFormedIdle.desc (u : Nat) (ws : List Word) : IllFormedIdle.Statement (.desc u ws) := fun s h =>
  show execDesc u ws s = _ from run_ill h s
theorem IllFormedIdle.ready : IllFormedIdle.Statement .ready := fun s h =>
  show execReady s = _ from run_ill h s
theorem IllFormedIdle.res (u e t : Nat) (shadow : Bool) (ws : List Word) (late : Bool) : IllFormedIdle.Statement (.res u e t shadow ws late) := fun s h =>
  show execRes u e t shadow ws late s = _ from run_ill h s
theorem IllFormedIdle.cred (u n : Nat) : IllFormedIdle.Statement (.cred u n) := fun s h =>
  show execCred u n s = _ from run_ill h s
theorem IllFormedIdle.rdresp (tag : Nat) (bytes : List Byte) (err : Bool) : IllFormedIdle.Statement (.rdresp tag bytes err) := fun s h =>
  show execRdresp tag bytes err s = _ from run_ill h s
theorem IllFormedIdle.wrack (tag : Nat) (err : Bool) : IllFormedIdle.Statement (.wrack tag err) := fun s h =>
  show execWrack tag err s = _ from run_ill h s
theorem IllFormedIdle.annexRequestTimeout : IllFormedIdle.Statement .annexRequestTimeout := fun s h =>
  show execAnnexRequestTimeout s = _ from run_ill h s
theorem IllFormedIdle.anxCtrlWrite (r : By) (v : Word) : IllFormedIdle.Statement (.anxCtrlWrite r v) := fun s h =>
  show execAnxCtrlWrite r v s = _ from run_ill h s
theorem IllFormedIdle.vltWrite (m : Med) : IllFormedIdle.Statement (.vltWrite m) := fun s h =>
  show execVltWrite m s = _ from run_ill h s
theorem IllFormedIdle.vltRead (m : Med) : IllFormedIdle.Statement (.vltRead m) := fun s h =>
  show execVltRead m s = _ from run_ill h s
theorem IllFormedIdle.vltDelete (m : Med) : IllFormedIdle.Statement (.vltDelete m) := fun s h =>
  show execVltDelete m s = _ from run_ill h s
theorem IllFormedIdle.vltAppend (m : Med) : IllFormedIdle.Statement (.vltAppend m) := fun s h =>
  show execVltAppend m s = _ from run_ill h s
theorem IllFormedIdle.vltStat (m : Med) : IllFormedIdle.Statement (.vltStat m) := fun s h =>
  show execVltStat m s = _ from run_ill h s
theorem IllFormedIdle.vltLoad (m : Med) : IllFormedIdle.Statement (.vltLoad m) := fun s h =>
  show execVltLoad m s = _ from run_ill h s
theorem IllFormedIdle.vltTable (m : Med) : IllFormedIdle.Statement (.vltTable m) := fun s h =>
  show execVltTable m s = _ from run_ill h s
theorem IllFormedIdle.vltFormat (m : Med) : IllFormedIdle.Statement (.vltFormat m) := fun s h =>
  show execVltFormat m s = _ from run_ill h s
theorem IllFormedIdle.vltScrub (m : Med) : IllFormedIdle.Statement (.vltScrub m) := fun s h =>
  show execVltScrub m s = _ from run_ill h s
theorem IllFormedIdle.vltConfig (m : Med) : IllFormedIdle.Statement (.vltConfig m) := fun s h =>
  show execVltConfig m s = _ from run_ill h s
theorem IllFormedIdle.scrubPeriod (m : Med) : IllFormedIdle.Statement (.scrubPeriod m) := fun s h =>
  show execScrubPeriod m s = _ from run_ill h s
theorem IllFormedIdle.vaultBackgroundMove (m : Med) : IllFormedIdle.Statement (.vaultBackgroundMove m) := fun s h =>
  show execVaultBackgroundMove m s = _ from run_ill h s
theorem IllFormedIdle.powerOnReset (also : Nat) : IllFormedIdle.Statement (.powerOnReset also) := fun s h =>
  show execPowerOnReset also s = _ from runAny_ill h s
theorem IllFormedIdle.pinReset (also : Nat) : IllFormedIdle.Statement (.pinReset also) := fun s h =>
  show execPinReset also s = _ from runAny_ill h s
theorem IllFormedIdle.softwareReset (r : By) : IllFormedIdle.Statement (.softwareReset r) := fun s h =>
  show execSoftwareReset r s = _ from run_ill h s
theorem IllFormedIdle.debugReset (r : By) : IllFormedIdle.Statement (.debugReset r) := fun s h =>
  show execDebugReset r s = _ from run_ill h s
theorem IllFormedIdle.resetRelease (pins : Nat) (fs : List (Nat × Nat × List Nat × Nat)) (ce blocks good : List Nat) : IllFormedIdle.Statement (.resetRelease pins fs ce blocks good) := fun s h =>
  show execResetRelease pins fs ce blocks good s = _ from runAny_ill h s
theorem IllFormedIdle.bootFirmware (m1 m2 : Med) : IllFormedIdle.Statement (.bootFirmware m1 m2) := fun s h =>
  show execBootFirmware m1 m2 s = _ from run_ill h s
theorem IllFormedIdle.pcieBoot (m : Med) : IllFormedIdle.Statement (.pcieBoot m) := fun s h =>
  show execPcieBoot m s = _ from run_ill h s
theorem IllFormedIdle.sysStartCommit : IllFormedIdle.Statement .sysStartCommit := fun s h =>
  show execSysStartCommit s = _ from run_ill h s
theorem IllFormedIdle.engineStart : IllFormedIdle.Statement .engineStart := fun s h =>
  show execEngineStart s = _ from run_ill h s
theorem IllFormedIdle.bistEngine : IllFormedIdle.Statement .bistEngine := fun s h =>
  show execBistEngine s = _ from run_ill h s
theorem IllFormedIdle.bistPolder (fs : List (Nat × Nat × List Nat × Nat)) : IllFormedIdle.Statement (.bistPolder fs) := fun s h =>
  show execBistPolder fs s = _ from run_ill h s
theorem IllFormedIdle.bistSerdes : IllFormedIdle.Statement .bistSerdes := fun s h =>
  show execBistSerdes s = _ from run_ill h s
theorem IllFormedIdle.otpProgram : IllFormedIdle.Statement .otpProgram := fun s h =>
  show execOtpProgram s = _ from run_ill h s
theorem IllFormedIdle.dbgHalt : IllFormedIdle.Statement .dbgHalt := fun s h =>
  show execDbgHalt s = _ from run_ill h s
theorem IllFormedIdle.dbgResume : IllFormedIdle.Statement .dbgResume := fun s h =>
  show execDbgResume s = _ from run_ill h s
theorem IllFormedIdle.dbgStep : IllFormedIdle.Statement .dbgStep := fun s h =>
  show execDbgStep s = _ from run_ill h s
theorem IllFormedIdle.dbgTswWrite (r : By) (o : Nat) (v : Word) : IllFormedIdle.Statement (.dbgTswWrite r o v) := fun s h =>
  show execDbgTswWrite r o v s = _ from run_ill h s
theorem IllFormedIdle.dbgUnlock (r : By) (v : Word) : IllFormedIdle.Statement (.dbgUnlock r v) := fun s h =>
  show execDbgUnlock r v s = _ from run_ill h s
theorem IllFormedIdle.dbgTrcctrlWrite (r : By) (p : Nat) (v : Word) : IllFormedIdle.Statement (.dbgTrcctrlWrite r p v) := fun s h =>
  show execDbgTrcctrlWrite r p v s = _ from run_ill h s
theorem IllFormedIdle.dapRead (a : Nat) : IllFormedIdle.Statement (.dapRead a) := fun s h =>
  show execDapRead a s = _ from run_ill h s
theorem IllFormedIdle.dapWrite (a : Nat) (v : Word) : IllFormedIdle.Statement (.dapWrite a v) := fun s h =>
  show execDapWrite a v s = _ from run_ill h s
theorem IllFormedIdle.extest (bits : List Bool) : IllFormedIdle.Statement (.extest bits) := fun s h =>
  show execExtest bits s = _ from runAny_ill h s
theorem IllFormedIdle.idcode : IllFormedIdle.Statement .idcode := fun s h =>
  show execIdcode s = _ from runAny_ill h s
theorem IllFormedIdle.samplePreload (bits : List Bool) : IllFormedIdle.Statement (.samplePreload bits) := fun s h =>
  show execSamplePreload bits s = _ from runAny_ill h s
theorem IllFormedIdle.clamp : IllFormedIdle.Statement .clamp := fun s h =>
  show execClamp s = _ from runAny_ill h s
theorem IllFormedIdle.highz : IllFormedIdle.Statement .highz := fun s h =>
  show execHighz s = _ from runAny_ill h s
theorem IllFormedIdle.dapacc : IllFormedIdle.Statement .dapacc := fun s h =>
  show execDapacc s = _ from runAny_ill h s
theorem IllFormedIdle.bypass : IllFormedIdle.Statement .bypass := fun s h =>
  show execBypass s = _ from runAny_ill h s
theorem IllFormedIdle.stkIllegalInstruction (e t : Nat) : IllFormedIdle.Statement (.stkIllegalInstruction e t) := fun s h =>
  show execStkIllegalInstruction e t s = _ from run_ill h s
theorem IllFormedIdle.annexPacketError (code : Nat) : IllFormedIdle.Statement (.annexPacketError code) := fun s h =>
  show execAnnexPacketError code s = _ from run_ill h s
theorem IllFormedIdle.csiPacketDrop (n v : Nat) (header : Bool) : IllFormedIdle.Statement (.csiPacketDrop n v header) := fun s h =>
  show execCsiPacketDrop n v header s = _ from run_ill h s
theorem IllFormedIdle.csiPhyError (n mask : Nat) : IllFormedIdle.Statement (.csiPhyError n mask) := fun s h =>
  show execCsiPhyError n mask s = _ from run_ill h s
theorem IllFormedIdle.gateControlListInterval (n : Nat) : IllFormedIdle.Statement (.gateControlListInterval n) := fun s h =>
  show execGateControlListInterval n s = _ from run_ill h s
theorem IllFormedIdle.tapReset : IllFormedIdle.Statement .tapReset := fun s h =>
  show execTapReset s = _ from runAny_ill h s

end Sys2Proof.Laws
end

