-- ==== Sys2Proof/Tests/Slice0.lean ====
section
/-! SUPPORT. Tests: a smoke test of the well-formedness checks, and for every statement with hypotheses a state and
operands that meet them. -/

namespace Sys2Proof.Tests

open Machine

/-- A started device: threads READY in move mode, and those of engines 3 and 192 that issued last. -/
def running : State :=
  { State.reset with
    sys := { phase := 15 }
    eng := [(3, { last := 2 }), (192, { last := 3 })]
    thr := [0, 1, 14, 764, 771].map fun k => (k, { resetThread k with run := .ready, stk := false }) }

/-- The started device with thread 0 of engine 0 in ring 3, which no window grants anything. -/
def ringThree : State :=
  running.withThread 0 0 { running.thread 0 0 with ring := 3 }

/-- The hypotheses of `AluAddAndSubtract` meet: thread 0 of engine 0 in a running device. -/
theorem witness_AluAddAndSubtract : running.issues 0 0 ∧ 1 < 2 ∧ 7 < 8 ∧ running.settled 0 0 (3, 7) := by decide

/-- The hypotheses of `AluLogicShiftsAndClamps` meet. -/
theorem witness_AluLogicShiftsAndClamps : running.issues 3 2 ∧ running.issues 191 0 ∧ 1 < 2 := by decide

/-- The hypotheses of `AluComparesWritePredicates` meet. -/
theorem witness_AluComparesWritePredicates : running.issues 192 3 ∧ 0 < 2 ∧ 0 < 8 := by decide

/-- The hypotheses of `AguStepsPointers` meet. -/
theorem witness_AguStepsPointers :
    running.issues 0 0 ∧ 15 < 16 ∧ 0 < 16 ∧ running.settled 0 0 (1, 15) ∧ running.settled 0 0 (1, 0) := by decide

/-- The hypotheses of `MultiplyAndDivide` meet, those of its divisions too. -/
theorem witness_MultiplyAndDivide :
    running.issues 3 2 ∧ 31 < 32 ∧ (∀ j < 4, ∀ f ∈ (running.thread 3 j).ops, f.unit ≠ 4) := by decide

/-- The hypotheses of `PacksAndUnpacks` meet. -/
theorem witness_PacksAndUnpacks :
    running.issues 0 0 ∧ 7 < 8 ∧ 0 < 8 ∧ 3 < 8 ∧ running.quadSettled 0 0 7 ∧ running.quadSettled 0 0 0 := by decide

/-- The hypotheses of `SimdTriggersCaptureOperands` meet. -/
theorem witness_SimdTriggersCaptureOperands :
    running.issues 0 0 ∧ 3 < 4 ∧ 7 < 8 ∧ 0 < 8 ∧ 3 < 8 ∧ running.quadSettled 0 0 7 ∧ running.quadSettled 0 0 0 := by
  decide

/-- The hypotheses of `DecimalOperations` meet, those on its digits too. -/
theorem witness_DecimalOperations :
    running.issues 0 0 ∧ 1 < 8 ∧ running.settled 0 0 (3, 1) ∧ isBcd 0x99999999 = true ∧ isBcd 0 = true := by decide

/-- The hypotheses of `LoadsStartOrFault` meet in each of its cases: a misaligned address, a refused ring, an
allowed load with nothing in the store buffer. -/
theorem witness_LoadsStartOrFault :
    running.issues 0 0 ∧ running.settled 0 0 (1, 15) ∧ (running.ea 0 0 15 1).toNat % 4 ≠ 0 ∧
    (running.ea 0 0 15 0).toNat % 4 = 0 ∧ running.allows 0 0 1 (running.ea 0 0 15 0) 4 = true ∧
    farAway 0 .ldw (running.ea 0 0 15 0) = false ∧ running.unmarked 0 0 5 ∧ farAway 0 .ldw (running.ea 0 0 15 0x10000000) = true ∧
    ringThree.issues 0 0 ∧ ringThree.settled 0 0 (1, 15) ∧ (ringThree.ea 0 0 15 0).toNat % 4 = 0 ∧
    ringThree.allows 0 0 1 (ringThree.ea 0 0 15 0) 4 = false := by decide

/-- The hypotheses of `StoresEnterTheBuffer` meet in each of its cases. -/
theorem witness_StoresEnterTheBuffer :
    running.issues 0 0 ∧ running.settled 0 0 (1, 15) ∧ running.settled 0 0 (0, 30) ∧ running.settled 0 0 (0, 31) ∧
    (running.thread 0 0).sbUsed < 8 ∧ (running.ea 0 0 15 1).toNat % 2 ≠ 0 ∧
    (running.ea 0 0 15 0).toNat % 8 = 0 ∧ running.allows 0 0 2 (running.ea 0 0 15 0) 8 = true ∧
    ringThree.issues 0 0 ∧ ringThree.settled 0 0 (1, 15) ∧ ringThree.settled 0 0 (0, 30) ∧
    ringThree.settled 0 0 (0, 31) ∧ (ringThree.thread 0 0).sbUsed < 8 ∧
    (ringThree.ea 0 0 15 0).toNat % 8 = 0 ∧ ringThree.allows 0 0 2 (ringThree.ea 0 0 15 0) 8 = false := by decide

/-- The hypotheses of `AtomicsStartOrFault` meet in each of its cases. -/
theorem witness_AtomicsStartOrFault :
    running.issues 0 0 ∧ running.settled 0 0 (1, 15) ∧ running.settled 0 0 (0, 31) ∧ (running.thread 0 0).sbUsed = 0 ∧
    (running.ea 0 0 15 2).toNat % 4 ≠ 0 ∧ (running.ea 0 0 15 0).toNat % 4 = 0 ∧
    (running.allows 0 0 1 (running.ea 0 0 15 0) 4 && running.allows 0 0 2 (running.ea 0 0 15 0) 4) = true ∧
    running.open.checked (tkey 0 0) = false ∧
    ringThree.issues 0 0 ∧ ringThree.settled 0 0 (1, 15) ∧ ringThree.settled 0 0 (0, 31) ∧
    (ringThree.thread 0 0).sbUsed = 0 ∧ (ringThree.ea 0 0 15 0).toNat % 4 = 0 ∧
    (ringThree.allows 0 0 1 (ringThree.ea 0 0 15 0) 4 && ringThree.allows 0 0 2 (ringThree.ea 0 0 15 0) 4) = false := by
  decide

/-- A thread with one operation in flight: an ADD with a result for ALU0 and a carry for P3. -/
def adding : State :=
  running.withThread 0 0 { running.thread 0 0 with ops := [{ running.opOf 0 0 0 [(48, 5)] with preds := [(3, true)] }] }

/-- The same with an operation whose table could not be read. -/
def failing : State :=
  running.withThread 0 0 { running.thread 0 0 with ops := [{ running.opOf 0 0 7 [] with err := some (.eccUncorrectable, 0x10000) }] }

/-- The hypotheses of `ResultsLand` meet in both cases. -/
theorem witness_ResultsLand :
    adding.sys.held = false ∧ thrOk 0 0 = true ∧ 0 < 14 ∧ adding.open.frozen 0 = false ∧
    (∃ o rest, takeFirst (fun f => decide (f.unit = 0) && adding.open.canEnd (tkey 0 0) f) (adding.thread 0 0).ops =
      some (o, rest) ∧ o.err = none ∧ o.recv = none ∧ o.simd = none ∧ o.tbl = none) ∧
    failing.sys.held = false ∧ 7 < 14 ∧ failing.open.frozen 0 = false ∧
    (∃ o rest, takeFirst (fun f => decide (f.unit = 7) && failing.open.canEnd (tkey 0 0) f) (failing.thread 0 0).ops =
      some (o, rest) ∧ o.err = some (.eccUncorrectable, 0x10000) ∧ o.tbl = none) :=
  ⟨by decide, by decide, by decide, by decide, ⟨_, _, rfl, rfl, rfl, rfl, rfl⟩, by decide, by decide, by decide,
    ⟨_, _, rfl, rfl, rfl⟩⟩

/-- A thread with a MAC8SS of accumulator X1 in flight that overflows lane 0, and one with an XLANE. -/
def accumulating : State :=
  running.withThread 0 0 { running.thread 0 0 with
    x := [(8, 0x7FFFFFFFFF)]
    ops := [{ running.opOf 0 0 5 [] with simd := some { op := .mac8ss, xa := 1, qd := 0, qa := 0x0101, qb := 0x0101, t := 0 } }] }

/-- The hypotheses of `SimdResultsInTriggerOrder` meet. -/
theorem witness_SimdResultsInTriggerOrder :
    accumulating.sys.held = false ∧ thrOk 0 0 = true ∧ accumulating.open.frozen 0 = false ∧
    (∃ o rest j, takeFirst (fun f => decide (f.unit = 5) && accumulating.open.canEnd (tkey 0 0) f)
      (accumulating.thread 0 0).ops = some (o, rest) ∧
      o.err = none ∧ o.recv = none ∧ o.simd = some j ∧ o.srcs = [] ∧ o.preds = [] ∧ o.ds = [] ∧ o.as = [] ∧
      o.dz = false ∧ j.op.isMac = true ∧ outside 40 (accumulating.macAt 0 0 j 0) = true) :=
  ⟨by decide, by decide, by decide, ⟨_, _, _, rfl, rfl, rfl, rfl, rfl, rfl, rfl, rfl, rfl, rfl, by decide⟩⟩

/-- A thread of the keepers that loads a word of its data memory, swaps one, reads an address that nothing
decodes, or waits for a store. -/
def loading (op : LsuOp) (ea : Word) (after : Option Nat) : State :=
  running.withThread 192 3 { running.thread 192 3 with
    sbuf := [{ id := 4, seq := 4, pc := 0, shadow := false, ring := 0, lsu := 0, ea := 0x10000, size := 4, data := 7 }]
    accs := [{ running.accOf 192 3 1 op ea with after := after, o := 5 }] }

/-- Thread 0 of engine 0 with a load of its own data memory behind one of the pool. -/
def loadingNear : State :=
  running.withThread 0 0 { running.thread 0 0 with
    accs := [running.accOf 0 0 0 .ldw 0x20000010, running.accOf 0 0 1 .ldw 0x10010] }

/-- The hypotheses of `LoadsAndAtomicsComplete` meet in each of its cases. -/
theorem witness_LoadsAndAtomicsComplete :
    ((loading .ldw 0x10010 none).sys.held = false ∧ thrOk 192 3 = true ∧ (loading .ldw 0x10010 none).open.frozen 192 = false ∧
      (∃ a, ((loading .ldw 0x10010 none).thread 192 3).accs[0]? = some a ∧ a.ea.toNat % a.op.size = 0 ∧
        ((loading .ldw 0x10010 none).thread 192 3).entryIn a = false ∧ a.op.isStore = false ∧ a.op.isAtomic = false ∧
        (loading .ldw 0x10010 none).reaches 192 a.ea 0x100010010 false)) ∧
    (∃ a, ((loading .aswap 0x10010 none).thread 192 3).accs[0]? = some a ∧ a.ea.toNat % a.op.size = 0 ∧
      ((loading .aswap 0x10010 none).thread 192 3).entryIn a = false ∧ a.op.isAtomic = true ∧
      a.fwd = none ∧ (loading .aswap 0x10010 none).reaches 192 a.ea 0x100010010 false ∧
      (loading .aswap 0x10010 none).reaches 192 a.ea 0x100010010 true) ∧
    (∃ a, ((loading .ldb 0x50000000 none).thread 192 3).accs[0]? = some a ∧ a.fwd = none ∧ engMap 192 a.ea.toNat = .none) ∧
    (∃ a, ((loading .ldd 0x10000 (some 4)).thread 192 3).accs[0]? = some a ∧
      ((loading .ldd 0x10000 (some 4)).thread 192 3).entryIn a = true) ∧ (loading .ldd 0x10000 (some 4)).unmarked 192 3 4 ∧
    (∃ a, loadingNear.sys.held = false ∧ (loadingNear.thread 0 0).accs[1]? = some a ∧
      (∀ b ∈ (loadingNear.thread 0 0).accs.take 1, accTarget 0 b.ea ≠ accTarget 0 a.ea) ∧
      (loadingNear.thread 0 0).entryIn a = false ∧ a.ea.toNat < 0x20000 ∧ loadingNear.open.checked 0 = false ∧
      a.fwd = none ∧ loadingNear.reaches 0 a.ea 0x20140010 false) :=
  ⟨⟨by decide, by decide, by decide, _, rfl, by decide⟩, ⟨_, rfl, by decide⟩, ⟨_, rfl, by decide⟩, ⟨_, rfl, by decide⟩,
    by decide, ⟨_, by decide, rfl, by decide⟩⟩

/-- A keeper thread whose store buffer holds one store, to its data memory or to an address that nothing decodes. -/
def storing (ea : Word) : State :=
  running.withThread 192 3 { running.thread 192 3 with
    sbuf := [{ id := 4, seq := 4, pc := 0, shadow := false, ring := 0, lsu := 0, ea := ea, size := 4, data := 7 }] }

/-- Thread 0 of engine 0 with a store to its own data memory behind one to the pool. -/
def storingTwo : State :=
  running.withThread 0 0 { running.thread 0 0 with
    sbuf := [{ id := 4, seq := 4, pc := 0, shadow := false, ring := 0, lsu := 0, ea := 0x20000010, size := 4, data := 7 },
      { id := 5, seq := 5, pc := 0, shadow := false, ring := 0, lsu := 0, ea := 0x10010, size := 4, data := 7 }] }

/-- The hypotheses of `StoresDrainToMemory` meet in each of its cases. -/
theorem witness_StoresDrainToMemory :
    (∃ b, ((storing 0x10010).thread 192 3).sbuf[0]? = some b ∧
      (∀ a ∈ ((storing 0x10010).thread 192 3).accs, accTarget 192 a.ea = accTarget 192 b.ea → ¬ a.seq < b.seq) ∧
      b.size ∈ [1, 2, 4, 8] ∧ b.ea.toNat % b.size = 0 ∧ (storing 0x10010).reaches 192 b.ea 0x100010010 true) ∧
    (∃ b, ((storing 0x50000000).thread 192 3).sbuf[0]? = some b ∧ engMap 192 b.ea.toNat = .none) ∧
    (∃ b, (storingTwo.thread 0 0).sbuf[1]? = some b ∧
      (∀ c ∈ (storingTwo.thread 0 0).sbuf.take 1, accTarget 0 c.ea ≠ accTarget 0 b.ea) ∧ b.ea.toNat < 0x20000 ∧
      storingTwo.reaches 0 b.ea 0x20140010 true) ∧
    ({ running with wb := [0x2000000], ecc := [(0x2000000, 1)] } : State).open.borrowOf 0x10000000 = none ∧
    ({ running with wb := [0x2000000], ecc := [(0x2000000, 1)] } : State).sys.held = false ∧
    physOk 0x10000000 = true ∧
    0x10000000 / 8 ∈ ({ running with wb := [0x2000000], ecc := [(0x2000000, 1)] } : State).wb :=
  ⟨⟨_, rfl, by decide⟩, ⟨_, rfl, by decide⟩, ⟨_, rfl, by decide⟩, by decide⟩

/-- The hypotheses of `BranchesOpenADelaySlot` meet, those of each case too. -/
theorem witness_BranchesOpenADelaySlot :
    running.plain 0 0 ∧ 65535 < 65536 ∧ (0x40 : Word).toNat % 4 = 0 ∧ (0x7FFC : Word).toNat < 0x8000 ∧
    running.lineClean 0 0x7FFC ∧ (0x7FFE : Word).toNat % 2 = 0 ∧ (0x8000 : Word).toNat ≥ 0x8000 ∧
    (branchTo (running.thread 0 0).pc 1).toNat < 0x8000 ∧ running.lineClean 0 (branchTo (running.thread 0 0).pc 1).toNat ∧
    0x8000 ≤ (branchTo (running.thread 0 0).pc 65535).toNat := by decide

/-- The hypotheses of `ControlRegistersByRing` meet. -/
theorem witness_ControlRegistersByRing : running.plain 0 0 ∧ 31 < 32 ∧ (running.thread 0 0).ring ≤ 1 := by decide

/-- The device with an engine in STRICT mode, and one with thread 0 of engine 0 in ring 3 under windows that let it
fetch. -/
def strictOne : State := { running with eng := [(0, { strict := true })] }
def userMode : State := { ringThree with eng := [(0, { ringLive := [(0x40, 7), (0x44, 0x20000)] })] }

/-- The hypotheses of `ThreadsStartAndStop` meet in each of its cases. -/
theorem witness_ThreadsStartAndStop :
    running.plain 0 0 ∧ (running.thread 0 0).ring ≤ 1 ∧ (2 : Word).toNat % 4 ≠ 0 ∧ running.noJob (tkey 0 2) ∧
    (running.open.en 0).strict = false ∧ running.noJob (tkey 0 0) ∧ (4 : Word).toNat % 4 = 0 ∧
    strictOne.plain 0 0 ∧ (strictOne.thread 0 0).ring ≤ 1 ∧ (strictOne.open.en 0).strict = true ∧
    userMode.plain 0 0 ∧ 2 ≤ (userMode.thread 0 0).ring := by decide

/-- Thread 0 of engine 0 behind a memory fence with a store outstanding, and behind an arithmetic fence. -/
def fencedStore : State :=
  running.withThread 0 0 { running.thread 0 0 with
    fence := some .mem
    sbuf := [{ id := 4, seq := 4, pc := 0, shadow := false, ring := 0, lsu := 0, ea := 0x10000, size := 4, data := 7 }] }
def fencedOp : State :=
  running.withThread 0 0 { running.thread 0 0 with fence := some .arith, ops := [running.opOf 0 0 3 []] }
def preciseOp : State :=
  running.withThread 0 0 { running.thread 0 0 with precise := true, ops := [{ running.opOf 0 0 4 [] with hold := true }] }

/-- The hypotheses of `FencesHoldTheThread` meet in each of its cases. -/
theorem witness_FencesHoldTheThread :
    running.plain 0 0 ∧
    (∀ s ∈ [fencedStore, fencedOp, preciseOp], s.sys.held = false ∧ s.open.mayIssue (tkey 0 0) = true ∧
      s.open.notTurn (tkey 0 0) = false ∧ (s.thread 0 0).excDue = false ∧ (s.thread 0 0).stk = false ∧ s.unwatched 0 0) ∧
    (fencedStore.thread 0 0).fence = some .mem ∧ (fencedStore.thread 0 0).sbuf ≠ [] ∧
    (fencedOp.thread 0 0).fence = some .arith ∧ (∃ f ∈ (fencedOp.thread 0 0).ops, f.unit ∈ [0, 1, 3, 4, 5, 6]) ∧
    (∃ f ∈ (preciseOp.thread 0 0).ops, f.hold = true) := by decide

/-- All of engine 0's instruction memory is sound in the running device. -/
theorem witness_FencesHoldTheThread_code : running.codeClean 0 := by decide +kernel

/-- Bytes of memory from words: `ws` at `pa`. -/
def words (pa : Nat) (ws : List Nat) : List Host.Cell :=
  (ws.zipIdx.flatMap fun c => (upTo 4).map fun i => (pa + 4 * c.2 + i, BitVec.ofNat 8 (c.1 / 256 ^ i))).filter fun c => c.2 != 0

/-- Engine 0 with one gate into ring 1 for ring 3 whose first argument must lie in a range, and its tables. -/
def gated : State :=
  { userMode with
    eng := [(0, { ringLive := [(0x40, 7), (0x44, 0x20000), (0x60, 0x10000), (0x64, 1), (0x68, 0x10100), (0x70, 0x10200)] })]
    mem := { cells := (words 0x20140000 [0x400, 0x80000105, 0, 8] ++ words 0x20140100 [0, 9] ++
      words 0x20140204 [0x10800] ++ words 0x20140900 [0x404, 0x7000, 0xC0000000, 0x47540300]) }
    thr := [(0, { userMode.thread 0 0 with gtbase := 0x10000, a := [(15, 0x10900)] })] }

/-- The hypotheses of `GatesEnterAndReturn` meet in each of its cases. -/
theorem witness_GatesEnterAndReturn :
    gated.plain 0 0 ∧ (gated.thread 0 0).ring < 4 ∧ (gated.thread 0 0).accs = [] ∧ (gated.thread 0 0).sbuf = [] ∧
    (∀ i < 4, gated.settled 0 0 (0, i)) ∧ gated.settled 0 0 (1, 15) ∧ (gated.thread 0 0).gtbase ≠ 0 ∧
    gated.spans 0 0x10000 16 0x20140000 false ∧ (gated.wordAt 0x20140004).getLsbD 31 = true ∧
    (gated.wordAt 0x2014000C).getLsbD 3 = true ∧
    gated.gateArgPasses 0 0 (gated.wordAt 0x20140004) (gated.wordAt 0x20140008) 0x20140100 0 = true ∧
    gated.spans 0 0x10100 8 0x20140100 false ∧ gated.spans 0 0x10204 4 0x20140204 false ∧
    (gated.wordAt 0x20140204 - 16).toNat % 8 = 0 ∧ gated.spans 0 0x107F0 16 0x201407F0 true ∧
    gated.areg 0 0 15 = 0x10900 ∧ gated.allows 0 0 1 0x10900 16 = true ∧ gated.spans 0 0x10900 16 0x20140900 false ∧
    gated.memNat 0x2014090E 2 = 0x4754 ∧ (gated.thread 0 0).ring ≤ (gated.wordAt 0x20140908).toNat / 2 ^ 30 := by
  repeat' apply And.intro
  all_goals decide

/-- Thread 0 of engine 0 in a handler, and in one that NEST entered. -/
def handling : State :=
  { running with thr := [(0, { running.thread 0 0 with shadow := true, spc := 0x400, sst := 0xC0100800, srpt := 2 })] }
def nested : State :=
  { running with
    thr := [(0, { running.thread 0 0 with nest := true, a := [(15, 0x10900)] })]
    mem := { cells := words 0x20140900 [0x404, 0xC0000000, 0] } }

/-- The hypotheses of `ExceptionReturns` meet in each of its cases. -/
theorem witness_ExceptionReturns :
    handling.plain 0 0 ∧ (handling.thread 0 0).ring < 4 ∧ handling.settled 0 0 (1, 15) ∧
    (handling.thread 0 0).accs = [] ∧ (handling.thread 0 0).sbuf = [] ∧ (handling.thread 0 0).shadow = true ∧
    (handling.thread 0 0).ring ≤ (handling.thread 0 0).sst.toNat / 2 ^ 30 ∧
    running.plain 0 0 ∧ (running.thread 0 0).shadow = false ∧ (running.thread 0 0).nest = false ∧
    nested.plain 0 0 ∧ nested.settled 0 0 (1, 15) ∧ (nested.thread 0 0).shadow = false ∧
    (nested.thread 0 0).nest = true ∧ nested.areg 0 0 15 = 0x10900 ∧ nested.allows 0 0 1 0x10900 32 = true ∧
    nested.spans 0 0x10900 12 0x20140900 false := by
  repeat' apply And.intro
  all_goals decide

/-- Engine 0 with a live curve of one segment, a live sequence of one entry, and an armed curve in beat group 0. -/
def tabled : State :=
  { running with
    eng := [(0, { slots := [(0, { live := some { kind := .curve, addr := 0x10000, len := 0x80, n1 := 1, span := 100 }
                                  armed := some { kind := .curve, addr := 0x10400, len := 0x80, n1 := 1, span := 100 } }),
                            (16, { live := some { kind := .seq, addr := 0x10200, len := 0x40, n1 := 1, n2 := 1 } })]
                  bgLast := [(0, 3)] })]
    mem := { cells := (words 0x20140040 [0, 7] ++ words 0x20140220 [0x80000000, 5]) } }

/-- The hypotheses of `CurvesSequencesAndBeats` meet in each of its cases: a live curve and sequence, empty slots, an
entry in and out of range. -/
theorem witness_CurvesSequencesAndBeats :
    tabled.issues 0 0 ∧ 0 < 192 ∧ ((tabled.open.en 0).slot 1).live = none ∧ ((tabled.open.en 0).slot 17).live = none ∧
    (∃ r, ((tabled.open.en 0).slot 0).live = some r ∧ 0 < r.n1 ∧
      (tabled.wordAt (physOf 0 r.addr.toNat + 0x40)).toNat ≤ 50 % r.span ∧ 50 % r.span < r.span ∧
      (∀ j < r.n1, 0 < j → 50 % r.span < (tabled.wordAt (physOf 0 r.addr.toNat + 0x40 + 32 * j)).toNat) ∧
      tabled.clean 0 (physOf 0 r.addr.toNat + 0x40) 32) ∧
    (∃ r, ((tabled.open.en 0).slot 16).live = some r ∧ 0 < r.n1 ∧ r.n1 ≤ 1 ∧ 0 < r.n2 ∧
      tabled.clean 0 (physOf 0 (r.addr.toNat + 0x20)) 8 ∧
      tabled.settled 0 0 (3, tabled.memNat (physOf 0 (r.addr.toNat + 0x20) + 1) 1 % 8)) :=
  ⟨by decide, by decide, by decide, by decide, ⟨_, rfl, by decide⟩, ⟨_, rfl, by decide⟩⟩

/-- Engine 0 with a message of two flits in receive channel 0, one send channel full, and its sluice waiting on it. -/
def channels : State :=
  { running with
    net := { rx := [(0, [⟨1, false⟩, ⟨2, true⟩, ⟨3, false⟩])], tx := [(1, List.replicate 32 ⟨0, false⟩)]
             sluice := [(0, [(1, ⟨7, false⟩)]), (1, List.replicate 8 (1, ⟨7, false⟩))] } }

/-- The hypotheses of `NetChannelsMoveFlits` meet in each of its cases. -/
theorem witness_NetChannelsMoveFlits :
    channels.issues 0 0 ∧ running.issues 0 0 ∧ running.quadSettled 0 0 7 ∧ tget [] running.net.sluice 0 = [] ∧
    running.open.chanDiked (engChan 0 3).1 (engChan 0 3).2 = false ∧ (running.txOf 0 3).length < 32 ∧
    firstMsg (running.txOf 0 3 ++ [⟨running.quadOf 0 0 7, false⟩]) = none ∧
    { channels with net := { channels.net with sluice := [] } }.issues 0 0 ∧ 32 ≤ (channels.txOf 0 1).length ∧
    tget [] channels.net.sluice 0 = (1, ⟨7, false⟩) :: [] ∧ channels.quadSettled 0 0 7 ∧
    channels.issues 1 0 ∧ 8 ≤ (tget [] channels.net.sluice 1).length ∧ channels.unwatched 1 0 ∧
    channels.settled 0 0 (3, 7) ∧ (∀ j < 4, ∀ o ∈ (channels.thread 0 j).ops, o.recv.map (·.1) ≠ some 0) ∧
    channels.rxOf 0 0 = [⟨1, false⟩] ++ ⟨2, true⟩ :: [⟨3, false⟩] ∧ channels.rxOf 0 1 = [] := by decide

/-- Thread 0 of engine 0 with a record in its queue, and thread 1 WAITING for one until time 9. -/
def queued : State :=
  (running.withThread 0 0 { running.thread 0 0 with evq := [{ src := 5, seq := 1, payload := 2, time := 3 }] }).withThread 0 1
    { running.thread 0 1 with run := .waiting, wait := some { deadline := some 9, pd := 7, shadow := true } }

/-- The hypotheses of `EventQueuesServeTheirThreads` meet in each of its cases. -/
theorem witness_EventQueuesServeTheirThreads :
    queued.issues 0 0 ∧ queued.settled 0 0 (3, 7) ∧ (queued.thread 0 0).evq = { src := 5, seq := 1, payload := 2, time := 3 } :: [] ∧
    running.issues 0 0 ∧ running.settled 0 0 (3, 0) ∧ (running.thread 0 0).evq = [] ∧ running.settled 0 0 (0, 31) ∧
    queued.sys.held = false ∧ thrOk 0 1 = true ∧ (queued.thread 0 1).run = .waiting ∧ (queued.thread 0 1).evq = [] ∧
    (queued.thread 0 1).wait = some { deadline := some 9, pd := 7, shadow := true } := by decide

/-- The device with a job of each command of thread 0 of engine 0 in turn at the head of the queue of polder 0's HV: a
block at 0x10000 whose parameters name bytes of the same memory; and with external unit 0 of two words, one credit. -/
def jobOf (cmd : Nat) (block : Word) : State :=
  { running with
    hv := [(0, [{ key := 0, shadow := false, ring := 0, cmd := cmd, block := block }])]
    mem := { cells := words 0x20140000 [0x10100, 3, 0x10200, 0x10300, 0x10400] }
    annex := { st := 2, desc := [(0, [0x81000100, 0, 0, 0]), (1, [0x80000100, 0, 0, 0])], cred := [(0, 1), (1, 1)] } }

/-- The hypotheses of `HashVerifyAndExternalUnits` meet in each of its cases. -/
theorem witness_HashVerifyAndExternalUnits :
    running.issues 0 0 ∧ ((tget [] running.hv 0).any fun j => decide (j.key = tkey 0 0)) = false ∧ (running.open.en 0).strict = false ∧
    strictOne.issues 0 0 ∧ (strictOne.open.en 0).strict = true ∧ ((tget [] strictOne.hv 0).any fun j => decide (j.key = tkey 0 0)) = false ∧
    (jobOf 1 0x10000).issues 0 0 ∧ ((tget [] (jobOf 1 0x10000).hv 0).any fun j => decide (j.key = tkey 0 0)) = true ∧
    (jobOf 1 0x10000).unwatched 0 0 ∧ (jobOf 1 0x10002).sys.held = false ∧
    (∃ j, tget [] (jobOf 1 0x10002).hv 0 = j :: [] ∧ j.cmd = 1 ∧ j.block.toNat % 4 ≠ 0) ∧
    (∀ c ∈ [1, 2, 3], ∃ j, tget [] (jobOf c 0x10000).hv 0 = j :: [] ∧ j.cmd = c ∧ j.block.toNat % 4 = 0 ∧
      (jobOf c 0x10000).jobSees j 1 j.block.toNat 20 0x20140000) ∧
    (∀ c ∈ [1, 2, 3], ∃ j, tget [] (jobOf c 0x10000).hv 0 = j :: [] ∧
      (jobOf c 0x10000).jobSees j 1 0x10100 3 0x20140100 ∧
      (jobOf c 0x10000).jobSees j 2 0x10200 32 0x20140200 ∧ (jobOf c 0x10000).jobSees j 1 0x10200 32 0x20140200) ∧
    (∀ c ∈ [2, 3], ∃ j, tget [] (jobOf c 0x10000).hv 0 = j :: [] ∧
      (jobOf c 0x10000).jobSees j 1 0x10300 64 0x20140300 ∧
      (jobOf c 0x10000).jobSees j 1 0x10400 64 0x20140400) ∧
    running.open.uxHere 5 = false ∧ (jobOf 1 0x10000).open.uxHere 0 = true ∧ (jobOf 1 0x10000).open.uxHere 1 = true ∧
    ((jobOf 1 0x10000).thread 0 0).uxWords 0 = [] ∧ (jobOf 1 0x10000).annex.words 0 = 2 ∧
    (jobOf 1 0x10000).annex.words 1 = 1 ∧ (jobOf 1 0x10000).annex.held 1 = 1 ∧ (jobOf 1 0x10000).annex.held 0 = 1 :=
  ⟨by decide, by decide, by decide, by decide, by decide, by decide, by decide, by decide, by decide, by decide,
    ⟨_, rfl, by decide⟩,
    fun c h => ⟨_, rfl, by
      simp only [List.mem_cons, List.not_mem_nil, or_false] at h
      rcases h with rfl | rfl | rfl <;> decide⟩,
    fun c h => ⟨_, rfl, by
      simp only [List.mem_cons, List.not_mem_nil, or_false] at h
      rcases h with rfl | rfl | rfl <;> decide⟩,
    fun c h => ⟨_, rfl, by
      simp only [List.mem_cons, List.not_mem_nil, or_false] at h
      rcases h with rfl | rfl <;> decide⟩,
    by decide⟩

/-- Thread 0 of engine 0 in stack mode before the instruction `h`, with the given cache, a pointer to memory of its
engine, and 5, 6 and 7 stored there. -/
def stackedAt (h : Nat) (tos : List Word) : State :=
  { running.withThread 0 0 { running.thread 0 0 with stk := true, pc := 0x100, tos := tos, a := [(15, 0x10010)] } with
    mem := { cells := words 0x201C0100 [h + 2 ^ 16 * 0x1234, 0x5678] ++ words 0x20140010 [5, 6, 7] } }

/-- The hypotheses of `StackArithmeticAndShuffles` meet for operands in the cache and in memory, and for a full cache. -/
theorem witness_StackArithmeticAndShuffles :
    (stackedAt 0xFFF []).halfAt 0 0 0x100 = some 0xFFF ∧
    (∀ h ∈ [0x0FF, 0x1000, 0x3001, 0x300F, 0x3010, 0x4001, 0x4004], (stackedAt h []).stacked 0 0 h) ∧
    (stackedAt 0x1000 []).halfAt 0 0 0x102 = some 0x1234 ∧ (stackedAt 0x1000 []).halfAt 0 0 0x104 = some 0x5678 ∧
    (stackedAt 0x3001 [1, 2]).stackReady 0 0 2 [3] 0 ∧ (stackedAt 0x3001 []).stackReady 0 0 2 [3] 0x20140010 ∧
    (stackedAt 0x4005 []).stackReady 0 0 3 [1, 2, 3] 0x20140010 ∧
    (stackedAt 0x4001 (List.replicate 8 9)).stackReady 0 0 1 [9, 9] 0x2014000C :=
  ⟨by decide, by decide, by decide, by decide, by decide, by decide, by decide, by decide⟩

/-- The hypotheses of `StackMemoryAndRegisters` meet in each of its cases. -/
theorem witness_StackMemoryAndRegisters :
    (∀ h ∈ [0x2000, 0x24FF, 0x2800, 0x2AFF, 0x5000, 0x503F, 0x5100, 0x512F, 0x5171, 0x5200, 0x520C, 0x521F, 0x531F, 0x5300,
      0x5308, 0x530C], (stackedAt h [0x10010]).stacked 0 0 h) ∧
    ((stackedAt 0x2000 [0x10010]).entries 0 0 1 0).getD 0 0 = 0x10010 ∧
    (stackedAt 0x2000 [0x10010]).allows 0 0 1 0x10010 4 = true ∧
    (stackedAt 0x2000 [0x10010]).reaches 0 0x10010 0x20140010 false ∧
    (stackedAt 0x2A00 [0x10010, 8]).allows 0 0 2 0x10010 4 = true ∧
    ((stackedAt 0x2A00 [0x10011, 8]).entries 0 0 2 0).getD 0 0 = 0x10011 ∧
    (stackedAt 0x5000 []).open.srcHold (tkey 0 0) 127 = [] ∧ (stackedAt 0x5100 [1]).settled 0 0 (0, 31) ∧
    (stackedAt 0x5120 [1]).settled 0 0 (1, 15) ∧ (stackedAt 0x5300 [1]).stackReady 0 0 1 [] 0 ∧
    ((stackedAt 0x5300 [1]).thread 0 0).ring = 0 :=
  ⟨by decide, by decide, by decide, by decide, by decide, by decide, by decide, by decide, by decide, by decide, by decide⟩

/-- The hypotheses of `StackControlFlow` meet in each of its cases. -/
theorem witness_StackControlFlow :
    (∀ h ∈ [0x6000, 0x6001, 0x6006, 0x6100, 0x6101, 0x6102, 0x6103, 0x7000, 0x7001, 0x7002, 0x7003, 0x1001],
      (stackedAt h [0x10, 1, 1]).stacked 0 0 h) ∧
    (stackedAt 0x6001 [0x10, 1, 1]).stackReady 0 0 3 [] 0 ∧ ((stackedAt 0x6001 [0x10]).thread 0 0).br = none ∧
    (stackedAt 0x6001 [0x10, 1, 1]).lineClean 0 0x120 ∧ (stackedAt 0x7000 [0x10]).stackReady 0 0 1 [] 0 ∧
    (stackedAt 0x6103 []).noJob (tkey 0 0) ∧ stackListed 0x7003 = false ∧ stackListed 0x1001 = false ∧
    ((stackedAt 0x6000 [4]).withThread 0 0 { (stackedAt 0x6000 [4]).thread 0 0 with br := some { tgt := none, stk := true } }).stacked
      0 0 0x6000 :=
  ⟨by decide, by decide, by decide, by decide, by decide, by decide, by decide, by decide, by decide⟩

/-- Thread 0 of engine 0 in move mode before the given words; the state after it an operation that owes P1 and D5. -/
def bundle (ws : List Nat) : State :=
  { running.withThread 0 0 { running.thread 0 0 with pc := 0x100, nb := { dst := [(0, 0x10), (1, 6)] } } with
    mem := { cells := words 0x201C0100 ws } }
def owing (ws : List Nat) : State :=
  (bundle ws).withThread 0 0 ({ (bundle ws).thread 0 0 with rpt := 2 }.launch
    { (bundle ws).opOf 0 0 3 [] with ds := [(5, 1)], preds := [(1, true)] })

/-- A thread that holds no bundle yet stands before those that its line holds. -/
theorem bundled_of {s : State} {ws : List Word} (hc : s.codeClean 0)
    (h : s.issues 0 0 ∧ (s.thread 0 0).stk = false ∧ ((s.thread 0 0).excs.any (·.waits)) = false ∧
      (s.thread 0 0).pc.toNat < 0x8000 ∧ (s.thread 0 0).pc.toNat % 4 = 0 ∧ s.allows 0 0 4 (s.thread 0 0).pc 1 = true ∧
      (s.open.en 0).strict = false ∧ (s.thread 0 0).latch = none ∧ (s.thread 0 0).front = [] ∧
      (((s.lineFor 0 0).words.drop ((s.thread 0 0).pc.toNat % 64 / 4)).take ws.length) = ws.map some) :
    s.bundled 0 0 ws := by
  obtain ⟨h1, h2, h3, h4, h5, h6, h7, h8, h9, h10⟩ := h
  refine ⟨h1, h2, h3, h4, h5, h6, .inl h7, .inr ⟨h8, hc, ?_⟩⟩
  rw [h9]
  exact h10

theorem code_bundle (ws : List Nat) : (bundle ws).codeClean 0 := witness_FencesHoldTheThread_code
theorem code_owing (ws : List Nat) : (owing ws).codeClean 0 := witness_FencesHoldTheThread_code

/-- A thread whose front end holds a REP prefix and the bundle behind it. -/
def heldFront : State :=
  (bundle [0]).withThread 0 0 { (bundle [0]).thread 0 0 with
    front := [{ addr := 0x100, words := [0x80000006], next := 0x104 }, { addr := 0x104, words := [6], next := 0x108 }] }

/-- The hypotheses of `BundlesIssueOrWait` meet in each of its cases. -/
theorem witness_BundlesIssueOrWait :
    (∀ w ∈ [2 * shortMoveBits false 0 63 51 + 2 ^ 16 * shortMoveBits true 3 0 47,
        2 * shortMoveBits false 0 5 2 + 2 ^ 16 * shortMoveBits false 0 60 0, 2 ^ 31 + 2 + 4 * 4095, 2 ^ 31, 2 ^ 31 + 2 ^ 14],
      (bundle [w, 0]).bundled 0 0 [w32 w]) ∧
    (∀ c < 64, (bundle [0]).open.srcHold (tkey 0 0) (shortSrc c) = []) ∧ (bundle [0]).settled 0 0 (3, 1) ∧
    (bundle [0]).settled 0 0 (1, 15) ∧ ((bundle [0]).thread 0 0).dstSock false 0 = 0x10 ∧
    (owing [2 ^ 22 * 5 + 2 ^ 16]).bundled 0 0 [w32 (2 ^ 22 * 5 + 2 ^ 16)] ∧
    ¬ (owing [0]).open.srcHold (tkey 0 0) (shortSrc 5) = [] ∧ ((owing [0]).open.en 0).strict = false ∧
    (bundle [2 ^ 4 * (2 ^ 6 + 2) + 1 + 2 ^ 22 * (2 ^ 7 + 1) % 2 ^ 32, 0x01000004, 0x00100000, 0x00004000]).bundled 0 0
      [w32 (2 ^ 4 * (2 ^ 6 + 2) + 1 + 2 ^ 22 * (2 ^ 7 + 1) % 2 ^ 32), 0x01000004, 0x00100000, 0x00004000] ∧
    ((bundle [2 ^ 31, 6]).lineFor 0 0).words.getD (0x100 % 64 / 4 + 1) none = some 6 ∧
    ((bundle [2 ^ 31, 6]).thread 0 0).front = [] ∧ heldFront.bundled 0 0 [0x80000006] ∧
    (∃ f g l, (heldFront.thread 0 0).front = f :: g :: l ∧ f.addr = (heldFront.thread 0 0).pc ∧ g.words = [6]) ∧
    ¬ (owing [0]).settled 0 0 (3, 1) ∧ (owing [0]).issues 0 0 ∧ (owing [0]).open.exposedAt (tkey 0 0) = false ∧
    (owing [0]).unwatched 0 0 :=
  ⟨fun w h => bundled_of (code_bundle _) (by
      simp only [List.mem_cons, List.not_mem_nil, or_false] at h
      rcases h with rfl | rfl | rfl | rfl | rfl <;> decide), by decide, by decide, by decide, by decide,
    bundled_of (code_owing _) (by decide), by decide, by decide, bundled_of (code_bundle _) (by decide), by decide,
    by decide, ⟨by decide, by decide, by decide, by decide, by decide, by decide, by decide,
      .inr ⟨by decide, witness_FencesHoldTheThread_code, by decide⟩⟩, ⟨_, _, _, rfl, rfl, rfl⟩, by decide, by decide,
    by decide, by decide⟩

/-- Thread 0 of engine 0 with a fault pending, in the normal bank, under nesting, and in the shadow; its watchdog on. -/
def failed (nest shadow : Bool) : State :=
  { running.withThread 0 0 { running.thread 0 0 with
      nest := nest, shadow := shadow, a := [(15, 0x10100)], ie := true
      excs := [{ vec := 3, detail := 11, seq := 4, shadow := shadow }] } with
    regs := [(fltReg + 0x618, 0), (wdtReg 0, 0x80000005)] }

/-- Thread 0 of engine 0 with a watchdog that has expired once. -/
def expired : State := { running with regs := [(fltReg + 0x618, 0), (wdtReg 0, 0xC0000005)] }

/-- The same thread in stack mode with two entries in its cache, and with two bus errors of which the second was raised first. -/
def failedStack : State :=
  (failed false false).withThread 0 0 { (failed false false).thread 0 0 with stk := true, pc := 0x102, tos := [7, 8] }
def failedTwice : State :=
  running.withThread 0 0 { running.thread 0 0 with
    excs := [{ vec := 8, seq := 6, shadow := false }, { vec := 8, seq := 5, shadow := false }] }

/-- The hypotheses of `ExceptionsSaveAndEnter` meet in each of its cases. -/
theorem witness_ExceptionsSaveAndEnter :
    (∀ s ∈ [failed false false, failed true false, failed false true, failedStack, failedTwice],
      s.sys.held = false ∧ s.open.mayEnter (tkey 0 0) = true ∧ s.open.notTurn (tkey 0 0) = false ∧
      (s.thread 0 0).run ≠ .waiting ∧ (s.open.en 0).strict = false) ∧
    ((failed false false).thread 0 0).excs = { vec := 3, detail := 11, seq := 4, shadow := false } :: [] ∧
    ((failed false false).thread 0 0).under = [] ∧
    (failed true false).spans 0 (0x10100 - 32) 32 0x201400E0 true ∧
    ((failed true false).thread 0 0).slim.toNat + 32 ≤ (0x10100 : Word).toNat ∧
    (failed true false).open.grants 0 0 2 (0x10100 - 32) 32 = true ∧
    (failed false true).spans 0 0x1FF00 64 0x2014FF00 true ∧ (failed false true).open.fltPolicy 2 = 0 ∧
    failedStack.settled 0 0 (1, 15) ∧ (failedStack.thread 0 0).sbuf = [] ∧
    (∀ i < 2, (0x10100 - w32 (4 * (i + 1))).toNat % 4 = 0 ∧ failedStack.allows 0 0 2 (0x10100 - w32 (4 * (i + 1))) 4 = true ∧
      failedStack.reaches 0 (0x10100 - w32 (4 * (i + 1))) (0x201400F8 + 4 * (1 - i)) true) := by
  refine ⟨?_, ?_, ?_, ?_, ?_, ?_, ?_, ?_, ?_, ?_, ?_⟩ <;> decide +kernel

/-- The hypotheses of `EntriesAndExpiriesComplete` meet in each of its cases. -/
theorem witness_EntriesAndExpiriesComplete :
    (failedTwice.sys.held = false ∧ failedTwice.open.mayEnter (tkey 0 0) = true ∧ failedTwice.open.notTurn (tkey 0 0) = false ∧
      (failedTwice.open.en 0).strict = false ∧ (failedTwice.thread 0 0).excDue = true ∧ (failedTwice.thread 0 0).shadow = false ∧
      (failedTwice.thread 0 0).nest = false ∧ (failedTwice.thread 0 0).stk = false ∧ (failedTwice.thread 0 0).run ≠ .waiting) ∧
    ((failed false false).open.rg (wdtReg 0)).getLsbD 31 = true ∧ ((failed false false).open.rg (wdtReg 0)).getLsbD 30 = false ∧
    (expired.open.rg (wdtReg 0)).getLsbD 30 = true ∧ expired.open.fltPolicy 3 = 0 ∧ (expired.thread 0 0).run ≠ .stopped ∧
    (expired.thread 0 0).halted = false ∧ (running.open.rg (wdtReg 0)).getLsbD 31 = false := by decide +kernel

/-- The hypotheses of `RegistersStageAndCommit` meet in each of its cases. -/
theorem witness_RegistersStageAndCommit :
    running.sys.held = false ∧ blkOk .slot = true ∧ blkHas .slot 0x40040000 = true ∧
    (running.open.cm .slot).busy = false ∧ (1 : Word).getLsbD 0 = true ∧
    tblReg 191 + 0x40 ∈ [tblReg 191 + 0x40, sntReg 191 + 0x0C, 0x40030000, 0x40040020] ∧ (2 : Word).getLsbD 0 = false := by
  decide

/-- Engine 0 with a table commit under way: its command, and an address of 0x10000 with a sequence of one state and one
class, or a curve of one segment, stored there; slot 16 holds a live table, slot 17 a held one. -/
def installing (act kind sl : Nat) (table : List Nat) : State :=
  { running with
    com := [(tblReg 0 + 0x18, { busy := true, snap := [(tblReg 0, tblCmd act kind 2 sl false), (tblReg 0 + 4, 0x10000)] })]
    mem := { cells := words 0x20140000 table }
    eng := [(0, { slots := [(16, { live := some { kind := .seq, addr := 0, len := 0 }, bg := 1 }),
      (17, { live := some { kind := .seq, addr := 0, len := 0 }, bg := 2
             armed := some { kind := .seq, addr := 0, len := 0 }, held := true, rel := some 9 })] })] }
/-- A ring commit of no windows, and of one without addresses. -/
def windowing (v : Word) : State :=
  { running with com := [(rngReg 0 + 0x74, { busy := true, snap := [(rngReg 0 + 0x20, v)] })] }

/-- The hypotheses of `TablesAndWindowsCommit` meet in each of its cases. -/
theorem witness_TablesAndWindowsCommit :
    (installing 1 1 0 []).committing (.tbl 0) ∧
    (∀ a ∈ [1, 2, 3, 4], (installing a 1 0 []).snap (.tbl 0) (tblReg 0) = tblCmd a 1 2 0 false) ∧
    (((installing 1 1 1 []).open.en 0).slot 17).armed ≠ none ∧ (((installing 1 1 0 []).open.en 0).slot 16).bg ≠ 2 ∧
    tabPlace 0x10000 96 = true ∧ (((installing 1 1 2 []).open.en 0).slot 18).live = none ∧
    (installing 1 1 2 []).tableAt 0 0x10000 0x20140000 40 ∧
    (installing 1 1 2 [0x153, 0x10001, 40]).goodSeq 0x20140000 1 1 ∧
    (installing 1 0 2 []).tableAt 0 0x10000 0x20140000 96 ∧
    (installing 1 0 2 [0x143, 1, 96, 0, 1000]).goodCurve 0 0x20140000 1 1000 ∧
    (((installing 1 1 0 []).open.en 0).slot 17).rel = some 9 ∧
    (∀ c ∈ ((installing 1 1 0 []).open.en 0).slots, c.1 < 40 ∧ tfind ((installing 1 1 0 []).open.en 0).slots c.1 = some c.2) ∧
    (windowing 0).committing (.rng 0) ∧ (∀ r < 4, 0 < r → ∀ i < 4, (windowing 0).goodWindow 0 r i) ∧
    ¬ (windowing 7).goodWindow 0 2 0 ∧ (∀ j < 4, (windowing 7).goodWindow 0 1 j) := by
  refine ⟨?_, ?_, ?_, ?_, ?_, ?_, ?_, ?_, ?_, ?_, ?_, ?_, ?_, ?_, ?_, ?_⟩ <;> decide

/-- Domain 0 with a patrol commit under way, a run under way on a block, or a bank commit that
sends every bank to ON, one from RETAIN. -/
def patrolling (ctl : Word) (p : Patrol) : State :=
  { running with
    com := [(memReg 0 + 0x0C, { busy := true, snap := [(memReg 0, 0x400), (memReg 0 + 4, 2), (memReg 0 + 8, ctl)] })]
    patrol := [(0, p)] }
/-- A block copied as far as `n` bytes. -/
def copied (phase n : Nat) : Patrol :=
  { st := 1, phase := phase, left := 1, buf := List.replicate n 9, marks := List.replicate (n / 8) 0
    dirty := List.replicate n false }
/-- An engine in STRICT mode, whose memory a patrol passes over. -/
def skipping : State := { strictOne with patrol := [(0, { st := 1, left := 1, next := 0x140000 })] }
def banking : State :=
  { State.reset with
    sys := { phase := 15 }, bank := [(1, { st := 1, goal := 1 })]
    com := [(memReg 0 + 0xC0, { busy := true, snap := (List.range 16).map fun i =>
      (memReg 0 + 0x40 + 4 * i, if i < 2 then 0x0202020A else if i = 2 then 0x0202 else if i < 4 then 0
        else if i < 14 then 0x02020202 else 0) })] }

/-- The hypotheses of `PatrolsAndBanks` meet in each of its cases. -/
theorem witness_PatrolsAndBanks :
    (patrolling 0x01000312 {}).committing (.pat 0) ∧
    (patrolling 0x01000312 {}).snap (.pat 0) (memReg 0 + 8) = w32 (2 ^ 24 + 2 ^ 8 * 3 + 2 ^ 4 * 1 + 2 * b01 true + b01 false) ∧
    (patrolling 0x01000002 {}).snap (.pat 0) (memReg 0) = w32 0x400 ∧
    (∀ i < 2, ∀ b ∈ blockBanks 0 (0x400 + 1024 * i), ((patrolling 0x01000003 {}).open.bk 0 b).st = 2) ∧
    (∀ i < 2, (patrolling 0x01000003 {}).open.blockOwned 0 (0x400 + 1024 * i) = false) ∧
    ((patrolling 0x01000003 { st := 1, left := 1 }).open.pat 0).st ≠ 0 ∧
    (patrolling 0 (copied 0 0)).open.blockSkipped 0 0 = false ∧
    (patrolling 0 { st := 1, left := 1, next := 0x18000 }).open.blockSkipped 0 0x18000 = false ∧
    skipping.open.blockSkipped 0 0x140000 = true ∧
    (∀ i < 128, (patrolling 0 (copied 1 512)).open.eccRaw (domAddr 0 0 + 8 * i) = 0) ∧
    ((patrolling 0 (copied 3 1024)).open.pat 0).buf.length = 1024 ∧
    banking.committing (.memCfg 0) ∧ isBank 0 1 = true ∧
    (∀ b < 64, let byte := (banking.snap (.memCfg 0) (memReg 0 + 0x40 + 4 * (b / 4))).toNat / 2 ^ (8 * (b % 4)) % 256
      if isBank 0 b then byte < 16 ∧ byte % 4 ≠ 3 ∧ (b < 48 ∨ byte % 4 = 2) else byte = 0) ∧
    (∀ b < 64, isBank 0 b = true → (banking.open.bk 0 b).st ≤ 2 ∧ banking.open.bankPatrolled 0 b = false) ∧
    (banking.open.bk 0 1).st = 1 ∧
    ({ running with bank := [(0, { st := 5, zf := true })] }.open.bk 0 0).st = 5 := by
  refine ⟨?_, ?_, ?_, ?_, ?_, ?_, ?_, ?_, ?_, ?_, ?_, ?_, ?_, ?_, ?_, ?_⟩ <;> decide +kernel

/-- A SLOT commit under way of an action on a plan of one reservation and one binding, as memory at 0x10000000 holds it; the plan
live, a message for it waiting and one on the mesh. -/
def planning (cmd : Word) (armed : Bool) : State :=
  let s : State := { running with
    com := [(0x40040010, { busy := true, snap := [(0x40040000, cmd), (0x40040004, 0x10000000), (0x40040008, 5)] })]
    mem := { cells := words 0x10000000 [0x314E4C50, 0x00010001, 0xFF000001, 0x000000FF, 77, 0xFFFFFF03, 0xFFFFFFFF, 0xFFFFFFFF,
      0xFFFFFFFF, 0xFFFFFFFF, 0xFFFFFFFF, 84, 0, 0, 0, 0, 0x05040100, 0x02010040, 1, 0, 0x07020601] }
    net := { tx := [(4, [⟨1, true⟩]), (38, [⟨2, false⟩, ⟨3, true⟩])]
             fly := [⟨0, 0, 3, 3, [], true, false⟩, ⟨0, 4, 1, 5, [⟨9, false⟩], true, false⟩] } }
  { s with
    weir := { pols := [(0, { cur := 3, volt := 3 })] }
    net := { s.net with
      live := some (s.planAt 0x10000000 1 1), armed := if armed then some (s.planAt 0x10000000 1 1, 7) else none } }

set_option maxRecDepth 2000 in
/-- Its plan is good. -/
theorem planning_goodPlan : (planning 0x01000000 false).goodPlan 0x10000000 1 1 := by
  repeat' apply And.intro
  all_goals decide

set_option maxRecDepth 4000 in
/-- The hypotheses of `SlotPlansAndMessages` meet in each of its cases. -/
theorem witness_SlotPlansAndMessages :
    (planning 0x01000000 false).committing .slot ∧ (planning 0x01000000 false).snap .slot 0x40040004 = w32 0x10000000 ∧
    (planning 0x01000000 false).snap .slot 0x40040008 = w32 5 ∧ (planning 0x01000000 false).snap .slot 0x4004000C = 0 ∧
    overcommit [(planning 0x01000000 false).resvOf 0x10000000 0] = false ∧
    ((planning 0 false).resvOf 0x10000000 0).carryClash ((planning 0 false).resvOf 0x10000000 0) = false ∧
    (planning 0x03000000 true).net.armed ≠ none ∧ (planning 0x03000000 true).floorsMet ∧
    (planning 0 true).flt.join = none ∧ (planning 0 true).weir.dip = none ∧ ((planning 0 true).open.pol 0).ceil = none ∧
    ((planning 0 false).resvOf 0x10000000 0).len = 1 ∧ 5 % 2 ^ ((planning 0 false).resvOf 0x10000000 0).plog = 1 ∧
    ((planning 0 false).resvOf 0x10000000 0).phase = 0 ∧ (planning 0 false).open.chanDiked 0 4 = false ∧
    (planning 0 false).net.fly = [⟨0, 0, 3, 3, [], true, false⟩] ++ ⟨0, 4, 1, 5, [⟨9, false⟩], true, false⟩ :: [] ∧ chanOk 1 5 = true ∧
    (planning 0 false).open.bindOf 1 6 = some ⟨1, 6, 2, 7⟩ ∧
    tget [] (planning 0 false).net.tx 38 = [⟨2, false⟩] ++ ⟨3, true⟩ :: [] ∧ (planning 0 false).net.sluice = [] ∧
    1024 * 7 ≤ 1024 * 9 ∧ (planning 0 true).net.armed.any (fun c => decide (c.2 ≤ 9)) = true := by
  refine ⟨?_, ?_, ?_, ?_, ?_, ?_, ?_, ?_, ?_, ?_, ?_, ?_, ?_, ?_, ?_, ?_, ?_, ?_, ?_, ?_, ?_, ?_⟩ <;> decide

/-- Three best-effort messages and a reserved one on the mesh, the first waiting at a full channel; the others of its
channel, of the reserved class, and of another channel over the same last link. -/
def crossing : State :=
  { running with
    net := { rx := [(32 * 3 + 3, List.replicate 32 ⟨0, true⟩)]
             fly := [⟨0, 4, 3, 3, [⟨1, true⟩], false, true⟩, ⟨0, 4, 3, 3, [⟨2, true⟩], true, false⟩,
               ⟨1, 4, 3, 5, [⟨3, true⟩], false, false⟩] } }

/-- The clauses of `SlotPlansAndMessages` on arrivals meet: a reserved message overtakes a waiting one of its channel, and a
best-effort message is held back on the waiting one's last link, or is free where it takes another. -/
theorem witness_SlotPlansAndMessages_arrivals :
    (crossing.net.fly = [⟨0, 4, 3, 3, [⟨1, true⟩], false, true⟩] ++ ⟨0, 4, 3, 3, [⟨2, true⟩], true, false⟩ ::
      [⟨1, 4, 3, 5, [⟨3, true⟩], false, false⟩]) ∧ chanOk 0 4 = true ∧ chanOk 3 3 = true ∧
    ¬ (tget [] crossing.net.rx (32 * 3 + 3)).length + 1 ≤ 32 ∧
    (∃ l, (⟨0, 4, 3, 3, [⟨1, true⟩], false, true⟩ : Msg).links.getLast? = some l ∧
      l ∈ (⟨1, 4, 3, 5, [⟨3, true⟩], false, false⟩ : Msg).links) ∧
    (∃ l, (⟨0, 4, 3, 3, [⟨1, true⟩], false, true⟩ : Msg).links.getLast? = some l ∧
      l ∉ (⟨4, 4, 3, 5, [⟨3, true⟩], false, false⟩ : Msg).links) := by
  refine ⟨?_, ?_, ?_, ?_, ⟨_, rfl, ?_⟩, ⟨_, rfl, ?_⟩⟩ <;> decide

/-- A device whose annex is UP, with a read and a write of the reservoir and a read over PCIe by the debug port under way,
and an MTX commit of the reset values. -/
def bursting : State :=
  { running with
    annex := { st := 2, tag := 255 }, pcie := { width := 1, speed := 1 }
    com := [(0x400500D0, { busy := true })]
    mtx := [⟨.dap, 57, 0, 0x10000000, 6, none, 0, []⟩, ⟨.dap, 57, 0, 0x10040000, 2, some [1, 2], 0, []⟩, ⟨.dap, 57, 0, 0x80000000, 4, none, 0, []⟩] }

/-- The hypotheses of `MatrixRequestsAreAnsweredInOrder` meet in each of its cases. -/
theorem witness_MatrixRequestsAreAnsweredInOrder :
    byOk ⟨.dap, 0⟩ = true ∧ (reqOf ⟨.dap, 0⟩).who.legal = true ∧ bursting.open.diked (reqOf ⟨.dap, 0⟩).who 0 = false ∧
    Who.dap.map 0x10000000 = .mem 0x10000000 ∧ Who.dap.map 0x40000000 = .reg 0x40000000 ∧
    Who.dap.map 0xFFFFFFFC = .pcie 0xFFFFFFFC ∧ Who.dap.map 0x30000000 = .annex 0x30000000 ∧ bursting.annex.st = 2 ∧
    running.annex.st ≠ 2 ∧ Who.dap.map 0x11000000 = .none ∧ Who.dap.onMatrix = true ∧ mtxTarget 0x10000000 = 0 ∧
    bursting.cleanFor .dap 0x10000000 6 ∧ mtxTarget 0x10040000 = 1 ∧
    bursting.writableFor .dap 0x10040000 2 ∧
    mtxTarget 0x80000000 = 33 ∧ bursting.pcie.width ≠ 0 ∧ bursting.committing .mtx ∧
    (∀ i < 64, (bursting.snap .mtx (0x40050000 + 4 * (i / 8))).toNat / 2 ^ (4 * (i % 8)) % 16 = 0 ↔ 58 ≤ i) ∧
    (∀ t < 35, bursting.snap .mtx (0x40050040 + 4 * t) = 0) := by
  refine ⟨?_, ?_, ?_, ?_, ?_, ?_, ?_, ?_, ?_, ?_, ?_, ?_, ?_, ?_, ?_, ?_, ?_, ?_, ?_, ?_⟩ <;> decide

/-- Two masters before one bank, the later one's turn after the first has had a portion; then one of them in mid-portion. -/
def sharing (beats : Nat) : State :=
  { running with
    arb := [(0, (52, 1))]
    mtx := [⟨.keeper, 52, 0, 0x10000000, 600, none, beats, List.replicate (32 * beats) 0⟩, ⟨.dap, 57, 0, 0x10000800, 4, none, 0, []⟩] }

set_option maxRecDepth 2000 in
/-- The clauses of `MatrixRequestsAreAnsweredInOrder` on turns meet: the next master after the one whose weight is spent,
the master whose portion is passing, and the first of them where none has passed. -/
theorem witness_MatrixRequestsAreAnsweredInOrder_turns :
    tfind (sharing 0).arb 0 = some (52, 1) ∧ (sharing 0).open.mtxWeight 52 = 1 ∧
    (∀ y ∈ (sharing 0).mtx, mtxTarget y.addr = 0 ∧ y.master < 58) ∧ (57 + 57 - 52) % 58 ≤ (52 + 57 - 52) % 58 ∧
    ((sharing 0).mtx.find? fun y => decide (mtxTarget y.addr = 0) && decide (y.beats % 8 ≠ 0)) = none ∧
    (((sharing 3).mtx.find? fun y => decide (mtxTarget y.addr = 0) && decide (y.beats % 8 ≠ 0)).map (·.master)) = some 52 ∧
    tfind bursting.arb 0 = none ∧ (sharing 3).cleanFor .keeper (0x10000000 + 32 * 3) (32 * 5) := by
  refine ⟨?_, ?_, ?_, ?_, ?_, ?_, ?_, ?_⟩ <;> decide

/-- Culvert 24 with channel 3 as given, a channel commit of an action under way, and the descriptor of these words at
0x10000000. -/
def culverted (x : Chan) (act : Nat) (ws : List Nat) : State :=
  { running with
    cul := [(387, x)]
    com := [(culReg 24 3 + 0x48, { busy := true, snap := [(culReg 24 3 + 8, 0x02000000), (culReg 24 3 + 0x14, 0x00010004),
      (culReg 24 3 + 0x18, 1), (culReg 24 3 + 0x40, w32 (2 ^ 24 * act)), (culReg 24 3 + 0x44, 0x10000000)] })]
    mem := { cells := words 0x10000000 ws } }
/-- A channel whose descriptor copies eight bytes from 0x10000100 to 0x10000201, paced or not. -/
def copying (st : Nat) (paced : Bool) : Chan :=
  { st := st, req := paced, nxt := 0x10000040
    desc := [0x80000000, 1, if paced then 0x41000000 else 0x01000000, 0x10000100, 0x10000201, 0x00010004, 1, 2, 0, 0, 2, 0, 0] }

set_option maxRecDepth 2000 in
/-- The hypotheses of `CulvertChannelsRunDescriptors` meet in each of its cases. -/
theorem witness_CulvertChannelsRunDescriptors :
    (culverted {} 1 []).committing (.cul 24 3) ∧ (culverted {} 2 []).snap (.cul 24 3) (culReg 24 3 + 0x44) = w32 0x10000000 ∧
    (∀ a ∈ [1, 2, 3, 4], (culverted {} a []).snap (.cul 24 3) (culReg 24 3 + 0x40) = w32 (a * 2 ^ 24)) ∧
    Chan.good { desc := (List.range 16).map fun i => (culverted {} 1 []).snap (.cul 24 3) (culReg 24 3 + 4 * i) } 24 3 ∧
    (copying 1 false).good 24 3 ∧ (copying 1 false).good 24 13 ∧
    (culverted {} 2 [0x80000000, 1, 0, 0, 0, 0x10001, 1]).descAt 24 0x10000000 0x10000000 ∧
    Chan.good { desc := (culverted {} 2 [0x80000000, 1, 0, 0, 0, 0x10001, 1]).descWords 0x10000000 } 24 3 ∧
    byOk ⟨.engine 0, 1⟩ = true ∧ running.open.diked (reqOf ⟨.engine 0, 1⟩).who 0 = false ∧ (reqOf ⟨.engine 0, 1⟩).ring ≤ 1 ∧
    (copying 2 false).holds = true ∧ (copying 1 true).loops = (4, 1, 1) ∧
    (∀ i < 8, (culverted {} 0 []).open.accErr (.cul 24) (0x10000100 + i) false = none ∧ (culverted {} 0 []).sound (0x10000100 + i) ∧
      (culverted {} 0 []).open.accErr (.cul 24) (0x10000201 + i) true = none ∧ (culverted {} 0 []).sound (0x10000201 + i)) ∧
    ({ copying 6 false with direct := true } : Chan).st = 6 ∧ (∃ q ∈ (copying 1 true).accs 0x10 0x28 0 8, q.1 + q.2.2 = 1) ∧
    { copying 2 true with port := 4, moved := true }.fail = none ∧
    ({ copying 2 false with direct := true } : Chan).dnet = false ∧
    (culverted (copying 1 true) 0 []).open.culHolder 24 = none ∧ (culverted (copying 2 true) 0 []).open.culHolder 24 = some 3 ∧
    (∀ i < 4, ∀ v < 4, (running.open.cctx i v).paces 24 3 = false) := by
  refine ⟨?_, ?_, ?_, ?_, ?_, ?_, ?_, ?_, ?_, ?_, ?_, ?_, ?_, ?_, ?_, ?_, ?_, ?_, ?_, ?_, ?_⟩ <;> decide

/-- A device with a record of source 5 in the router for thread 1 of engine 0, which waits or not, after `n` records are in its
queue; and a route commit of source 6 under way. -/
def routing (n : Nat) (w : Option WaitSt) : State :=
  { running.withThread 0 1 { running.thread 0 1 with
      evq := List.replicate n { src := 9, seq := 0, payload := 0, time := 0 }, wait := w, run := if w = none then .ready else .waiting } with
    router := [⟨{ src := 4, seq := 0, payload := 0, time := 0 }, [(0, 0x80010000)]⟩,
      ⟨{ src := 5, seq := 3, payload := 7, time := 2 }, [(0, 0x80010000), (2, 0xC0020000)]⟩]
    com := [(0x4002000C, { busy := true, snap := [(0x40020000, 0x10000000), (0x40020004, 6), (0x40020008, 1)] })]
    mem := { cells := words 0x10000000 [0x80010000, 0xC00000FE] } }

/-- The hypotheses of `EventsAreNumberedAndRouted` meet in each of its cases. -/
theorem witness_EventsAreNumberedAndRouted :
    byOk ⟨.engine 0, 1⟩ = true ∧ running.open.diked (reqOf ⟨.engine 0, 1⟩).who 0 = false ∧ (reqOf ⟨.engine 0, 1⟩).ring ≤ 2 ∧
    thrOk 0 1 = true ∧
    (let aims := fun (c : Nat × Word) =>
       decide ((if c.2.toNat % 256 = 0xFE then 192 else c.2.toNat % 256) = 0) && decide (c.2.toNat / 2 ^ 16 % 4 = 1)
     [(0, (0x80010000 : Word)), (2, 0xC0020000)].find? aims = some (0, 0x80010000) ∧
     ∃ p q, (routing 0 none).router = [p] ++ q :: [] ∧ q.ev.src = 5 ∧ p.ev.src ≠ 5) ∧
    (routing 0 none).trace = [] ∧ (∀ q < 24, ((routing 0 none).open.rg (trcReg q)).getLsbD 31 = false) ∧
    ((routing 31 none).thread 0 1).evq.length < 32 ∧ (routing 31 none).open.thrDiked 1 = false ∧ ((routing 32 none).thread 0 1).wait = none ∧
    ((routing 0 (some { deadline := none, pd := 7, shadow := true })).thread 0 1).run = .waiting ∧
    ¬ ((routing 32 none).thread 0 1).evq.length < 32 ∧
    (routing 0 none).committing .evr ∧ (routing 0 none).snap .evr 0x40020000 = w32 0x10000000 ∧
    (routing 0 none).snap .evr 0x40020004 = w32 6 ∧ (routing 0 none).snap .evr 0x40020008 = w32 1 ∧
    (routing 0 none).cleanFor .weir 0x10000000 16 ∧
    (∀ j < 4, ((routing 0 none).wordAt (0x10000000 + 4 * j)).toNat / 2 ^ 18 % 2 ^ 12 = 0) ∧
    (routing 0 none).wordAt 0x10000004 = 0xC00000FE := by
  refine ⟨?_, ?_, ?_, ?_, ⟨?_, _, _, rfl, ?_, ?_⟩, ?_, ?_, ?_, ?_, ?_, ?_, ?_, ?_, ?_, ?_, ?_, ?_, ?_, ?_⟩ <;> decide

/-- A device with a tide commit under way, a comparator enabled, and a tide in a state from a source. -/
def tiding (cmd : Word) (st src : Nat) : State :=
  { running with
    tide := { st := st, src := src, count := 100, cmps := [(29, { n := 6619136, p := 67108864 })] }
    com := [(tideReg + 0x18, { busy := true, snap := [(tideReg + 8, cmd), (tideReg + 0x2D0, 5000)] })] }

/-- The hypotheses of `TheTideIsDisciplinedAndCompared` meet in each of its cases. -/
theorem witness_TheTideIsDisciplinedAndCompared :
    (tiding 0x0100001D 1 0).committing .tide ∧
    (∀ c ∈ [1, 2, 3, 4, 5], (tiding (w32 (2 ^ 24 * c)) 1 0).snap .tide (tideReg + 8) = w32 (2 ^ 24 * c)) ∧
    (tiding 0x0500011D 1 0).snap .tide (tideReg + 0x2D0) = 5000 ∧ (tiding 0x0500011D 1 0).snap .tide (tideReg + 0x2DC) = 0 ∧
    2 ^ 16 ≤ (({ tiding 0x0500001D 1 0 with
      com := [(tideReg + 0x18, { busy := true, snap := [(tideReg + 8, 0x0500001D), (tideReg + 0x2DC, 0x10000)] })] } : State).snap .tide
        (tideReg + 0x2DC)).toNat ∧
    tfind (tiding 0 1 0).tide.cmps 29 = some { n := 6619136, p := 67108864 } ∧ (tiding 0 1 0).open.now ≤ 6619136 / 2 ^ 16 ∧
    (tiding 0 2 1).sys.held = false ∧ (tiding 0 2 1).tide.st = 2 ∧ (tiding 0 2 1).tide.src ≠ 0 := by
  refine ⟨?_, ?_, ?_, ?_, ?_, ?_, ?_, ?_, ?_, ?_⟩ <;> decide

/-- T-pin 2 as given, with a pin commit under way that configures it; pin 3 in a pair with it or not. -/
def pinned (p : Pin) (cfg per : Word) : State :=
  { running with
    tio := [(2, p)]
    com := [(tioReg 2 + 0x0C, { busy := true, snap := [(tioReg 2, cfg), (tioReg 2 + 8, per)] }), (tioReg 3 + 0x0C, { busy := true })] }
/-- A pin in OUT for engine 0 alone or with engine 1, in DUAL. -/
def jet : Pin := { mode := 1, cfg := 1, p1 := 0x00FF0000, live := (true, false) }
def mirrored : Pin :=
  { mode := 1, cfg := 0x00040001, p1 := 0x00010000, live := (true, true), queue := [{ time := 9, level := true, tag := 7, b := true }]
    hist := [{ time := 5, level := true, tag := 8, b := true }] }

/-- The hypotheses of `TimedPinsFireAndCapture` meet in each of its cases. -/
theorem witness_TimedPinsFireAndCapture :
    (pinned jet 1 0x00FF0000).committing (.tio 2) ∧ (pinned jet 1 0x00FF0000).snap (.tio 2) (tioReg 2) = 1 ∧
    (pinned jet 1 0x00FF0000).snap (.tio 2) (tioReg 2 + 4) = 0 ∧ (pinned jet 1 0x00FF0000).snap (.tio 2) (tioReg 2 + 8) = 0x00FF0000 ∧
    goodParams 1 false 0 0x00FF0000 ∧ goodParams 6 false 100000 0x00103201 ∧
    (pinned { mode := 4 } 0 0).committing (.tio 3) ∧ (pinned { mode := 4 } 0 0).snap (.tio 3) (tioReg 3) = 0 ∧
    (pinned { jet with live := (false, false) } 0x00001001 0x00FF0000).snap (.tio 2) (tioReg 2) = 0x00001001 ∧
    (pinned jet 0x00000801 0x00FF0000).snap (.tio 2) (tioReg 2) = 0x00000801 ∧ jet.alive false = true ∧ mirrored.dual = true ∧
    (pinned jet 0 0).pushes ⟨.engine 0, 2⟩ 2 false ∧ (pinned mirrored 0 0).pushes ⟨.engine 1, 2⟩ 2 true ∧
    mirrored.queue = [] ++ { time := 9, level := true, tag := 7, b := true } :: [] ∧
    mirrored.hist = [] ++ { time := 5, level := true, tag := 8, b := true } :: [] ∧
    (pinned mirrored 0 0).open.now ≤ 9 ∧ ({ jet with hold := true, p0 := 9 } : Pin).queue = [] ∧
    2 ^ 24 ≤ ((pinned jet 1 0x01FF0000).snap (.tio 2) (tioReg 2 + 8)).toNat ∧
    (pinned { mirrored with live := (false, true) } 1 0x00FF0000).committing (.tio 2) ∧
    ({ mirrored with live := (false, true), cfg := 1, p1 := 0x00FF0000 } : Pin).has true = false ∧
    (∀ m ∈ [3, 4, 5, 6], ({ mode := m, p0 := 10 } : Pin).p0 ≠ 0 ∧ 20 % ({ mode := m, p0 := 10 } : Pin).p0.toNat = 0) := by
  refine ⟨?_, ?_, ?_, ?_, ?_, ?_, ?_, ?_, ?_, ?_, ?_, ?_, ?_, ?_, ?_, ?_, ?_, ?_, ?_, ?_, ?_, ?_⟩ <;> decide

/-- Link 9 as given, with a link commit under way. -/
def linked (l : Link) (cmd : Word) : State :=
  { running with
    dlk := [(9, l)]
    com := [(dlkReg 9 + 0x30, { busy := true, snap := [(dlkReg 9, 0xFF000000), (dlkReg 9 + 4, 50), (dlkReg 9 + 8, 62500), (dlkReg 9 + 0x2C, cmd)] })] }
/-- A running link of engine 0 on side A and engine 1 on side B, with the set of cycle 3 of side A. -/
def driving : Link :=
  { st := 1, cfg := 0x0100C000, bit := 50, period := 62500, lead := 200, live := (true, true), next := 3
    tx := some { cls := 0, outlen := 8, srclen := 1, els := [] }, rx := some { cls := 1, outlen := 8, srclen := 1, els := [] }
    window := some (100, 200), sets := [{ cycle := 3, b := false, words := [7] }, { cycle := 3, b := true, words := [8] }] }

/-- The hypotheses of `DriveLinksExchange` meet in each of its cases. -/
theorem witness_DriveLinksExchange :
    (linked {} 0x01000000).committing (.dlk 9) ∧ (linked {} 0x01000000).snap (.dlk 9) (dlkReg 9) = 0xFF000000 ∧
    (linked {} 0x01000000).snap (.dlk 9) (dlkReg 9 + 4) = 50 ∧ (linked {} 0x01000000).snap (.dlk 9) (dlkReg 9 + 8) = 62500 ∧
    (linked {} 0).keepsTable ((linked {} 0).snap (.dlk 9) (dlkReg 9 + 0x1C)) 0 none ∧
    (linked {} 0).keepsTable ((linked {} 0).snap (.dlk 9) (dlkReg 9 + 0x20)) 1 none ∧
    (∀ a ∈ [1, 2, 3, 4, 5], (linked driving (w32 (2 ^ 24 * a))).snap (.dlk 9) (dlkReg 9 + 0x2C) = w32 (2 ^ 24 * a)) ∧
    (linked driving 0).feeds ⟨.engine 0, 2⟩ 9 false ∧ (linked driving 0).feeds ⟨.engine 1, 2⟩ 9 true ∧
    driving.alive false = true ∧ (linked driving 0).open.now + 456 < (3 + 0) * driving.period + driving.phase ∧
    (linked driving 0).open.link 9 = driving ∧ driving.runs false = true ∧ driving.runs true = true ∧
    driving.setFor 3 false = some [7] ∧ driving.setFor 3 true = some [8] ∧ driving.setFor 4 false = none ∧
    badElem { cls := 1, outlen := 8, srclen := 1, els := [] } [true] = none ∧
    { driving with armed := some (none, none, 0) }.armed.isSome = true ∧ 150 < { driving with deEnd := 180 }.deEnd ∧
    { driving with tx := some { cls := 0, outlen := 8, srclen := 2, els := [] } }.short 3 = true ∧ driving.short 3 = false := by
  refine ⟨?_, ?_, ?_, ?_, ?_, ?_, ?_, ?_, ?_, ?_, ?_, ?_, ?_, ?_, ?_, ?_, ?_, ?_, ?_, ?_, ?_, ?_⟩ <;> decide

/-- The Weir with a commit of its reset settings under way, a period's measurements, or a regulator that slews. -/
def metering (x : Pol) : State :=
  { running with
    weir := { meas := some { time := 0, tmax := 400, sensor := 0, temps := List.replicate 32 400, pols := List.replicate 24 (0, 0, 0) }, pols := [(3, x)] }
    com := [(weirReg + 0x10, { busy := true }), (weirReg + 0x0C, { busy := true })] }

set_option maxRecDepth 2000 in
/-- The hypotheses of `TheWeirRunsInPeriods` meet in each of its cases. -/
theorem witness_TheWeirRunsInPeriods :
    running.sys.held = false ∧ running.open.now ≤ 32768 * 1 ∧ running.weir.next = none ∧ (List.replicate 32 (100 : Int)).length = 32 ∧
    (∀ i < 32, (List.replicate 32 (100 : Int)).getD i 0 ≤ (List.replicate 32 (100 : Int)).getD 0 0) ∧
    (metering {}).weir.meas.isSome = true ∧ (metering {}).throt < (metering {}).limit ∧
    (metering {}).bmin ≤ ((metering {}).weirWord 0).toNat % 2 ^ 16 ∧ (∀ p < 24, (metering {}).minOf p ≤ (metering {}).capOf p) ∧
    (∀ p < 24, max ((metering {}).floorSoon p) ((metering {}).opField p 1) ≤ (metering {}).opField p 2) ∧ (∀ p < 24, running.sleepsAt p = false) ∧
    ((metering { vgo := some 2 }).open.pol 3).vgo = some 2 ∧ (metering {}).committing .weir := by
  refine ⟨?_, ?_, ?_, ?_, ?_, ?_, ?_, ?_, ?_, ?_, ?_, ?_, ?_⟩ <;> decide

/-- Dispatch entry 7 of polder 3 as given, beside a polder as given. -/
def dispatching (x : Disp) (q : Pol) : State :=
  { running with
    sys := { phase := 15 }
    thr := [(96, { resetThread 96 with run := .stopped }), (97, { resetThread 97 with run := .stopped })]
    disp := [(775, x), (776, { x with ctrl := 0xA8030000 })]
    weir := { pols := [(3, q)] } }
/-- An enabled FIRM entry of threads 0 and 1 of the polder's first engine, released. -/
def inspecting : Disp := { ctrl := 0x98030000, st := 1, deadline := 100, energy := [9, 0, 0, 0, 0, 0], box := [{ src := 1, seq := 1, payload := 5, time := 3 }] }

set_option maxRecDepth 4000 in
/-- The hypotheses of `DispatchersReleaseAdmitAndStart` meet in each of its cases. -/
theorem witness_DispatchersReleaseAdmitAndStart :
    (reqOf ⟨.keeper, 0⟩).top = true ∧ running.open.diked (reqOf ⟨.keeper, 0⟩).who 0 = false ∧
    ((dispatching inspecting {}).entry 3 7).box = { src := 1, seq := 1, payload := 5, time := 3 } :: [] ∧
    inspecting.kind = 1 ∧ (dispatching inspecting {}).open.inService (inspecting.engine 3) = true ∧
    (∀ c ∈ (dispatching inspecting {}).disp, tfind (dispatching inspecting {}).disp c.1 = some c.2) ∧
    (dispatching inspecting {}).freeFor 3 inspecting 0 = true ∧ ((dispatching inspecting {}).entry 3 8).kind = 2 ∧
    ((dispatching inspecting {}).polWord 3 1).getLsbD 15 = false ∧ inspecting.charged 256 0 = 563 ∧ [5].Nodup ∧
    ((dispatching { inspecting with st := 2 } {}).open.th 96).run = .stopped := by
  refine ⟨?_, ?_, ?_, ?_, ?_, ?_, ?_, ?_, ?_, ?_, ?_, ?_⟩ <;> decide

/-- A device whose polder 3 runs at OP2 in a state, engine 24 in a state, with a fault commit under way. -/
def faulty (pst est act unit : Nat) (dip : Option Nat) : State :=
  { running with
    weir := { dip := dip, pols := [(3, { cur := 2 })] }
    flt := { units := [(24, { st := est }), (259, { st := pst })] }
    com := [(fltReg + 0x20, { busy := true, acc := 0, snap := [(fltReg, w32 (2 ^ 24 * act)), (fltReg + 4, w32 unit), (fltReg + 0x18, 0x2045)] })] }

set_option maxRecDepth 2000 in
/-- The hypotheses of `SupplyDipsAndFaultsAreHandled` meet in each of its cases. -/
theorem witness_SupplyDipsAndFaultsAreHandled :
    (faulty 0 0 1 3 none).sys.held = false ∧ (faulty 0 0 1 3 none).weir.dip = none ∧ (∀ p < 24, (faulty 0 0 1 3 none).floorNow p ≤ 1) ∧
    (faulty 0 0 1 3 (some 5)).weir.dip = some 5 ∧ (faulty 0 0 1 3 none).floorsMet ∧ (faulty 0 0 1 3 none).open.fltPolicy 6 = 2 ∧
    (faulty 0 0 1 3 none).open.fltPolicy 7 = 0 ∧ ((faulty 1 0 1 3 none).open.unit 259).st = 1 ∧ ((faulty 0 1 1 3 none).open.unit 24).st = 1 ∧
    (faulty 0 0 1 3 none).open.fltCtrl.getLsbD 0 = false ∧ (reqOf ⟨.keeper, 0⟩).top = true ∧
    (∀ t < 4, (running.thread 192 t).evq = []) ∧ (∀ t < 4, running.noJob (768 + t)) ∧
    ({ running with weir := { pols := [(3, { img := 2 })] } } : State).floorNow 3 = 2 := by
  refine ⟨?_, ?_, ?_, ?_, ?_, ?_, ?_, ?_, ?_, ?_, ?_, ?_, ?_, ?_⟩ <;> decide

/-- The device with a join commit of one entry: side B of pin 4, to engine 5. -/
def joining : State :=
  { running with
    tio := [(4, { mode := 1, cfg := 0x40001, p1 := 0x00060003, live := (true, false) })]
    dlk := [(4, { st := 1, cfg := 0x06038000, live := (true, false) })]
    flt := { join := some ([{ link := false, b := true, owner := 5, num := 4 }], 9) }
    mem := { cells := words 0x10000000 [0x20000504, 0] }
    com := [(fltReg + 0x20, { busy := true, snap := [(fltReg, w32 (4 * 2 ^ 24)), (fltReg + 8, 0x10000000), (fltReg + 0xC, 1), (fltReg + 0x10, 9)] })] }

set_option maxRecDepth 2000 in
/-- The hypotheses of `FaultCommitsBringUnitsBack` meet in each of its cases. -/
theorem witness_FaultCommitsBringUnitsBack :
    (faulty 0 0 1 24 none).committing .flt ∧ (faulty 0 0 1 24 none).flt.units.any (fun x => x.2.byCommit) = false ∧
    (faulty 0 0 1 24 none).snap .flt (fltReg + 4) = w32 24 ∧ (faulty 0 0 1 24 none).open.unitState 24 = 0 ∧
    (∀ a ∈ [1, 2, 3], (faulty 0 0 a 24 none).snap .flt fltReg = w32 (a * 2 ^ 24)) ∧
    (faulty 0 2 2 24 none).open.unitState 24 = 2 ∧ (faulty 2 0 2 259 none).open.unitState 259 = 2 ∧
    (faulty 0 3 3 24 none).open.unitState 24 = 3 ∧
    (∀ k ∈ [96, 97, 98, 99], (faulty 0 2 2 24 none).noJob k ∧ ((faulty 0 2 2 24 none).open.th k).evq = []) ∧
    joining.committing .flt ∧ joining.snap .flt (fltReg + 0xC) = w32 1 ∧ joining.snap .flt (fltReg + 0x10) = w32 9 ∧
    joining.snap .flt (fltReg + 0x14) = w32 (9 / 2 ^ 32) ∧ (joining.open.cm .flt).acc + 2048 ≤ 1024 * 9 ∧
    mtxMap (joining.snap .flt (fltReg + 8)).toNat = .mem 0x10000000 ∧ joining.cleanFor .weir 0x10000000 (8 * 1) ∧
    (∀ i < 1, joining.goodJoin 0x10000000 i) ∧ joining.net.armed = none ∧ joining.net.live = none := by
  refine ⟨?_, ?_, ?_, ?_, ?_, ?_, ?_, ?_, ?_, ?_, ?_, ?_, ?_, ?_, ?_, ?_, ?_, ?_, ?_⟩ <;> decide

/-- Port 3 as given, with a port commit and a stream commit under way, and host-visible descriptors. -/
def etherPort (x : EthPort) (act : Nat) (ws : List Nat) : State :=
  { running with
    eth := [(3, x)]
    com := [(ethReg 3 + 0x10, { busy := true, snap := [(ethReg 3, w32 (2 ^ 24 * act)), (ethReg 3 + 4, 0x10000000)] }), (0x40400108, { busy := true, snap := [(0x40400100, 0x10000000), (0x40400104, 1)] })]
    mem := { cells := words 0x10000000 ws } }
/-- A configuration block of MODE `m` whose rings lie in the reservoir, with no rules, entries, fields or gates; every
descriptor ring at 0x10000400. -/
def plainBlock (m : Nat) : List Byte :=
  leBytes 4 0x31485445 ++ leBytes 4 m ++ List.replicate 16 0 ++ leBytes 4 1000000 ++ List.replicate 36 0 ++
    ((List.range 12).map fun _ => leBytes 4 0x10000400 ++ leBytes 4 2 ++ List.replicate 8 0).flatten
def livePort : EthPort := { cfg := plainBlock 1, link := true, q := [(8, { desc := some ⟨0x10000400, 0, [0x80000000, 0x10000800, 2000], 0, 0, false⟩ })] }

set_option maxRecDepth 4000 in
/-- The hypotheses of `EthernetPortsCarryFrames` meet in each of its cases. -/
theorem witness_EthernetPortsCarryFrames :
    (etherPort {} 1 []).committing (.eth 3) ∧ (∀ a ∈ [1, 2, 3], (etherPort {} a []).snap (.eth 3) (ethReg 3) = w32 (2 ^ 24 * a)) ∧
    mtxMap 0x10000000 = .mem 0x10000000 ∧ (etherPort {} 1 []).cleanFor .eth 0x10000000 256 ∧
    ethHeadBad (plainBlock 1) = false ∧ (ethChecks (plainBlock 1)).toBool = true ∧ ethHeadBad (List.replicate 64 0) = true ∧
    (etherPort livePort 1 []).portOn 3 ∧ (etherPort livePort 1 []).open.streamOf [] = none ∧
    (etherPort livePort 1 []).ringSees livePort 8 1 0x10000420 ∧ livePort.gateOpen 2 = true ∧
    (etherPort {} 1 []).committing .str ∧ (etherPort {} 1 []).snap .str 0x40400104 = w32 1 ∧
    (etherPort {} 1 []).cleanFor .eth 0x10000000 16 ∧
    (∀ k < 60, (etherPort {} 1 []).open.accErr .eth (0x10000800 + k) true = none ∧ (etherPort {} 1 []).sound (0x10000800 + k)) := by
  refine ⟨?_, ?_, ?_, ?_, ?_, ?_, ?_, ?_, ?_, ?_, ?_, ?_, ?_, ?_, ?_⟩ <;> decide

/-- Camera 1 with three lanes' worth of LANES and context 2 capturing RAW10 lines of 64 bytes into the reservoir, pacing
channel 3 of culvert 6; a commit of it is under way. -/
def seeing (ctx : CsiCtx) : State :=
  { running with
    csi := [(1, { lanes := 3, ctx := [(2, ctx)] })]
    com := [(csiReg 1 + 4, { busy := true, snap := [(csiReg 1, 3)] })] }
def capturing : CsiCtx := { words := [0x10000000, 0x00100040, 0xA02B0603, 0x00010201], inFrame := true, lines := 5 }

set_option maxRecDepth 2000 in
/-- The hypotheses of `CamerasCaptureLinesAndPaceCulverts` meet in each of its cases. -/
theorem witness_CamerasCaptureLinesAndPaceCulverts :
    (seeing {}).committing (.csi 1) ∧ (seeing {}).sys.held = false ∧ ((seeing {}).open.cam 1).lanes ≠ 0 ∧ ((seeing {}).open.cam 0).lanes = 0 ∧
    (seeing {}).open.now ≤ 70 ∧ ({} : CsiCtx).inFrame = false ∧
    (seeing capturing).open.cctx 1 2 = capturing ∧ capturing.field 2 31 1 = 1 ∧ capturing.field 2 16 6 = 0x2B ∧
    mtxMap ((capturing.words.getD 0 0).toNat + capturing.lines % max (capturing.field 1 16 16) 1 * capturing.field 1 0 16) = .mem 0x10000140 ∧
    (∀ k < 64, (seeing capturing).open.accErr .csi (0x10000140 + k) true = none ∧ (seeing capturing).sound (0x10000140 + k)) := by
  refine ⟨?_, ?_, ?_, ?_, ?_, ?_, ?_, ?_, ?_, ?_, ?_⟩ <;> decide

/-- An annex in a state, an operation of unit 2 and a read request under way, and a PCIe link. -/
def annexed (st : Nat) : State :=
  { running with
    pcie := { width := 4, speed := 3, inbox := [(9, { src := 5, seq := 0, payload := 7, time := 8 })] }
    regs := tset running.regs (pcieReg + 0x48) 2
    annex := { st := st, desc := [(2, [0x80100101, 0, 0, 0])], ops := [{ unit := 2, key := 15, shadow := false, seq := 0 }], reqs := [(4, ⟨.vault, 40, 0, 0x30000000, 4, none, 0, []⟩)] }
    mtx := [⟨.vault, 40, 0, 0x80000000, 4, none, 0, []⟩] }

set_option maxRecDepth 2000 in
/-- The hypotheses of `HostAndAnnexExchange` meet in each of its cases. -/
theorem witness_HostAndAnnexExchange :
    (annexed 2).sys.held = false ∧ (annexed 2).pcie.width ≠ 0 ∧
    (∀ k < 8, (annexed 2).open.accErr .pcie (0x10000000 + 64 + k) true = none ∧ (annexed 2).sound (0x10000000 + 64 + k)) ∧
    blkOk (.tbl 0) = true ∧ blkHas (.tbl 0) (0x40000000 + 0x1008000) = true ∧ latches (0x40000000 + 0x1008000) = [] ∧ latched (0x40000000 + 0x1008000) = false ∧ clearsAt (0x40000000 + 0x50208) = true ∧
    (annexed 2).pcie.inbox = [] ++ (9, { src := 5, seq := 0, payload := 7, time := 8 }) :: [] ∧
    (0 - (annexed 2).open.rg (pcieReg + 0x50)).toNat < ((annexed 2).open.rg (pcieReg + 0x48)).toNat % 2 ^ 16 ∧
    mtxTarget 0x80000000 = 33 ∧ (annexed 1).annex.st = 1 ∧ (annexed 2).annex.st = 2 ∧ (reqOf ⟨.keeper, 0⟩).top = true ∧ (reqOf ⟨.pcie, 2⟩).top = false ∧
    thrOk 3 3 = true ∧ (annexed 2).annex.ops = [] ++ { unit := 2, key := 15, shadow := false, seq := 0 } :: [] ∧
    (annexed 2).annex.reqs = [] ++ (4, ⟨.vault, 40, 0, 0x30000000, 4, none, 0, []⟩) :: [] := by
  refine ⟨?_, ?_, ?_, ?_, ?_, ?_, ?_, ?_, ?_, ?_, ?_, ?_, ?_, ?_, ?_, ?_, ?_, ?_⟩ <;> decide

/-- A mounted vault with a commit of an action under way, a log 5 and a recipe 6. -/
def keeping (act : Nat) (recipe : List Byte) (otp : List Byte) : State :=
  { running with
    vault := { st := 1, ce := [1, 1], blocks := [100, 100], good := [90, 90], objs := [(5, { type := 3, cap := 8 }), (6, { type := 1, data := recipe })] }
    sys := { running.sys with otp := (List.range 16).map fun k => (k, w32 (leNat ((otp.drop (4 * k)).take 4))) }
    live := [(vltReg + 0x30, 0x10000000), (vltReg + 0x34, 0x1000)]
    com := [(blkCommit .vlt, { busy := true, snap := [(vltReg, w32 (2 ^ 24 * act + 2 ^ 20)), (vltReg + 4, if act = 6 then 6 else 5), (vltReg + 8, 0x10001000), (vltReg + 0xC, 4), (vltReg + 0x14, 200000), (vltReg + 0x1C, 0x10002000)] }) ] }
/-- A square root in the field of P-256. -/
def rootP (a : Nat) : Nat := powMod ecP a ((ecP + 1) / 4) 256
/-- A key under which the digest of a message, taken twice, is a signature of it: the point above the digest less the
base point. It serves where the digest is an x coordinate of the curve. -/
def keyFor (m : List Byte) : List Byte :=
  let z := beNat (sha256 m)
  let y := rootP ((z * z * z + (ecP - 3) * z + ecB) % ecP)
  match ecAdd (some (z, y)) (some (0x6b17d1f2e12c4247f8bce6e563a440f277037d812deb33a0f4a13945d898c296, ecP - 0x4fe342e2fe1a7f9b8ee7eb4a7c0f9e162bce33576b315ececbb6406837bf51f5)) with
  | some (x, y) => beBytes 32 x ++ beBytes 32 y
  | none => []
/-- A recipe of one DATA section of 64 bytes for the reservoir, unsigned and signed. -/
def recipeBody (nonce : Nat) : List Byte :=
  leBytes 4 0x31434552 ++ leBytes 4 0x10001 ++ leBytes 4 256 ++ leBytes 4 nonce ++ leBytes 4 64 ++ List.replicate 44 0 ++
  leBytes 4 5 ++ leBytes 4 0xFFFF ++ leBytes 4 128 ++ leBytes 4 64 ++ leBytes 4 0x10003000 ++ List.replicate 44 0 ++ List.replicate 64 7
def recipeOf (nonce : Nat) : List Byte := recipeBody nonce ++ sha256 (recipeBody nonce) ++ sha256 (recipeBody nonce)

set_option maxRecDepth 4000 in
/-- The hypotheses of `TheVaultActsOnItsObjects` meet in each of its cases. -/
theorem witness_TheVaultActsOnItsObjects :
    (∀ a ∈ [1, 2, 3, 4, 5, 6, 7, 8, 9], (keeping a [] []).vltActs a) ∧ (keeping 11 [] []).vltAsked 11 ∧
    (keeping 1 [] []).vltTests = [] ++ (keeping 1 [] []).vltTests ∧
    mtxMap ((keeping 2 [] []).vltWord 8) = .mem 0x10001000 ∧ (keeping 2 [] []).cleanFor .vault 0x10001000 4 ∧ (keeping 2 [] []).writableFor .vault 0x10001000 32 ∧
    tfind (keeping 4 [] []).vault.objs 5 = some { type := 3, cap := 8 } ∧
    (keeping 6 [] []).writableFor .vault 0x10002000 64 ∧ (keeping 6 [] []).floorsMet ∧ (keeping 6 [] []).ecc = [] := by
  refine ⟨?_, ?_, ?_, ?_, ?_, ?_, ?_, ?_, ?_, ?_⟩ <;> decide
/-- A CONFIG commit with every value in its range. -/
def configuring : State :=
  { running with com := [(blkCommit .vlt, { busy := true, snap := [(vltReg, 0x0A000000), (vltReg + 0x30, 0x10000000), (vltReg + 0x34, 64), (vltReg + 0x38, 0x10100000), (vltReg + 0x3C, 0x00010001), (vltReg + 0x40, 0x00010010), (vltReg + 0x44, 0x00010105), (vltReg + 0x48, 200)] })] }
theorem witness_TheVaultActsOnItsObjects_config : configuring.vltActs 10 := by decide
set_option maxRecDepth 4000 in
/-- A signed recipe of one DATA section meets the hypotheses of a LOAD that succeeds. -/
theorem witness_TheVaultActsOnItsObjects_load :
    (keeping 6 (recipeOf 1) []).dataRecipe (recipeOf 1) 1 (fun _ => 0x10003000) := by decide +kernel
theorem witness_TheVaultActsOnItsObjects_signed :
    (keeping 6 (recipeOf 1) (keyFor (recipeBody 1))).open.signed (recipeOf 1) = true := by decide +kernel

/-- A booting device of a phase, with its boot pins and an OTP key, and commits of SYS_START, BIST and the OTP store. -/
def booting (phase pins : Nat) (objs : Tbl VObj) (otp : List Byte) (bist : Nat) : State :=
  { running with
    vault := { st := 1, sys := true, ce := [1, 0], objs := objs }, evSeq := [(0x73F, 1)]
    thr := [(12, { run := .stopped })]
    eng := [(3, { loaded := true, entry := 0x300 })]
    weir := { trip := 31, dip := some 100 }
    com := [(blkCommit .start, { busy := true, snap := [(0x40000100, 8), (0x40000118, 90000)] }), (blkCommit .bist, { busy := true, snap := [(0x40000140, w32 bist)] }), (blkCommit .otp, { busy := true, snap := [(0x404F0010, 5), (0x404F0014, 1)] })]
    sys := { running.sys with phase := phase, pins := pins, otp := (List.range 16).map fun k => (k, w32 (leNat ((otp.drop (4 * k)).take 4))) } }
/-- Keeper firmware of 192 bytes, unsigned and signed. -/
def firmwareBody (nonce : Nat) : List Byte :=
  leBytes 4 0x314D524B ++ leBytes 4 1 ++ leBytes 4 192 ++ leBytes 4 nonce ++ leBytes 4 0x4000 ++ leBytes 4 64 ++ leBytes 4 16 ++ leBytes 4 80 ++ leBytes 4 16 ++ leBytes 4 96 ++ leBytes 4 32 ++
    List.replicate 20 0 ++ List.replicate 64 9
def firmwareOf (nonce : Nat) : List Byte := firmwareBody nonce ++ sha256 (firmwareBody nonce) ++ sha256 (firmwareBody nonce)

set_option maxRecDepth 4000 in
/-- The hypotheses of `ResetsBootTestsAndStarts` meet in each of its cases. -/
theorem witness_ResetsBootTestsAndStarts :
    (booting 4 2 [] [] 0).sys.held = false ∧ (reqOf ⟨.keeper, 0⟩).top = true ∧ (reqOf ⟨.pcie, 2⟩).top = false ∧
    State.reset.sys.phase = 1 ∧ State.reset.tap.hold = false ∧
    (booting 5 0 [] [] 0).bootable 0x10 {} = false ∧ (booting 4 2 [] [] 0).cleanFor .keeper 0x10900000 8 ∧ (booting 4 2 [] [] 0).memNat 0x10900000 4 = 0 ∧
    (booting 4 2 [] [] 0).open.signed [] = false ∧
    (booting 15 0 [] [] 0).committing .start ∧ (booting 15 0 [] [] 0).noJob 12 ∧ (booting 15 0 [] [] 0).startable 3 = true ∧
    (booting 15 7 [] [] (2 ^ 24 + 4)).snap .bist 0x40000140 = w32 (2 ^ 24 + 4) ∧ ((booting 15 7 [] [] 0).thread 4 1).run = .stopped ∧
    (booting 15 7 [] [] 0).committing .otp := by
  refine ⟨?_, ?_, ?_, ?_, ?_, ?_, ?_, ?_, ?_, ?_, ?_, ?_, ?_, ?_, ?_⟩ <;> decide
theorem witness_ResetsBootTestsAndStarts_firmware :
    (booting 5 0 [(0x10, { type := 4, data := firmwareOf 1 })] (keyFor (firmwareBody 1)) 0).bootable 0x10 {} = true := by decide +kernel

/-- Thread 1 of engine 3 halted with a held write, named by a commit of DBG_THR, with DAPACC selected and a DBGMODE. -/
def debugging (act mode : Nat) : State :=
  { running with
    thr := [(13, { halted := true, dbgHeld := [(0, 5), (0x104, 0x300)] })]
    sys := { running.sys with otp := [(32, w32 (2 * mode))] }, tap := { ir := 0x10 }
    regs := tset running.regs 0x404F0040 0x103
    com := [(blkCommit .thr, { busy := true, snap := [(0x404F0040, w32 (2 ^ 24 * act + 2 ^ 8 + 3))] })] }

set_option maxRecDepth 2000 in
/-- The hypotheses of `DebugPortAndTestAccess` meet in each of its cases. -/
theorem witness_DebugPortAndTestAccess :
    (debugging 2 0).committing .thr ∧ (debugging 2 0).snap .thr 0x404F0040 = w32 (2 ^ 24 * 2 + 2 ^ 8 * 1 + 3) ∧ ((debugging 2 0).thread 3 1).halted = true ∧
    (∀ c ∈ ((debugging 2 0).thread 3 1).dbgHeld, c.1 % 4 = 0 ∧ (c.1 ≤ 0xC0 ∨ c.1 = 0x104)) ∧
    ((debugging 1 0).open.stg 0x404F0040).toNat % 2 ^ 10 = 2 ^ 8 * 1 + 3 ∧ ((debugging 1 0).open.rg 0x404F0110).getLsbD 31 = false ∧
    (reqOf ⟨.keeper, 0⟩).top = true ∧ (reqOf ⟨.pcie, 2⟩).top = false ∧ (debugging 1 1).sys.held = false ∧
    (tget 0 (debugging 1 1).sys.otp 32).toNat / 2 % 4 = 1 ∧ (tget 0 (debugging 1 3).sys.otp 32).toNat / 2 % 4 = 3 ∧
    (debugging 1 0).cleanFor .dap 0x10000000 4 ∧ (debugging 1 0).writableFor .dap 0x10000000 4 ∧
    blkHas (.tbl 0) 0x41008000 = true ∧ latches 0x41008000 = [] ∧ latched 0x41008000 = false ∧ mtxMap 0x41008000 = .reg 0x41008000 := by
  refine ⟨?_, ?_, ?_, ?_, ?_, ?_, ?_, ?_, ?_, ?_, ?_, ?_, ?_, ?_, ?_, ?_, ?_⟩ <;> decide

/-- The device with commits of every block under way, on staging copies of zeros or of the action named. -/
def endingAll (act : Nat) : State :=
  { running with
    com := ([.tbl 3, .rng 3, .pat 2, .memCfg 2, .slot, .mtx, .cul 3 1, .evr, .tide, .tio 4, .dlk 4, .weir, .flt, .eth 1, .str, .csi 1, .vlt, .start, .bist, .otp, .thr] : List Blk).map fun b =>
      (blkCommit b, { busy := true, seq := 4, snap := [(fltReg, w32 (act * 2 ^ 24)), (vltReg, w32 (act * 2 ^ 24)), (tblReg 3, w32 (act * 2 ^ 24)), (dlkReg 4 + 0x2C, w32 (act * 2 ^ 24)), ((tideReg + 8), w32 (act * 2 ^ 24))] }) }

/-- The hypotheses of `AnyBlocksCommitEnds` meet, for every block and every action. -/
theorem witness_AnyBlocksCommitEnds :
    (∀ b ∈ ([.tbl 3, .rng 3, .pat 2, .memCfg 2, .slot, .mtx, .cul 3 1, .evr, .tide, .tio 4, .dlk 4, .weir, .eth 1, .str, .csi 1, .bist, .otp, .thr] : List Blk),
      blkOk b = true ∧ (endingAll 1).committing b ∧ b ≠ .vlt ∧ b ≠ .flt ∧ b ≠ .start) ∧
    (endingAll 1).floorsMet ∧ (endingAll 1).committing .start ∧ (running.open.cm .slot).busy = false ∧
    (∀ act ∈ [1, 10], (endingAll act).vltAsked act) ∧
    (∀ act ∈ [1, 6], (endingAll act).committing .flt ∧ ((endingAll act).snap .flt fltReg).toNat / 2 ^ 24 % 16 = act) ∧
    (∀ act ∈ [1, 4], ((endingAll act).snap (.tbl 3) (tblReg 3)).toNat / 2 ^ 24 % 16 = act ∧
      ((endingAll act).snap .tide (tideReg + 8)).toNat / 2 ^ 24 % 16 = act) ∧
    (∀ act ∈ [1, 5], ((endingAll act).snap (.dlk 4) (dlkReg 4 + 0x2C)).toNat / 2 ^ 24 % 16 = act) ∧
    (endingAll 1).committing (.dlk 4) ∧ (endingAll 1).committing (.tbl 3) ∧ (endingAll 1).committing .tide := by
  refine ⟨?_, ?_, ?_, ?_, ?_, ?_, ?_, ?_, ?_, ?_, ?_⟩ <;> decide

/-- A state whose queue begins with a command. -/
theorem witness_QueueStepIsExec : ({ running with pending := [.clamp, .bypass] } : State).pending = .clamp :: [.bypass] := by
  decide

/-- A working device and one in reset, without commands. -/
theorem witness_EmptyQueueTicks :
    running.pending = [] ∧ running.sys.held = false ∧ ({ running with sys := { held := true } } : State).sys.held = true := by
  decide

/-- A state with memory in canonical form and a command waiting. -/
theorem witness_EveryStepIsSafe :
    ({ running with mem := { cells := words 0x10000000 [1, 2] }, pending := [.clamp] } : State).inv := by
  unfold State.inv; decide

/-- A command with ill-formed operands: engine 193 does not exist. -/
theorem witness_EveryCommandLeavesTheQueue : (Instr.bundleIssue 193 0 false 0).wellFormed = false ∧ running.inv := by
  refine ⟨by decide, ?_⟩; unfold State.inv; decide

/-- A device in reset, and a command that waits for its release. -/
theorem witness_NothingRunsWhileResetIsAsserted :
    ({ running with sys := { held := true } } : State).sys.held = true ∧ actsInReset (.tideFrameBoundary 0) = false := by
  decide

/-- Operations at the ends of their ranges, and codes that decode. -/
theorem witness_OperationCodesRoundTrip :
    UOp.fits .simd (.simd .mac16 3 7 7 0) = true ∧ UOp.fits .lsu0 (.lsu .ldd 30 15 true) = true ∧
    UOp.fits .ctl (.ctl (.cbr 5) 1) = true ∧ UOp.fits .seq (.tbla 7 2) = true ∧ UOp.fits .evq (.evq .ring 31 0) = true ∧
    decodeOp .lsu0 0x3805 = some (.lsu .ldw 0 3 true) ∧ decodeOp .lsu0 0x13805 = none ∧
    decodeOp .alu0 0x338 = some (.alu .cmpgtu 3) := by decide

/-! ### Well-formedness: an ill-formed command for each check -/

/-- Each of these commands has one operand just outside its range. -/
theorem test_ill_formed_engine_commands :
    ∀ c ∈ ([
       .bundleIssue 193 0 false 0, .bundleIssue 0 4 false 0, .bundleIssue 0 0 false 65536, .operationResult 0 0 14 0,
       .loadResponse 0 0 65536 0 0, .loadResponse 0 0 0 3 0, .storeDrain 0 0 8 0 false,
       .eccWriteback (2 ^ 33), .add 0 0 2 0 0 0, .add 0 0 0 8 0 0, .lea 0 0 16 0, .amod 0 0 0 16 0 0,
       .mulq 0 0 32 0 0, .mac16 0 0 4 0 0 0, .mac16 0 0 0 8 0 0, .mac16 0 0 0 0 8 0, .nars16 0 0 0 8 0,
       .ldd 0 0 0 32 0 false 0, .ldd 0 0 0 1 0 false 0, .acas 0 0 0 32 0 0 0, .cbrEq 0 0 false 0 0 65536,
       .mfc 0 0 32 false, .gate 0 0 256 false, .eval 0 0 16 0, .beat 0 0 16 0, .step 0 0 16 0 0 0,
       .tbla 0 0 0 4, .tbla 0 0 16 0, .send 0 0 4 0 0, .send 0 0 0 8 0, .hvJobComplete 25, .uxOperation 0 0 6 [],
       .registerWrite ⟨.keeper, 4⟩ 0 0] : List Instr), c.wellFormed = false := by
  decide

/-- Each of these commands has one operand just outside its range. -/
theorem test_ill_formed_field_commands :
    ∀ c ∈ ([
       .registerWrite ⟨.engine 192, 0⟩ 0 0, .registerWrite ⟨.culvert 28, 0⟩ 0 0,
       .commitComplete (.tbl 193) {} [], .commitComplete (.rng 193) {} [], .commitComplete (.pat 25) {} [],
       .commitComplete (.memCfg 25) {} [], .commitComplete (.cul 28 0) {} [], .commitComplete (.cul 0 16) {} [],
       .commitComplete (.tio 192) {} [], .commitComplete (.dlk 48) {} [], .commitComplete (.eth 8) {} [],
       .commitComplete (.csi 4) {} [], .tblInstall 193, .patrolStart 25, .bankTransitionDone 0 64,
       .messageArrival 30 0 0 0 false, .messageArrival 0 0 0 32 false, .matrixResponse ⟨.keeper, 0⟩ 64 0 0 [] false,
       .culStart 28 0, .culStart 0 16, .culDoorbell ⟨.keeper, 0⟩ 28 0, .eventDelivery 2048 0 0,
       .eventDelivery 0 193 0, .eventDelivery 0 0 4, .comparatorFire 30, .ppsEdge 4, .tioConfigure 192,
       .tioPush ⟨.keeper, 0⟩ 0 false false 256, .dlkStart 48, .dlkPush ⟨.keeper, 0⟩ 0 false 65536] : List Instr), c.wellFormed = false := by
  decide

/-- Each of these commands has one operand just outside its range. -/
theorem test_ill_formed_block_commands :
    ∀ c ∈ ([
       .thermalTrip 64, .dispatchEntryWrite ⟨.keeper, 0⟩ 24 0 0 0, .dispatchEntryWrite ⟨.keeper, 0⟩ 0 256 0 0,
       .dispatchEntryWrite ⟨.keeper, 0⟩ 0 0 64 0, .supplyWarningEnd 65536 0, .closureComplete 192,
       .closureComplete 255, .closureComplete 280, .pldWdtWrite ⟨.keeper, 0⟩ 0 4 0, .ethConfig 8,
       .ethLinkChange 0 5, .csiCommit 4, .frameStart 0 4 0 0 false, .frameStart 0 0 65536 0 true,
       .csiLine 0 0 64 [] false false, .pcieInbound 0 0 4097 none false false, .pcieEventForward 64,
       .pcieLinkChange 5 0, .pcieLinkChange 0 5, .resetRelease 8 [] [] [] [], .dbgTswWrite ⟨.keeper, 0⟩ 512 0,
       .dapRead (2 ^ 32), .csiPhyError 0 16, .uxOperation 0 0 0 [0, 0, 0, 0, 0],
       .ethLinkChange 0 0, .dbgTswWrite ⟨.keeper, 0⟩ 2 0, .annexPacketError 0] : List Instr), c.wellFormed = false := by
  decide

/-- The largest operands of the same ranges are accepted. -/
theorem test_well_formed :
    ∀ c ∈ ([.bundleIssue 192 3 true 65535, .add 0 0 1 7 0 0, .amod 0 0 15 15 0 0, .tbla 0 0 7 2, .tbla 0 0 15 3,
      .registerWrite ⟨.engine 191, 3⟩ 0 0, .culDoorbell ⟨.culvert 27, 0⟩ 27 0, .closureComplete 191, .closureComplete 256,
      .eventDelivery 2047 192 3, .dlkStart 47, .tioConfigure 191, .ethConfig 7, .csiCommit 3] : List Instr),
      c.wellFormed = true := by
  decide

/-! ### Worked values of the spec -/

/-- 03, *Encoded bundles*: the five lines of the table. -/
theorem test_encoded_bundles :
    decodeWords [0x000786E3, 0x01000040, 0x10000400, 0x0A404000] =
      .moves { long := true, imm := 0x0A40, moves := [{ pred := 3, inv := false, src := .id 97, unit := true, dst := 46 }] } ∧
    decodeWords [0x02948000] =
      .moves { long := false, moves := [{ pred := 0, inv := false, src := .id 10, unit := false, dst := 20 }] } ∧
    decodeWords [0x00018C91, 0x01000040, 0x0016E400, 0x3600C000] =
      .moves { long := true, imm := 0x3600, limm := 24000000
               moves := [{ pred := 0, inv := false, src := .id 99, unit := false, dst := 9 }] } ∧
    decodeWords [0x80000022] = .rep true 8 ∧ decodeWords [0x40008000] = .moves { long := false, moves := [] } := by
  decide

/-- 03 R97, R101: a long bundle that crosses its line, and a REP prefix with a reserved bit, are malformed. -/
theorem test_malformed_bundles :
    decodeBundle 52 [0x000786E3, 0x01000040, 0x10000400, 0x0A404000] = .bad ∧ decodeWords [0x80004022] = .bad := by
  decide

/-- 04, *Operation code fields*: the codes of the text. -/
theorem test_operation_codes :
    decodeOp .alu0 0x2 = some (.alu .sub 0) ∧ decodeOp .alu1 0x338 = some (.alu .cmpgtu 3) ∧
    decodeOp .lsu0 0x3805 = some (.lsu .ldw 0 3 true) ∧ decodeOp .alu0 0x102 = some (.alu .sub 1) ∧
    decodeOp .lsu1 0x43805 = none := by
  decide

/-- 11, *Check values*: the values over the ASCII bytes of the digits 1 to 9. -/
theorem test_check_values :
    (let bs : List Byte := (List.range 9).map fun i => BitVec.ofNat 8 (0x31 + i)
     let chk9 (k seed : Nat) : Nat := checkEnd k (bs.foldl (checkByte k) (seed, none))
     chk9 1 0xFFFFFFFF = 0xE3069283 ∧ chk9 2 0xFFFF = 0x29B1 ∧ chk9 3 0 = 0x09D5) := by
  decide +kernel

/-- The date-code table of 05, *Date-code elements*, as its bytes: header, then ten elements. -/
def dateCode : List Byte :=
  ([0x00020146, 10, 112, 0, 0x00030017, 0, 0, 0, 0x10000001, 0x4C, 0x11001002, 0, 0x10003004, 0x20424220, 0x11007002, 0x401,
    0x10009001, 0x2E, 0x1100A002, 0x201, 0x1000C001, 0x2E, 0x1100D002, 1, 0x1000F002, 0x2320, 0x11011006, 2] : List Nat).flatMap
    (leBytes 4)

/-- 05 R196 to R198 and the worked date code: the table passes its checks and prints the line of the text. -/
theorem test_date_code :
    fmtHeadBad dateCode = false ∧
    (match fmtChecks dateCode 10 with
      | .ok t => t.printString [0x5, 0x00270326, 0x00100000] == "L05 BB 27.03.26 #100000".toList.map fun c => BitVec.ofNat 8 c.toNat
      | .error _ => false) = true := by
  decide +kernel

/-- 04 R142: a following error of 380 counts times a gain of 1.5 gives 570; 04 R143: DIV rounds to zero. -/
theorem test_multiply_and_divide :
    (mulEval .mulq 16 380 0x18000).2 = 570 ∧ (divs (w32i (-7)) 2).q = w32i (-3) := by
  decide

end Sys2Proof.Tests
end

section
/-! SUPPORT. What a step answers, whatever the command: the state that some working state leaves. -/

namespace Sys2Proof.Machine

/-- Every command's meaning is an application of `run` or `runAny`: one case for each constructor, each by unfolding
`exec` on it. -/
theorem exec_leaves (c : Instr) (s : State) : Leaves s (exec c s) := by
  cases c <;> exact ⟨_, rfl⟩

/-- A step answers the state that a working state leaves from `s` without its front command. -/
theorem step_leaves (s : State) : Leaves { s with pending := s.pending.tail } (step s) := by
  cases hq : s.pending with
  | nil =>
    have hs : ({ s with pending := [] } : State) = s := by rw [← hq]
    rw [List.tail_nil, hs, step_nil hq]
    exact Leaves.run _ _ s
  | cons c rest =>
    rw [step_cons hq]
    exact exec_leaves c _

end Sys2Proof.Machine
end

section
/-! SUPPORT. What keeps the commit records: only a write to COMMIT, the end of a commit and a reset of the device touch
them. One lemma for each operation that the work of a commit, or the fault controller after it, can reach. -/

namespace Sys2Proof.Machine

/-! ### Choices and folds -/

@[simp] theorem com_ite (p : Prop) [Decidable p] (a b : W) : (if p then a else b).com = if p then a.com else b.com := by
  split <;> rfl

/-- The commit records of a working state are those of a table. It is a definition of its own, so that the kernel compares
the states in two such statements and does not run them. -/
def W.HasCom (w : W) (t : Tbl Com) : Prop := w.com = t

@[simp] theorem W.hasCom_iff (w : W) (t : Tbl Com) : w.HasCom t ↔ w.com = t := ⟨id, id⟩

/-- What each turn of a fold over the working state does leaves the commit records alone. -/
def KeepsCom {α : Type} (f : W → α → W) : Prop := ∀ w a, (f w a).HasCom w.com

@[simp] theorem keepsCom_iff {α : Type} (f : W → α → W) : KeepsCom f ↔ ∀ w a, (f w a).HasCom w.com := ⟨id, id⟩

@[simp] theorem com_foldl {α : Type} {f : W → α → W} (h : KeepsCom f) (l : List α) (w : W) :
    (l.foldl f w).com = w.com := by
  induction l generalizing w with
  | nil => rfl
  | cons a l ih => rw [List.foldl_cons, ih, (W.hasCom_iff _ _).1 (h w a)]

namespace W.HasCom

variable {w v : W} {t : Tbl Com}

theorem of_com (h : w.com = v.com) (hv : v.HasCom t) : w.HasCom t := (W.hasCom_iff w t).2 (h.trans hv)

theorem ite {p : Prop} [Decidable p] (hw : w.HasCom t) (hv : v.HasCom t) : (if p then w else v).HasCom t := by
  split
  · exact hw
  · exact hv

theorem foldl {α : Type} {f : W → α → W} (hw : w.HasCom t) (hf : KeepsCom f) (l : List α) : (l.foldl f w).HasCom t :=
  .of_com (com_foldl hf l w) hw

theorem setRg (hw : w.HasCom t) (a : Nat) (x : Word) : (w.setRg a x).HasCom t := hw
theorem setDefSeen (hw : w.HasCom t) (b : Bool) : ({ w with defSeen := b } : W).HasCom t := hw
theorem setPort (hw : w.HasCom t) (n : Nat) (x : EthPort) : (w.setPort n x).HasCom t := hw
theorem setUnit (hw : w.HasCom t) (u : Nat) (x : FUnit) : (w.setUnit u x).HasCom t := hw

end W.HasCom

/-! ### Memory -/

@[simp] theorem W.com_wrB (w : W) (a : Nat) (b : Byte) : (w.wrB a b).com = w.com := (rfl)

@[simp] theorem W.com_wrN (w : W) (a : Nat) (bs : List Byte) : (w.wrN a bs).com = w.com := by
  induction bs generalizing w a with
  | nil => rfl
  | cons b bs ih => exact ih (w.wrB a b) (a + 1)

@[simp] theorem W.com_scramble (w : W) (as : List Nat) : (w.scramble as).com = w.com := by
  simp [W.scramble]
@[simp] theorem W.com_undefRegion (w : W) (r : Region) : (w.undefRegion r).com = w.com := (rfl)
@[simp] theorem W.com_zeroRegion (w : W) (r : Region) : (w.zeroRegion r).com = w.com := (rfl)
@[simp] theorem W.com_bump (w : W) (a n : Nat) : (w.bump a n).com = w.com := (rfl)

@[simp] theorem W.com_raise (w : W) (src payload time : Nat) : (w.raise src payload time).com = w.com := by
  simp [W.raise]

@[simp] theorem W.com_raiseNow (w : W) (src payload : Nat) : (w.raiseNow src payload).com = w.com :=
  W.com_raise w src payload w.now

@[simp] theorem W.com_signal (w : W) (cause unit detail : Nat) : (w.signal cause unit detail).com = w.com := (rfl)

@[simp] theorem W.com_dropRec (w : W) (k : Nat) (r : EvRec) : (w.dropRec k r).com = w.com := by simp [W.dropRec]

@[simp] theorem W.com_traceRec (w : W) (p mode kind e t a b : Nat) : (w.traceRec p mode kind e t a b).com = w.com := by
  simp [W.traceRec]

@[simp] theorem W.com_memEvent (w : W) (dom kind bank idx : Nat) : (w.memEvent dom kind bank idx).com = w.com :=
  W.com_raiseNow ..

@[simp] theorem W.com_setEccRaw (w : W) (pa n : Nat) : (w.setEccRaw pa n).com = w.com := (rfl)

@[simp] theorem W.com_setEcc (w : W) (pa n : Nat) : (w.setEcc pa n).com = w.com := by
  unfold W.setEcc; split <;> rfl

@[simp] theorem W.com_bumpEdm (w : W) (pa off : Nat) : (w.bumpEdm pa off).com = w.com := by
  unfold W.bumpEdm; split <;> rfl

@[simp] theorem W.com_countCor (w : W) (pa : Nat) : (w.countCor pa).com = w.com := by
  unfold W.countCor; split <;> simp

@[simp] theorem W.com_countUnc (w : W) (pa : Nat) : (w.countUnc pa).com = w.com := by
  unfold W.countUnc
  split
  · rfl
  · dsimp only; split <;> simp

@[simp] theorem W.com_patTouch (w : W) (pa : Nat) : (w.patTouch pa).1.com = w.com := by
  unfold W.patTouch; split <;> simp

@[simp] theorem W.com_copyDoubles (w : W) (dom n : Nat) : (w.copyDoubles dom n).com = w.com := by
  induction n generalizing w with
  | zero => rfl
  | succ n ih => simp [W.copyDoubles, ih]

@[simp] theorem W.com_reach (w : W) (pa : Nat) : (w.reach pa).com = w.com := by
  unfold W.reach; split <;> simp

@[simp] theorem W.com_borrowed (w : W) (who : Who) (pa : Nat) : (w.borrowed who pa).com = w.com := by
  unfold W.borrowed; split <;> rfl

@[simp] theorem W.com_wrStored (w : W) (pa : Nat) (bs : List Byte) : (w.wrStored pa bs).com = w.com := by
  unfold W.wrStored; split <;> simp

@[simp] theorem W.com_eccTouch (w : W) (pa : Nat) : (w.eccTouch pa).1.com = w.com := by
  unfold W.eccTouch; split <;> simp

@[simp] theorem W.com_rdPiece (w : W) (who : Who) (pa n : Nat) : (w.rdPiece who pa n).1.com = w.com := by
  have h : (((w.reach pa).borrowed who pa).eccTouch pa).1.com = w.com := by simp
  unfold W.rdPiece
  split
  · rfl
  · split <;> rename_i ht <;> rw [ht] at h
    · exact h
    · split <;> exact h

@[simp] theorem W.com_wrPiece (w : W) (who : Who) (pa : Nat) (bs : List Byte) : (w.wrPiece who pa bs).1.com = w.com := by
  unfold W.wrPiece
  split
  · rfl
  · dsimp only; split
    · simp
    · simp
    · split <;> simp

@[simp] theorem W.com_rdPieces (w : W) (who : Who) (l : List (Nat × Nat)) : (w.rdPieces who l).1.com = w.com := by
  induction l generalizing w with
  | nil => rfl
  | cons p r ih =>
    have h := W.com_rdPiece w who p.1 p.2
    unfold W.rdPieces
    split <;> rename_i hp <;> rw [hp] at h
    · simpa using h
    · exact (ih _).trans h

@[simp] theorem W.com_rdMem (w : W) (who : Who) (pa n : Nat) : (w.rdMem who pa n).1.com = w.com := by
  have h := W.com_rdPieces w who (pieces (n + 1) pa n)
  unfold W.rdMem
  split <;> rename_i hp <;> rw [hp] at h <;> exact h

@[simp] theorem W.com_wrPieces (w : W) (who : Who) (l : List (Nat × Nat)) (bs : List Byte) :
    (w.wrPieces who l bs).1.com = w.com := by
  induction l generalizing w bs with
  | nil => rfl
  | cons p r ih =>
    have h := W.com_wrPiece w who p.1 (bs.take p.2)
    unfold W.wrPieces
    split <;> rename_i hp <;> rw [hp] at h
    · exact h
    · exact (ih _ _).trans h

@[simp] theorem W.com_wrMem (w : W) (who : Who) (pa : Nat) (bs : List Byte) : (w.wrMem who pa bs).1.com = w.com := by
  have h := W.com_wrPieces w who (pieces (bs.length + 1) pa bs.length) bs
  unfold W.wrMem
  split <;> rename_i hp <;> rw [hp] at h <;> exact h

@[simp] theorem W.com_rdAt (w : W) (who : Who) (a n : Nat) : (w.rdAt who a n).1.com = w.com := by
  unfold W.rdAt; split <;> simp

@[simp] theorem W.com_wrAt (w : W) (who : Who) (a : Nat) (bs : List Byte) : (w.wrAt who a bs).1.com = w.com := by
  unfold W.wrAt; split <;> simp

/-! ### Culverts -/

@[simp] theorem W.com_culEvent (w : W) (c n : Nat) (st : St) (kind desc : Nat) :
    (w.culEvent c n st kind desc).com = w.com := W.com_raiseNow ..

@[simp] theorem W.com_descWord (w : W) (c a : Nat) (v : Word) : (w.descWord c a v).com = w.com := W.com_wrAt ..

@[simp] theorem W.com_descReport (w : W) (c n : Nat) (st : St) (done : Nat) (check : Option Word) :
    (w.descReport c n st done check).com = w.com := by
  cases check <;> simp [W.descReport]

@[simp] theorem W.com_restFree (w : W) (c : Nat) (x : Chan) (p : Nat) : (w.restFree c x p).com = w.com := by
  simp [W.restFree]

@[simp] theorem W.com_culDisable (w : W) (c n : Nat) : (w.culDisable c n).com = w.com := by simp [W.culDisable]

@[simp] theorem W.com_culReset (w : W) (c : Nat) : (w.culReset c).com = w.com := by simp [W.culReset]

@[simp] theorem W.com_culRequest (w : W) (c n : Nat) (on : Bool) : (w.culRequest c n on).com = w.com := by
  simp [W.culRequest]

/-! ### The slot network -/

@[simp] theorem W.com_netEvent (w : W) (kind node ch index : Nat) : (w.netEvent kind node ch index).com = w.com :=
  W.com_raiseNow ..

@[simp] theorem W.com_netLoss (w : W) (reg kind node ch index : Nat) : (w.netLoss reg kind node ch index).com = w.com := by
  simp [W.netLoss]

@[simp] theorem W.com_dropNoWay (w : W) (key : Nat) : (w.dropNoWay key).com = w.com := by simp [W.dropNoWay]

@[simp] theorem W.com_enterTx (w : W) (node ch : Nat) (f : Flit) : (w.enterTx node ch f).com = w.com := by
  simp [W.enterTx]

@[simp] theorem W.com_drainSluice (w : W) (e n : Nat) : (w.drainSluice e n).com = w.com := by
  induction n generalizing w with
  | zero => rfl
  | succ n ih => unfold W.drainSluice; split <;> simp [ih]

/-! ### Banks and patrols -/

@[simp] theorem W.com_patEnd (w : W) (dom : Nat) : (w.patEnd dom).com = w.com := by simp [W.patEnd]

@[simp] theorem W.com_exhausted (w : W) (dom : Nat) (q : Place) : (w.exhausted dom q).com = w.com := by
  simp [W.exhausted]

@[simp] theorem W.com_repairWord (w : W) (dom : Nat) (q : Place) (bits : List Nat) (bad : Nat) (cols : Bool)
    (tried : List (Nat × Nat)) : (w.repairWord dom q bits bad cols tried).1.com = w.com := by
  simp only [W.repairWord]
  split <;> simp

@[simp] theorem W.com_patFail (dom off : Nat) (c : W × List (Nat × Nat)) (f : Defect) :
    (W.patFail dom off c f).1.com = c.1.com := by
  simp only [W.patFail]
  split
  · rfl
  · split <;> simp

@[simp] theorem W.com_patTest (w : W) (dom off : Nat) (fs : List Defect) : (w.patTest dom off fs).com = w.com := by
  unfold W.patTest
  exact List.foldlRecOn (motive := fun c : W × List (Nat × Nat) => c.1.com = w.com) _ _ rfl fun c hc f _ =>
    (W.com_patFail dom off c f).trans hc

@[simp] theorem W.com_bankTo (w : W) (dom b n : Nat) (zf : Bool) : (w.bankTo dom b n zf).com = w.com := by
  simp only [W.bankTo]
  split
  · rfl
  · split <;> simp

@[simp] theorem W.com_wholeRun (w : W) (dom lo n : Nat) (fs : List BootDefect) : (w.wholeRun dom lo n fs).com = w.com := by
  simp [W.wholeRun]

@[simp] theorem W.com_domRun (w : W) (dom : Nat) (fs : List BootDefect) : (w.domRun dom fs).com = w.com := by
  simp [W.domRun]

/-! ### The Weir and its dispatchers -/

@[simp] theorem W.com_polEvent (w : W) (p kind rest : Nat) : (w.polEvent p kind rest).com = w.com := W.com_raiseNow ..

@[simp] theorem W.com_opChange (w : W) (p b : Nat) : (w.opChange p b).com = w.com := by simp [W.opChange]

@[simp] theorem W.com_raiseFloors (w : W) : w.raiseFloors.com = w.com := by simp [W.raiseFloors]

@[simp] theorem W.com_traceJob (w : W) (p j what : Nat) : (w.traceJob p j what).com = w.com := W.com_traceRec ..

@[simp] theorem W.com_outcome (w : W) (p j kind : Nat) : (w.outcome p j kind).com = w.com := by simp [W.outcome]

@[simp] theorem W.com_endJob (w : W) (p j : Nat) (aborted : Bool) : (w.endJob p j aborted).com = w.com := by
  simp [W.endJob]

@[simp] theorem W.com_jobStopped (w : W) (k : Nat) (aborted : Bool) : (w.jobStopped k aborted).com = w.com := by
  simp [W.jobStopped]

@[simp] theorem W.com_jobUnheld (w : W) (k : Nat) : (w.jobUnheld k).com = w.com := by simp [W.jobUnheld]

/-! ### Engines and threads -/

@[simp] theorem W.com_wdRestart (w : W) (k : Nat) : (w.wdRestart k).com = w.com := (rfl)

@[simp] theorem W.com_engineReset (w : W) (e : Nat) (hold : Bool) : (w.engineReset e hold).com = w.com := by
  simp [W.engineReset]

@[simp] theorem W.com_engineUsed (w : W) (e : Nat) : (w.engineUsed e).com = w.com := by simp [W.engineUsed]

@[simp] theorem W.com_ctlWrite (w : W) (k n ring : Nat) (v : Word) : (w.ctlWrite k n ring v).com = w.com := by
  unfold W.ctlWrite; split <;> simp

@[simp] theorem W.com_tswApply (w : W) (k : Nat) (c : Nat × Word) : (w.tswApply k c).com = w.com := by
  simp [W.tswApply]

@[simp] theorem W.com_unhalt (w : W) (k : Nat) (step : Bool) : (w.unhalt k step).com = w.com := by simp [W.unhalt]

@[simp] theorem W.com_bistOut (w : W) (mask : Nat) : (w.bistOut mask).com = w.com := (rfl)

@[simp] theorem W.com_setSlot (w : W) (e k : Nat) (s : Slot) : (w.setSlot e k s).com = w.com := (rfl)

/-! ### The tide, timed pins and drive links -/

@[simp] theorem W.com_setTide (w : W) (st : Nat) : (w.setTide st).com = w.com := by simp [W.setTide]

@[simp] theorem W.com_pinStatus (w : W) (n kind : Nat) (b : Bool) (tag : Nat) : (w.pinStatus n kind b tag).com = w.com :=
  W.com_raiseNow ..

@[simp] theorem W.com_driveSafe (w : W) (n : Nat) : (w.driveSafe n).com = w.com := by simp [W.driveSafe]

@[simp] theorem W.com_pinHold (w : W) (n : Nat) : (w.pinHold n).com = w.com := by simp [W.pinHold]

@[simp] theorem W.com_pinWithdraw (w : W) (n : Nat) (b : Bool) : (w.pinWithdraw n b).com = w.com := by
  simp [W.pinWithdraw]

@[simp] theorem W.com_pinJoin (w : W) (n : Nat) (b : Bool) : (w.pinJoin n b).com = w.com := by simp [W.pinJoin]

@[simp] theorem W.com_linkRec (w : W) (n k kind c : Nat) (b : Bool) (elem : Nat) :
    (w.linkRec n k kind c b elem).com = w.com := W.com_raise ..

@[simp] theorem W.com_linkWithdraw (w : W) (n : Nat) (b : Bool) : (w.linkWithdraw n b).com = w.com := by
  simp [W.linkWithdraw]

@[simp] theorem W.com_linkJoin (w : W) (n : Nat) (b : Bool) : (w.linkJoin n b).com = w.com := by simp [W.linkJoin]

/-! ### Fault continuity -/

@[simp] theorem W.com_fltEvent (w : W) (kind cause u : Nat) : (w.fltEvent kind cause u).com = w.com := W.com_raiseNow ..

@[simp] theorem W.com_logRec (w : W) (type cause u a b c d : Nat) : (w.logRec type cause u a b c d).com = w.com := by
  simp [W.logRec]

@[simp] theorem W.com_abandon (w : W) (u : Nat) (x : MtxTxn) (target : Nat) : (w.abandon u x target).com = w.com :=
  (W.com_raiseNow ..).trans ((W.com_bump ..).trans (W.com_logRec ..))

@[simp] theorem W.com_closeMtx (w : W) (u : Nat) : (w.closeMtx u).1.com = w.com := by
  simp only [W.closeMtx, com_ite, com_foldl, keepsCom_iff, W.hasCom_iff, W.com_logRec, W.com_abandon, implies_true, ite_self]

@[simp] theorem W.com_closeSides (w : W) (u : Nat) : (w.closeSides u).1.com = w.com := by simp [W.closeSides]

@[simp] theorem W.com_closeNet (w : W) (u : Nat) : (w.closeNet u).1.com = w.com := by simp [W.closeNet]

@[simp] theorem W.com_closeThreads (w : W) (u : Nat) : (w.closeThreads u).1.com = w.com := by
  unfold W.closeThreads
  refine List.foldlRecOn (motive := fun a : W × Nat × Nat => a.1.com = w.com) _ _ rfl fun a ha k _ => ?_
  simpa using ha

/-- The part of a closure that drops an armed join list (14 R560). -/
theorem hasCom_joinDropped {w logged : W} {t : Tbl Com} (h : w.HasCom t) (hl : logged.HasCom t) (p : List Join → Bool) :
    (match w.flt.join with
      | some (es, _) => if p es then { logged with flt := { logged.flt with join := none } } else w
      | none => w : W).HasCom t := by
  split
  · split
    · exact hl
    · exact h
  · exact h

@[simp] theorem W.com_closeUnit (w : W) (u cause : Nat) (byCommit : Bool) : (w.closeUnit u cause byCommit).com = w.com := by
  refine (W.hasCom_iff _ _).1 ?_
  unfold W.closeUnit
  extract_lets _ undiked
  have hUndiked : undiked.com = w.com := by simp [undiked]
  have hThreads := W.com_closeThreads undiked u
  generalize undiked.closeThreads u = threads at hThreads
  obtain ⟨w1, st, rc⟩ := threads
  have hSides := W.com_closeSides w1 u
  dsimp -zeta only at hThreads ⊢
  generalize w1.closeSides u = sides at hSides
  obtain ⟨w2, pn, ln⟩ := sides
  dsimp -zeta only at hSides ⊢
  extract_lets +onlyGivenNames diked _ reset
  have hReset : reset.com = w2.com := by simp [reset, diked]
  have hMtx := W.com_closeMtx reset u
  generalize reset.closeMtx u = mtx at hMtx
  obtain ⟨w3, ab, uk⟩ := mtx
  have hNet := W.com_closeNet w3 u
  dsimp -zeta only at hMtx ⊢
  generalize w3.closeNet u = net at hNet
  obtain ⟨w4, ms⟩ := net
  dsimp -zeta only at hNet ⊢
  have h : w4.HasCom w.com := by rw [W.hasCom_iff, hNet, hMtx, hReset, hSides, hThreads, hUndiked]
  have hLog : (w4.logRec 6 0 u 7 0 0 0).HasCom w.com := by rw [W.hasCom_iff, W.com_logRec]; exact h
  exact (hasCom_joinDropped h hLog _).setUnit _ _
@[simp] theorem W.com_faultAct (w : W) (cause u detail : Nat) : (w.faultAct cause u detail).com = w.com := by
  simp only [W.faultAct]
  split
  · rfl
  · split <;> simp

@[simp] theorem W.com_faults (w : W) : w.faults.com = w.com := by simp [W.faults]

@[simp] theorem W.com_settle (w : W) : w.settle.com = w.com := by simp [W.settle]

/-! ### Access to memory over the buses -/

@[simp] theorem W.com_defaultErr (w : W) (r : Req) (a : Nat) (wr : Bool) : (w.defaultErr r a wr).com = w.com := by
  simp [W.defaultErr]

@[simp] theorem W.com_dmaRd (w : W) (who : Who) (a n : Nat) : (w.dmaRd who a n).1.com = w.com := by
  unfold W.dmaRd
  split
  · simp
  · split <;> rfl
  · split <;> rfl
  · rfl
  · simp

@[simp] theorem W.com_readEffect (w : W) (a : Nat) : (w.readEffect a).com = w.com := by
  have h : ((latches a).foldl (fun w h => { w with lat := tset w.lat h (w.regVal h) }) w).HasCom w.com := by simp
  exact (W.hasCom_iff _ _).1 ((h.setRg a 0).ite (((h.setRg a 0).setDefSeen false).ite ((h.setRg a 0).ite h)))

@[simp] theorem W.com_capPop (w : W) (n : Nat) : (w.capPop n).1.com = w.com := by
  simp only [W.capPop]; split <;> rfl

@[simp] theorem W.com_regRead (w : W) (a : Nat) : (w.regRead a).1.com = w.com := by
  simp only [W.regRead]
  split
  · rfl
  · split
    · simp
    · split
      · rfl
      · split
        · simp
        · simp

@[simp] theorem W.com_busRd (w : W) (r : Req) (a n : Nat) : (w.busRd r a n).1.com = w.com := by
  unfold W.busRd
  split
  · simp
  case h_2 x _ =>
    have h := W.com_regRead w x
    split
    · rfl
    · split
      · rfl
      · split <;> rename_i hr <;> rw [hr] at h <;> exact h
  · split
    · rfl
    · split <;> rfl
  · split <;> simp
  · simp

/-! ### What a culvert channel does when its commit ends -/

@[simp] theorem W.com_camPace (w : W) (n v : Nat) : (w.camPace n v).com = w.com := by simp [W.camPace]

@[simp] theorem W.com_setCctx (w : W) (n v : Nat) (x : CsiCtx) : (w.setCctx n v x).com = w.com := (rfl)

@[simp] theorem W.com_camConsume (w : W) (c ch : Nat) : (w.camConsume c ch).com = w.com := by simp [W.camConsume]

@[simp] theorem W.com_culFault (w : W) (c n a : Nat) (st : St) : (w.culFault c n a st).com = w.com := by
  simp [W.culFault]

@[simp] theorem W.com_culHalted (w : W) (c n : Nat) (atNext : Bool) : (w.culHalted c n atNext).com = w.com := by
  simp [W.culHalted]

@[simp] theorem W.com_culNext (w : W) (c n : Nat) (halt : Bool) : (w.culNext c n halt).com = w.com := by
  simp only [W.culNext]
  have h := W.com_busRd (w.setCh c n { w.ch c n with dbpend := false }) (culReq c n) ((w.ch c n).cur + 4) 4
  split <;> rename_i hr <;> rw [hr] at h
  · simpa using h
  · simpa using h

@[simp] theorem W.com_culEnd (w : W) (c n : Nat) (st : St) (done : Nat) (check : Option Word) :
    (w.culEnd c n st done check).com = w.com := by simp [W.culEnd]

@[simp] theorem W.com_culFetch (w : W) (c n a : Nat) : (w.culFetch c n a).com = w.com := by
  have h := W.com_busRd w (culReq c n) a 64
  simp only [W.culFetch]
  split
  · simp
  · simp
  · split <;> rename_i hr <;> rw [hr] at h
    · simpa using h
    · split
      · simpa using h
      · split <;> simpa using h

/-! ### Reads of tables and plans -/

@[simp] theorem W.com_readFmt (w : W) (who : Who) (a most : Nat) (cls : Option Nat) :
    (w.readFmt who a most cls).1.com = w.com := by
  simp only [W.readFmt]
  split
  · rfl
  · have h := W.com_rdAt w who a 32
    split <;> rename_i w1 r hr <;> rw [hr] at h
    · exact h
    · split
      · exact h
      · split
        · exact h
        · have h2 := W.com_rdAt w1 who a (wdAt r 8)
          split <;> rename_i hr2 <;> rw [hr2] at h2 <;> exact h2.trans h

@[simp] theorem W.com_optFmt (w : W) (a : Word) : (w.optFmt a).1.com = w.com := by
  unfold W.optFmt; split <;> simp

@[simp] theorem W.com_readTab (w : W) (e : Nat) (k : TKind) (a : Word) : (w.readTab e k a).1.com = w.com := by
  have h := W.com_rdAt w (.eng e) a.toNat (if k = .curve then 64 else 32)
  simp only [W.readTab]
  split <;> rename_i w1 r hr <;> rw [hr] at h
  · exact h
  · split
    · exact h
    · split
      · exact h
      · have h2 := W.com_rdAt w1 (.eng e) a.toNat (wdAt r 8)
        split <;> rename_i hr2 <;> rw [hr2] at h2 <;> exact h2.trans h

@[simp] theorem W.com_readPlan (w : W) (a : Nat) (load : Bool) : (w.readPlan a load).1.com = w.com := by
  simp only [W.readPlan]
  split
  · rfl
  · have h := W.com_rdAt w .weir a 64
    split <;> rename_i w1 r hr <;> rw [hr] at h
    · exact h
    · split
      · exact h
      · have h2 := W.com_rdAt w1 .weir a (wdAt r 0x2C)
        split <;> rename_i hr2 <;> rw [hr2] at h2 <;> exact h2.trans h

/-! ### Ethernet ports -/

@[simp] theorem W.com_setQu (w : W) (n i : Nat) (q : EthQ) : (w.setQu n i q).com = w.com := (rfl)

@[simp] theorem W.com_ethFetch (w : W) (n i : Nat) : (w.ethFetch n i).com = w.com := by
  simp only [W.ethFetch]
  split
  · simp
  · split <;> simp

@[simp] theorem W.com_ethEvent (w : W) (n k kind rest : Nat) : (w.ethEvent n k kind rest).com = w.com := W.com_raiseNow ..

@[simp] theorem W.com_ethDown (w : W) (n : Nat) : (w.ethDown n).com = w.com := by simp [W.ethDown]

@[simp] theorem W.com_ethApply (w : W) (n : Nat) (b : List Byte) : (w.ethApply n b).com = w.com := by
  have h : (if (w.port n).link && decide (cfgMode b ≠ cfgMode (w.port n).cfg) then w.ethDown n else w).HasCom w.com := by
    simp
  refine (W.hasCom_iff _ _).1 ((h.setPort n _).ite ((h.setPort n _).foldl (fun v i => ?_) _))
  simp

end Sys2Proof.Machine
end

section
/-! SUPPORT. The work of a commit, block by block: where it succeeds, the commit records are as they were. -/

namespace Sys2Proof.Machine

/-- A commit's work, where it succeeds, leaves the commit records as they were. -/
def WorkKeepsCom (w : W) (r : Except Fin3 (W × Nat)) : Prop := ∀ x, r = .ok x → x.1.com = w.com

namespace WorkKeepsCom

variable {w : W}

theorem error (e : Fin3) : WorkKeepsCom w (.error e) := fun _ h => nomatch h

theorem pure {v : W} (h : v.com = w.com) (i : Nat) : WorkKeepsCom w (pure (v, i)) := by
  intro x hx
  injection hx with hx
  subst hx
  exact h

theorem bind {α : Type} {x : Except Fin3 α} {f : α → Except Fin3 (W × Nat)} (h : ∀ a, x = .ok a → WorkKeepsCom w (f a)) :
    WorkKeepsCom w (x >>= f) := by
  cases x with
  | error e => exact error e
  | ok a => exact h a rfl

/-- What comes after a check of a commit. -/
theorem check {α : Type} {x : Except Fin3 α} {r : Except Fin3 (W × Nat)} (h : WorkKeepsCom w r) :
    WorkKeepsCom w (x >>= fun _ => r) := bind fun _ _ => h

end WorkKeepsCom

theorem tblWork_keepsCom (e : Nat) (w : W) (c : Com) : WorkKeepsCom w (tblWork e w c) := by
  unfold tblWork
  refine .check ?_
  extract_lets kind key s
  split
  · have h := W.com_readTab w e kind (c.get (tblReg e + 4))
    refine .check (.check (.check ?_))
    split
    rename_i v r hr
    rw [hr] at h
    refine .bind fun t _ => ?_
    split
    · exact .pure (by simpa using h) _
    · exact .pure (by simpa using h) _
  · exact .pure (by simp) _
  · exact .check (.pure (by simp) _)
  · exact .check (.pure (by simp) _)

theorem rngWork_keepsCom (e : Nat) (w : W) (c : Com) : WorkKeepsCom w (rngWork e w c) := by
  unfold rngWork
  refine .check (.check (.check ?_))
  extract_lets rd
  have hrd : ∀ (v : W) (a n : Nat) (x : W × List Byte), rd v a n = .ok x → x.1.com = v.com := by
    intro v a n x hx
    have h := W.com_rdAt v (.eng e) a n
    simp only [rd] at hx
    split at hx
    · injection hx with hx; subst hx; rfl
    · split at hx <;> rename_i hr <;> rw [hr] at h
      · injection hx with hx; subst hx; exact h
      · injection hx
  refine .bind fun x1 h1 => .bind fun x2 h2 => .bind fun x3 h3 => .check (.check (.check (.pure ?_ _)))
  simpa using (hrd _ _ _ _ h3).trans ((hrd _ _ _ _ h2).trans (hrd _ _ _ _ h1))

theorem patWork_keepsCom (dom : Nat) (w : W) (c : Com) : WorkKeepsCom w (patWork dom w c) := by
  unfold patWork
  refine .check ?_
  split
  · split
    · exact .pure rfl _
    · split
      · exact .pure (by simp) _
      · exact .pure (by simp) _
  · exact .check (.check (.check (.check (.check (.pure (by simp) _)))))

theorem memCfgWork_keepsCom (dom : Nat) (w : W) (c : Com) : WorkKeepsCom w (memCfgWork dom w c) := by
  unfold memCfgWork
  exact .check (.check (.check (.check (.check (.check (.check (.pure (by simp) _)))))))

theorem slotWork_keepsCom (w : W) (c : Com) : WorkKeepsCom w (slotWork w c) := by
  unfold slotWork
  refine .check ?_
  split
  · exact .pure rfl _
  · have h := W.com_readPlan w (c.get 0x40040004).toNat (decide (wf (c.get 0x40040000) 27 24 = 1))
    refine .check ?_
    split
    rename_i v r hr
    rw [hr] at h
    refine .bind fun p _ => ?_
    split
    · exact .pure (by simpa using h) _
    · exact .pure h _

theorem mtxWork_keepsCom (w : W) (c : Com) : WorkKeepsCom w (mtxWork w c) := by
  unfold mtxWork
  exact .check (.check (.pure (by simp) _))

theorem culWork_keepsCom (c n : Nat) (w : W) (k : Com) : WorkKeepsCom w (culWork c n w k) := by
  unfold culWork
  refine .check (.check ?_)
  split
  · extract_lets y
    split
    · exact .error _
    · exact .pure (by simp) _
  · exact .check (.pure (by simp) _)
  · split
    · exact .pure (by simp) _
    · split
      · exact .pure (by simp) _
      · split
        · exact .pure (by simp) _
        · exact .pure rfl _
  · split
    · exact .pure (by simp) _
    · split
      · exact .pure (by simp) _
      · exact .pure (by simp) _

theorem evrWork_keepsCom (w : W) (c : Com) : WorkKeepsCom w (evrWork w c) := by
  unfold evrWork
  refine .check ?_
  have h := W.com_rdAt w .weir (c.get 0x40020000).toNat (16 * (c.get 0x40020008).toNat)
  split
  rename_i v r hr
  rw [hr] at h
  cases r with
  | error e => exact .error _
  | ok bs =>
    refine .bind fun bs _ => .check (.check (.pure ?_ _))
    simpa using h

theorem tideWork_keepsCom (w : W) (c : Com) : WorkKeepsCom w (tideWork w c) := by
  unfold tideWork
  refine .check ?_
  split
  · exact .check (.pure rfl _)
  · exact .check (.pure rfl _)
  · exact .check (.pure rfl _)
  · exact .check (.pure (by simp) _)
  · exact .check (.pure rfl _)

theorem tioWork_keepsCom (n : Nat) (w : W) (c : Com) : WorkKeepsCom w (tioWork n w c) := by
  unfold tioWork
  refine .check (.check (.check (.check (.check ?_))))
  extract_lets q q' w1 w2 w3 w4
  split
  · split
    · exact .pure (by simp [w4, w3, w2, w1]) _
    · exact .pure (by simp) _
  · exact .pure (by simp) _

theorem dlkWork_keepsCom (n : Nat) (w : W) (c : Com) : WorkKeepsCom w (dlkWork n w c) := by
  unfold dlkWork
  refine .check (.check (.check (.check ?_)))
  split
  · split
    · exact .pure (by simp) _
    · exact .pure (by simp) _
  · exact .pure (by simp) _
  · exact .pure (by simp) _
  · have h1 := W.com_optFmt w (c.get (dlkReg n + 0x1C))
    split
    rename_i v t ht
    rw [ht] at h1
    have h2 := W.com_optFmt v (c.get (dlkReg n + 0x20))
    split
    rename_i u r hr
    rw [hr] at h2
    have h : u.com = w.com := h2.trans h1
    refine .bind fun tr _ => .check ?_
    split
    · exact .pure (by simpa using h) _
    · split
      · exact .pure (by simpa using h) _
      · exact .pure (by simpa using h) _

theorem weirWork_keepsCom (w : W) (c : Com) : WorkKeepsCom w (weirWork w c) := by
  unfold weirWork
  exact .check (.check (.check (.check (.pure rfl _))))

theorem ethWork_keepsCom (n : Nat) (w : W) (c : Com) : WorkKeepsCom w (ethWork n w c) := by
  unfold ethWork
  refine .check ?_
  split
  · refine .check ?_
    extract_lets +onlyGivenNames a
    have h1 := W.com_dmaRd w .eth a 64
    split
    rename_i v r hr
    rw [hr] at h1
    cases r with
    | error e => exact .error _
    | ok h =>
      refine .bind fun hd _ => .check ?_
      have h2 := W.com_dmaRd v .eth a (cfgLen hd)
      split
      rename_i u r hr
      rw [hr] at h2
      have h : u.com = w.com := h2.trans h1
      cases r with
      | error e => exact .error _
      | ok b =>
        refine .bind fun b _ => .check ?_
        split
        · exact .pure (by simpa using h) _
        · exact .pure (by simpa using h) _
  · exact .pure (by simp) _
  · exact .pure (by simp) _

theorem strWork_keepsCom (w : W) (c : Com) : WorkKeepsCom w (strWork w c) := by
  unfold strWork
  refine .check ?_
  have h := W.com_dmaRd w .eth (c.get 0x40400100).toNat (16 * (c.get 0x40400104).toNat)
  split
  rename_i v r hr
  rw [hr] at h
  cases r with
  | error e => exact .error _
  | ok b => exact .bind fun b _ => .check (.pure (by simpa using h) _)

theorem csiWork_keepsCom (n : Nat) (w : W) (c : Com) : WorkKeepsCom w (csiWork n w c) := by
  unfold csiWork
  exact .check (.check (.check (.check (.check (.check (.check (.check (.pure (by simp) _))))))))

theorem bistWork_keepsCom (fs : List BootDefect) (w : W) (c : Com) : WorkKeepsCom w (bistWork fs w c) := by
  unfold bistWork
  refine .check ?_
  split
  · exact .check (.pure (by simp) _)
  · exact .check (.pure (by simp) _)
  · exact .check (.pure (by simp) _)

theorem otpWork_keepsCom (w : W) (c : Com) : WorkKeepsCom w (otpWork w c) := by
  unfold otpWork
  exact .check (.pure rfl _)

theorem thrWork_keepsCom (w : W) (c : Com) : WorkKeepsCom w (thrWork w c) := by
  unfold thrWork
  refine .check ?_
  split
  · exact .error _
  · refine .check ?_
    split
    · exact .pure (by simp) _
    · exact .pure (by simp) _
    · exact .pure (by simp) _

end Sys2Proof.Machine
end

section
/-! SUPPORT. How a commit ends, and COMMIT_COMPLETE beside the commands named after an action (00 R19, R20, R680). -/

namespace Sys2Proof.Machine

/-! ### How a commit ends -/

theorem W.cm_of_com {u v : W} (h : u.com = v.com) (b : Blk) : u.cm b = v.cm b := by rw [Dev.cm, Dev.cm, h]

/-- A working state ends a commit: BUSY is 0 and the outcome is recorded, and where the status is not ST_OK the outcome is
all that changed (00 R20). -/
def EndsCommit (w v : W) (b : Blk) : Prop :=
  ∃ x : Fin3, v.cm b = { w.cm b with busy := false, status := x.st.code, check := x.check, index := x.index } ∧
    (x.st.code ≠ 0 → v = w.finish b x)

theorem W.complete_ends {w : W} {b : Blk} {f : W → Com → Except Fin3 (W × Nat)} (hb : (w.cm b).busy = true)
    (hf : WorkKeepsCom w (f w (w.cm b))) : EndsCommit w (w.complete b f) b := by
  rcases W.complete_cases (f := f) hb with ⟨v, i, hv, hc⟩ | ⟨x, -, hc⟩
  · have hcm : v.cm b = w.cm b := W.cm_of_com (hf _ hv) b
    refine ⟨{ index := i }, ?_, fun h => absurd rfl h⟩
    rw [hc, W.cm_finish, hcm]
  · exact ⟨x, by rw [hc, W.cm_finish], fun _ => hc⟩

/-- What follows a commit's end keeps it one, if it leaves the commit records alone and does nothing after a failure. -/
theorem EndsCommit.andThen {w v u : W} {b : Blk} (h : EndsCommit w v b) (hu : u.com = v.com)
    (hfail : ∀ x : Fin3, x.st.code ≠ 0 → v = w.finish b x → u = v) : EndsCommit w u b := by
  obtain ⟨x, hx, hv⟩ := h
  have hcm : u.cm b = v.cm b := W.cm_of_com hu b
  exact ⟨x, hcm.trans hx, fun hs => (hfail x hs (hv hs)).trans (hv hs)⟩

/-- No polder's floor is above where it runs or goes (13 R505, R506). -/
def Dev.FloorsMet (d : Dev) : Prop := ∀ p < 24, d.floorAhead p ≤ (d.pol p).goal.getD (d.pol p).cur

theorem W.raiseFloors_of_floorsMet {w : W} (h : w.FloorsMet) : w.raiseFloors = w := by
  unfold W.raiseFloors
  split
  · rfl
  · refine List.foldlRecOn (motive := fun v => v = w) _ _ rfl fun v hv p hp => ?_
    have hp24 : p < 24 := List.mem_range.1 hp
    rw [hv]
    exact if_neg fun hc => absurd hc.1 (Nat.not_lt.2 (h p hp24))

theorem W.slotCommit_ends {w : W} (hb : (w.cm .slot).busy = true) (hm : w.FloorsMet) :
    EndsCommit w w.slotCommit .slot := by
  rw [W.slotCommit, if_pos hb]
  refine (W.complete_ends hb (slotWork_keepsCom w _)).andThen (W.com_raiseFloors _) fun x _ hv => ?_
  have hmet : (w.finish .slot x).FloorsMet := hm
  rw [hv, W.raiseFloors_of_floorsMet hmet]

theorem W.memCommit_ends {w : W} {d : Nat} (hb : (w.cm (.memCfg d)).busy = true) :
    EndsCommit w (w.memCommit d) (.memCfg d) := by
  refine (W.complete_ends hb (memCfgWork_keepsCom d w _)).andThen ?_ fun x _ hv => ?_
  · unfold W.memCommit
    dsimp only
    split <;> rfl
  · unfold W.memCommit
    rw [hv]
    exact if_pos (List.filter_eq_self.2 fun b _ => decide_eq_true rfl)

theorem W.tideCommit_ends {w : W} (hb : (w.cm .tide).busy = true) : EndsCommit w w.tideCommit .tide := by
  have h := W.complete_ends hb (tideWork_keepsCom w _)
  have ht : w.tideCommit = if w.tideAction = 1 ∧ ((w.complete .tide tideWork).cm .tide).status = 0 then
      (w.complete .tide tideWork).phaseAfter 6 else w.complete .tide tideWork := by
    simp [W.tideCommit, hb]
  rw [ht]
  refine h.andThen ?_ fun x hs hv => ?_
  · simp [W.phaseAfter]
  · exact if_neg fun hc => hs (by simpa [hv, W.cm_finish] using hc.2)

theorem W.commitDone_ends {w : W} {b : Blk} (m : Med) (fs : List BootDefect) (hb : (w.cm b).busy = true)
    (hv : b ≠ .vlt) (hf : b ≠ .flt) (hs : b ≠ .start) (hm : b = .slot → w.FloorsMet) :
    EndsCommit w (w.commitDone b m fs) b := by
  cases b with
  | tbl e => exact W.complete_ends hb (tblWork_keepsCom e w _)
  | rng e => exact W.complete_ends hb (rngWork_keepsCom e w _)
  | pat d => exact W.complete_ends hb (patWork_keepsCom d w _)
  | memCfg d => exact W.memCommit_ends hb
  | slot => exact W.slotCommit_ends hb (hm rfl)
  | mtx => exact W.complete_ends hb (mtxWork_keepsCom w _)
  | cul c n => exact W.complete_ends hb (culWork_keepsCom c n w _)
  | evr => exact W.complete_ends hb (evrWork_keepsCom w _)
  | tide => exact W.tideCommit_ends hb
  | tio n => exact W.complete_ends hb (tioWork_keepsCom n w _)
  | dlk n => exact W.complete_ends hb (dlkWork_keepsCom n w _)
  | weir => exact W.complete_ends hb (weirWork_keepsCom w _)
  | flt => exact absurd rfl hf
  | eth n => exact W.complete_ends hb (ethWork_keepsCom n w _)
  | str => exact W.complete_ends hb (strWork_keepsCom w _)
  | csi n => exact W.complete_ends hb (csiWork_keepsCom n w _)
  | vlt => exact absurd rfl hv
  | start => exact absurd rfl hs
  | bist => exact W.complete_ends hb (bistWork_keepsCom fs w _)
  | otp => exact W.complete_ends hb (otpWork_keepsCom w _)
  | thr => exact W.complete_ends hb (thrWork_keepsCom w _)

/-! ### COMMIT_COMPLETE -/

theorem exec_commitComplete (s : State) (b : Blk) (med : Med) (fs : List (Nat × Nat × List Nat × Nat)) :
    exec (.commitComplete b med fs) s = run (blkOk b) (fun w => w.commitDone b med (defectsOf fs)) s := rfl

theorem commitComplete_idle {s : State} {b : Blk} (med : Med) (fs : List (Nat × Nat × List Nat × Nat))
    (hok : blkOk b = true) (hb : (s.open.cm b).busy = false) : exec (.commitComplete b med fs) s = .next s := by
  rw [exec_commitComplete, hok]
  by_cases hs : s.sys.held = true
  · exact run_held true hs
  · have hs : s.sys.held = false := Bool.eq_false_iff.2 hs
    rw [run_quiet hs (by rw [W.commitDone_idle hb]; rfl), W.commitDone_idle hb, State.close_open]

theorem commitComplete_ends {s : State} {b : Blk} (med : Med) (fs : List (Nat × Nat × List Nat × Nat))
    (hok : blkOk b = true) (hc : s.committing b) (hv : b ≠ .vlt) (hf : b ≠ .flt) (hst : b ≠ .start)
    (hm : b = .slot → s.floorsMet) :
    ∃ v : W, exec (.commitComplete b med fs) s = .next (s.close v) ∧ EndsCommit s.open v b := by
  obtain ⟨hs, hb⟩ := hc
  refine ⟨_, by rw [exec_commitComplete, hok, run_ok hs], ?_⟩
  refine (W.commitDone_ends med (defectsOf fs) hb hv hf hst hm).andThen (W.com_settle _) fun x _ hx => ?_
  exact W.settle_quiet (by rw [hx]; rfl)

/-! ### Commands named after a commit's action -/

/-- A command runs on the state that it finds, so what its effect does there is all that counts. -/
theorem run_congr {s : State} {f g : W → W} (ok : Bool) (h : f s.open = g s.open) : run ok f s = run ok g s := by
  simp only [run, runW, h]

/-- What the medium does and what a test finds matter to the vault and to the built-in tests alone. -/
theorem W.commitDone_operands (w : W) {b : Blk} (m m' : Med) (fs fs' : List BootDefect) (hv : b ≠ .vlt) (hb : b ≠ .bist) :
    w.commitDone b m fs = w.commitDone b m' fs' := by
  cases b with
  | vlt => exact absurd rfl hv
  | bist => exact absurd rfl hb
  | _ => rfl

theorem commitComplete_eq_commitIf {s : State} {b : Blk} {due : W → Bool} (med : Med)
    (fs : List (Nat × Nat × List Nat × Nat)) (hv : b ≠ .vlt) (hb : b ≠ .bist) (h : due s.open = true) :
    exec (.commitComplete b med fs) s = run (blkOk b) (fun w => w.commitIf b (due w)) s := by
  rw [exec_commitComplete]
  refine run_congr _ ?_
  rw [W.commitIf, if_pos h]
  exact W.commitDone_operands _ _ _ _ _ hv hb

theorem commitComplete_vlt {s : State} {act : Nat} (med : Med) (fs : List (Nat × Nat × List Nat × Nat))
    (h : wf (s.snap .vlt vltReg) 27 24 = act) :
    exec (.commitComplete .vlt med fs) s = run true (fun w => w.vltCommit act med) s := by
  rw [exec_commitComplete]
  exact run_congr _ (congrArg (fun k => s.open.vltCommit k med) h)

end Sys2Proof.Machine
end

section
/-! SUPPORT. A write where no register lies (01 R26), and the threads at reset (02 R80, R88). -/

namespace Sys2Proof.Machine

/-- The vault's register table leaves 0x4C to 0x5F of its block empty, between VLT_RATE and VLT_RETRY0 (16 R625). -/
theorem regKind_vault_gap : regKind 0x404E004C = .bad := by decide

theorem registerWrite_of_regKind_bad {s : State} {a : Nat} (v : Word) (hs : s.sys.held = false) (ha : regKind a = .bad) :
    exec (.registerWrite ⟨.keeper, 0⟩ a v) s = .next { s with resp := { err := some .busError } } := by
  have hw : s.open.cmdWrite (reqOf ⟨.keeper, 0⟩) a v = W.answerWr (s.open, some .busError) := by
    simp [W.cmdWrite, W.regWrite, ha, Dev.diked, reqOf]
  change run true (fun w => w.cmdWrite (reqOf ⟨.keeper, 0⟩) a v) s = _
  rw [run_quiet hs (by rw [hw]; rfl), hw]
  rfl

theorem reset_thread {e t : Nat} (ht : t < 4) :
    State.reset.thread e t =
      if t = 0 then { run := .ready, stk := true, a := [(15, 0x1FF00)], aSh := [(15, 0x1FF00)] }
      else { aSh := [(15, w32 (0x1FF00 - 0x100 * t))] } := by
  have hk : tkey e t % 4 = t := by simp only [tkey]; omega
  change resetThread (tkey e t) = _
  simp only [resetThread, hk]
  split
  · subst t; rfl
  · rfl

theorem reset_cm (b : Blk) : State.reset.open.cm b = {} := rfl

end Sys2Proof.Machine
end

section
/-! THEOREMS. The obligations of 00_scope.md. -/

namespace Sys2Proof
open Machine

/-- Settles O57: the step answers a state that a working state leaves, whose memory is that of `s` after a journal. -/
theorem everyStepIsSafe : Obligations.EveryStepIsSafe := by
  intro s hs
  have keeps : ∀ t, step s = .next t → t.inv := fun t ht =>
    (ht ▸ step_leaves s : Leaves { s with pending := s.pending.tail } (.next t)).mem_wf hs
  obtain ⟨t, ht, hq⟩ := (step_leaves s).pending
  exact ⟨⟨t, ht, keeps t ht, hq⟩, keeps⟩

/-- Refutes O32: the addresses that the vault's commit copies (`blkHas`) run from 0x30 to 0x80 of its block without a
break, but no register lies at 0x4C. There a keeper's write is answered with the bus error and stores nothing, where the
first clause has it acknowledged and stored. -/
theorem not_registersStageAndCommit : ¬ Obligations.RegistersStageAndCommit := by
  intro h
  obtain ⟨stores, -⟩ := h State.reset .vlt 0x404E004C 0 1 rfl rfl
  have stored := stores (by decide) (by decide) (by decide)
  rw [registerWrite_of_regKind_bad 1 rfl regKind_vault_gap] at stored
  injection stored with stored
  exact absurd (congrArg (·.resp.err) stored) (by decide)

/-- Settles O52: a commit ends in its work's effect, which keeps the commit records, or in a failure that the settling of
signals and floors adds nothing to. -/
theorem anyBlocksCommitEnds : Obligations.AnyBlocksCommitEnds := by
  refine ⟨fun s b med fs hok hb => commitComplete_idle med fs hok hb, ?_, ?_, ?_, ?_, ?_, ?_, ?_⟩
  · intro s b med fs hok hc hv hf hst hm
    obtain ⟨v, hv, x, hx, hfail⟩ := commitComplete_ends med fs hok hc hv hf hst hm
    have hcm : (s.close v).open.cm b = v.cm b := rfl
    refine ⟨_, hv, by rw [hcm, hx], by rw [hcm, hx], fun hs => ?_⟩
    rw [hcm, hx] at hs ⊢
    rw [hfail hs]
    rfl
  · intro s med fs _
    exact commitComplete_eq_commitIf (due := fun _ => true) med fs nofun nofun rfl
  · intro s act med fs ⟨_, hact⟩ h1 h10
    have key := commitComplete_vlt med fs hact
    obtain rfl | rfl | rfl | rfl | rfl | rfl | rfl | rfl | rfl | rfl :
        act = 1 ∨ act = 2 ∨ act = 3 ∨ act = 4 ∨ act = 5 ∨ act = 6 ∨ act = 7 ∨ act = 8 ∨ act = 9 ∨ act = 10 := by omega
    all_goals exact key
  · intro s act med fs _ hact h1 h6
    have key := commitComplete_eq_commitIf (due := fun w => decide (w.fltAction = act)) (b := .flt) med fs nofun nofun
      (decide_eq_true hact)
    obtain rfl | rfl | rfl | rfl | rfl | rfl : act = 1 ∨ act = 2 ∨ act = 3 ∨ act = 4 ∨ act = 5 ∨ act = 6 := by omega
    all_goals exact key
  · intro s e act med fs _ _ hact h1 h4
    have key := commitComplete_eq_commitIf (due := fun w => decide (w.tblAction e = act)) (b := .tbl e) med fs nofun nofun
      (decide_eq_true hact)
    obtain rfl | rfl | rfl | rfl : act = 1 ∨ act = 2 ∨ act = 3 ∨ act = 4 := by omega
    all_goals exact key
  · intro s n act med fs _ _ hact h1 h5
    have key := commitComplete_eq_commitIf (due := fun w => decide (w.dlkAction n = act)) (b := .dlk n) med fs nofun nofun
      (decide_eq_true hact)
    obtain rfl | rfl | rfl | rfl | rfl : act = 1 ∨ act = 2 ∨ act = 3 ∨ act = 4 ∨ act = 5 := by omega
    all_goals exact key
  · intro s act med fs _ hact h1 h4
    have key := commitComplete_eq_commitIf (due := fun w => decide (w.tideAction = act)) (b := .tide) med fs nofun nofun
      (decide_eq_true hact)
    obtain rfl | rfl | rfl | rfl : act = 1 ∨ act = 2 ∨ act = 3 ∨ act = 4 := by omega
    all_goals exact key

/-- Settles O55: at reset every table is empty, so every element is as its reset value says. -/
theorem resetLeavesItsValues : Obligations.ResetLeavesItsValues := by
  refine ⟨fun e _ t ht => ?_, rfl, fun b => ?_, rfl, fun _ _ _ _ _ => rfl, fun _ _ _ => rfl, rfl, by decide, rfl, rfl⟩
  · simp only [State.areg, reset_thread ht]
    split
    · exact ⟨rfl, by simp [*], rfl, fun _ => ⟨rfl, rfl⟩, rfl, rfl, rfl, rfl, rfl, rfl⟩
    · exact ⟨rfl, by simp [*], rfl, fun h => absurd h ‹_›, rfl, rfl, rfl, rfl, rfl, rfl⟩
  · rw [reset_cm]
    decide

end Sys2Proof
end

section
/-! SUPPORT. How each command runs, said once for all of them: by `run` or `runAny`, on the operands that are in range. -/

namespace Sys2Proof.Machine

/-- Every command's meaning runs an effect where its operands are well-formed: by `runAny` for those that act while a reset
is asserted, by `run` for the rest. One case for each constructor, each by unfolding `exec`, `wellFormed` and `actsInReset`
on it. -/
theorem exec_runs (c : Instr) (s : State) :
    ∃ f : W → W, exec c s = if actsInReset c = true then runAny c.wellFormed f s else run c.wellFormed f s := by
  cases c <;> exact ⟨_, rfl⟩

/-- On operands outside their ranges a command does nothing, whichever way it runs (notes/assumptions/1). -/
theorem exec_ill {c : Instr} (h : c.wellFormed = false) (s : State) : exec c s = .next s := by
  obtain ⟨f, hf⟩ := exec_runs c s
  rw [hf]
  split
  · exact runAny_ill h s
  · exact run_ill h s

end Sys2Proof.Machine
end

section
/-! THEOREMS. The obligations of 01_machine_view.md. -/

namespace Sys2Proof
open Machine

/-- Settles O56: memory after reset lists no address. -/
theorem resetHasTheInvariant : Obligations.ResetHasTheInvariant := by
  have empty : State.reset.mem = {} := rfl
  unfold Obligations.ResetHasTheInvariant State.inv
  rw [empty]
  rfl

/-- Settles O58: a command answers the state that some working state leaves, which has the queue of `s` and the memory of
`s` after a journal; on ill-formed operands no effect runs. -/
theorem everyCommandLeavesTheQueue : Obligations.EveryCommandLeavesTheQueue := by
  intro c s
  have leaves : Leaves s (exec c s) := exec_leaves c s
  obtain ⟨t, ht, hq⟩ := leaves.pending
  rw [ht] at leaves
  exact ⟨⟨t, ht, hq, leaves.mem_wf⟩, fun ill => exec_ill ill s⟩

end Sys2Proof
end

section
/-! SUPPORT. Two states, and what the model makes of them: a job whose block runs over the end of instruction memory
(03 R115, R118; 09 R325), and a DST with a multiply-accumulate in flight (02 R52; 03 R127; 04 R146). -/

namespace Sys2Proof.Machine

/-- A VERIFY job of thread 0 of engine 0 at ring 0, whose block of five words starts two words before the end of the
engine's instruction memory. -/
def straddlingJob : HvJob := { key := 0, shadow := false, ring := 0, cmd := 2, block := 0x7FF8 }

/-- The booted device with that job alone waiting at the HV of polder 0; memory holds zeros, so that the addresses in the
block are 0. -/
def straddling : State := { State.reset with sys := { phase := 15 }, hv := [(0, [straddlingJob])] }

/-- The five words lie in a row in physical memory, where the next engine's instruction memory follows. -/
theorem straddling_sees_block : straddling.jobSees straddlingJob 1 straddlingJob.block.toNat 20 0x201C7FF8 := by decide

/-- Word `i` of the block as those physical bytes hold it. -/
def straddlingArg (i : Nat) : Nat := (straddling.wordAt (0x201C7FF8 + 4 * i)).toNat

theorem straddling_sees_digest : straddling.jobSees straddlingJob 1 (straddlingArg 2) 32 0x201C0000 := by decide

theorem straddling_sees_key : straddling.jobSees straddlingJob 1 (straddlingArg 3) 64 0x201C0000 := by decide

theorem straddling_sees_signature : straddling.jobSees straddlingJob 1 (straddlingArg 4) 64 0x201C0000 := by decide

/-- The HV reads the block word by word, and the third word's address, 0x8000, leads nowhere. -/
theorem hvJobComplete_straddling :
    exec (.hvJobComplete 0) straddling = .next (straddling.hvDone 0 straddlingJob [] .busError) := rfl

/-- HV.R of a job's bank after the job ended, by its code. -/
theorem hvDone_result (st : St) :
    ((straddling.hvDone 0 straddlingJob [] st).thread 0 0).srcSock false 112 = w32 st.code := rfl

/-- A multiply-accumulate in flight, which is to write X0 and no D register. -/
def macInFlight : Op :=
  { unit := 5, seq := 0, pc := 0, shadow := false
    simd := some { op := .mac16, xa := 0, qd := 0, qa := 0, qb := 0, t := 0 } }

/-- The booted device with thread 0 of engine 0 in stack mode before the instruction 0x5100, DST of D0, with one entry on
its stack and the multiply-accumulate in flight. -/
def multiplying : State :=
  { State.reset with
    sys := { phase := 15 }
    thr := [(0, { resetThread 0 with tos := [1], ops := [macInFlight], seq := 1 })]
    mem := { cells := [(0x201C0001, 0x51)] } }

theorem multiplying_stacked : multiplying.stacked 0 0 0x5100 := by decide

theorem multiplying_ready : multiplying.stackReady 0 0 1 [] 0 := by decide

theorem multiplying_settled : multiplying.settled 0 0 (0, 0) := by decide

/-- A write of a D register is noted in every SIMD operation in flight (`Op.without`), whether that would write the
register or not. -/
theorem stkDst_multiplying_ops {m : State} (h : exec (.stkDst 0 0) multiplying = .next m) :
    (m.thread 0 0).ops = [{ macInFlight with taken := [0] }] := by
  injection h with h
  subst h
  decide

/-- Neither the PC's move, nor the pop, nor the write of D0 alone touches what is in flight. -/
theorem stkIssued_multiplying_ops (v : Word) :
    (multiplying.stkIssued 0 0 2
      ((restacked (multiplying.thread 0 0) 1 []).setD (restacked (multiplying.thread 0 0) 1 []).shadow 0 v)).ops =
      [macInFlight] := rfl

end Sys2Proof.Machine
end

section
/-! THEOREMS. The obligations of 03_bundle_encoding.md. -/

namespace Sys2Proof
open Machine

/-- Refutes O25: `jobSees` asks that the first byte of a job's block leads to memory and that the physical bytes behind it
may be read, not that the addresses behind it lead there. For a block at 0x7FF8 of instruction memory, whose third word is
at 0x8000 where nothing is (09 R325), a VERIFY ends with the bus error, where the second clause has its verdict. -/
theorem not_hashVerifyAndExternalUnits : ¬ Obligations.HashVerifyAndExternalUnits := by
  intro h
  obtain ⟨-, ends, -⟩ := h
  obtain ⟨-, aligned⟩ := ends straddling 0 straddlingJob [] 0x201C7FF8 0 0x201C0000 0x201C0000 0x201C0000
    rfl (by decide) rfl (.inr (.inl rfl))
  obtain ⟨-, verify, -⟩ := aligned (by decide) straddling_sees_block
  have verdict := verify rfl straddling_sees_digest straddling_sees_key straddling_sees_signature
  rw [hvJobComplete_straddling] at verdict
  injection verdict with verdict
  have code := congrArg (fun n => (n.thread 0 0).srcSock false 112) verdict
  simp only [hvDone_result] at code
  split at code
  · exact absurd code (by decide)
  · exact absurd code (by decide)

/-- Refutes O27: the clause on DST to a D register that awaits no result lets only that register change, but the write is
also noted as taken in a multiply-accumulate in flight, which writes no D register. -/
theorem not_stackMemoryAndRegisters : ¬ Obligations.StackMemoryAndRegisters := by
  intro h
  obtain ⟨-, -, -, -, -, -, -, -, -, dst, -⟩ := h multiplying 0 0 0 0 0 0 (by decide) (by decide)
  obtain ⟨m, next, -, thread⟩ := dst multiplying_settled (by decide) multiplying_stacked multiplying_ready
  have ops := congrArg Thread.ops thread
  rw [stkDst_multiplying_ops next] at ops
  have same := ops.trans (stkIssued_multiplying_ops _)
  exact absurd same (by decide)

end Sys2Proof
end

section
/-! SUPPORT. RETG and RETX of a thread that stands before a plain bundle, outside the shadow bank: what issues, and what
each leaves (02 R34; 08 R290, R304, R305, R318). -/

namespace Sys2Proof.Machine

/-! ### The bundle of a return -/

/-- The bundle that `tryCtl` makes for a CTL operation without an operand. -/
def ctlBundle (op : CtlOp) (wide : Bool) : Bundle :=
  { long := wide
    moves := [{ pred := 0, inv := false, src := .imm (w32 (UOp.ctl op 0).code), unit := true, dst := 44 },
              { pred := 0, inv := false, src := .imm 0, unit := true, dst := 46 }] }

/-- What its moves write: CTL.OP, and CTL.T, which triggers. -/
def ctlWrites (op : CtlOp) : Tbl Word := [(ctlOp, w32 (UOp.ctl op 0).code), (ctlT, 0)]

/-- The working state at its trigger: the bundle has issued, CTL.OP holds the code, and the PC has moved on. -/
def W.ctlMoved (w : W) (k : Nat) (op : CtlOp) (wide : Bool) : W :=
  ((w.issueStart k).writeDst k ctlOp (w32 (UOp.ctl op 0).code)).modTh k fun x => x.advance (if wide then 16 else 4)

theorem mergeWrites_ctlBundle (w : W) (k : Nat) (op : CtlOp) (wide : Bool) :
    mergeWrites ((ctlBundle op wide).moves.map fun m => (dstKey m.unit m.dst, w.moveVal k (ctlBundle op wide) m)) []
      false = (ctlWrites op, false) := rfl

theorem W.foldl_writeDst_ctlWrites (w : W) (k : Nat) (op : CtlOp) :
    (ctlWrites op).foldl (fun w c => if isTrig c.1 then w else w.writeDst k c.1 c.2) w =
      w.writeDst k ctlOp (w32 (UOp.ctl op 0).code) := rfl

/-- Its moves read no external unit's result. -/
theorem W.uxErrors_ctlBundle (w : W) (k : Nat) (op : CtlOp) (wide : Bool) :
    w.uxErrors k (ctlBundle op wide).moves = w := by
  simp [W.uxErrors, ctlBundle, upTo, List.range_succ]

/-- It triggers no unit but CTL. -/
theorem W.fireAll_ctlWrites (w : W) (k : Nat) (op : CtlOp) (pc : Word) : w.fireAll k (ctlWrites op) pc = w := by
  simp [W.fireAll, ctlWrites, ctlOp, ctlT, trigOrder, tfind, hvT, ux0, upTo, List.range_succ, W.storeCollision]

/-! ### What holds it -/

/-- A socket write changes the banks alone. -/
theorem Thread.setDst_eq (x : Thread) (sh : Bool) (n : Nat) (v : Word) :
    x.setDst sh n v = { x with nb := (x.setDst sh n v).nb, sb := (x.setDst sh n v).sb } := by
  cases sh <;> rfl

theorem Thread.shadow_setDst (x : Thread) (sh : Bool) (n : Nat) (v : Word) : (x.setDst sh n v).shadow = x.shadow := by
  rw [Thread.setDst_eq]

theorem Thread.dstSock_setDst_same (x : Thread) (sh : Bool) (n : Nat) (v : Word) :
    (x.setDst sh n v).dstSock sh n = v := by
  cases sh <;> simp [Thread.setDst, Thread.dstSock, Thread.setBank, Thread.bankOf]

theorem W.th_writeDst_ctlOp (w : W) (k : Nat) (v : Word) :
    (w.writeDst k ctlOp v).th k = (w.th k).setDst (w.th k).shadow 44 v := by
  simp [W.writeDst, dstRegs, ctlOp]

theorem W.regHold_writeDst_ctlOp (w : W) (k : Nat) (v : Word) (sh : Bool) (r : RegId) :
    (w.writeDst k ctlOp v).regHold k sh r = w.regHold k sh r := by
  unfold W.regHold
  rw [W.th_writeDst_ctlOp, Thread.setDst_eq]

section
variable {op : CtlOp} (hop : op = .retg ∨ op = .retx)
include hop

theorem decodeOp_return : decodeOp .ctl (w32 (UOp.ctl op 0).code) = some (.ctl op 0) := by
  obtain rfl | rfl := hop <;> decide

theorem ctlOf_return : ctlOf (w32 (UOp.ctl op 0).code) = some (op, 0) := by rw [ctlOf, decodeOp_return hop]

theorem early_return : op.early = false := by
  obtain rfl | rfl := hop <;> rfl

theorem ctlForbidden_return (long : Bool) : ctlForbidden false false long op = false := by
  obtain rfl | rfl := hop <;> simp [ctlForbidden]

/-- A return reads A15 at its trigger, and CTL is never busy (04 R131). -/
theorem W.opHolds_return (w : W) (k : Nat) (o t : Word) :
    w.opHolds k .ctl (.ctl op 0) o t = w.regHold k (w.th k).shadow (1, 15) := by
  obtain rfl | rfl := hop <;> simp [W.opHolds, W.opReads, W.regHolds, W.unitBusy]

variable {w : W} {k : Nat} (ha : (w.th k).accs = []) (hs : (w.th k).sbuf = [])
  (hr : w.regHold k (w.th k).shadow (1, 15) = [])
include ha hs hr

theorem W.trigHolds_return : (w.writeDst k ctlOp (w32 (UOp.ctl op 0).code)).trigHolds k (ctlWrites op) = [] := by
  have used (v : Word) : ((w.th k).setDst (w.th k).shadow 44 v).sbUsed = 0 := by
    rw [Thread.setDst_eq]
    simp [Thread.sbUsed, ha, hs]
  have find (n : Nat) : tfind (ctlWrites op) n =
      if 108 = n then some (w32 (UOp.ctl op 0).code) else if 110 = n then some 0 else none := rfl
  simp [W.trigHolds, find, trigOrder, hvT, ux0, upTo, List.range_succ, ctlT, W.th_writeDst_ctlOp, Thread.shadow_setDst,
    used, UnitId.num, Thread.dstSock_setDst_same, decodeOp_return hop, W.opHolds_return hop, W.regHold_writeDst_ctlOp, hr]

/-- Outside a delay slot and a repetition, a return whose A15 is settled issues. -/
theorem W.issueMoves_return (wide : Bool) (hb : (w.th k).br = none) :
    w.issueMoves k (ctlBundle op wide) false false =
      .done (((w.ctlMoved k op wide).fireCtl k (ctlWrites op) (w.th k).pc 0).issueEnd k (w.th k).pc (w.th k).shadow
        (decide (op = .retx))) := by
  have act : (ctlBundle op wide).moves.filter (fun m => (w.th k).getP (w.th k).shadow m.pred != m.inv) =
      (ctlBundle op wide).moves := by simp [ctlBundle, Thread.getP]
  have guards : (ctlBundle op wide).moves.map
      (fun m => if m.pred = 0 then [] else w.regHold k (w.th k).shadow (3, m.pred)) = [[], []] := rfl
  have legal : (ctlBundle op wide).moves.any (fun m => !w.moveLegal m) = false := by
    simp [ctlBundle, W.moveLegal, W.dstLegal]
  have sources : (ctlBundle op wide).moves.map (w.moveHold k) = [[], []] := rfl
  have dests : (ctlBundle op wide).moves.flatMap
      (fun m => (dstRegs (dstKey m.unit m.dst)).flatMap (w.writeHold k (w.th k).shadow)) = [] := rfl
  have code : w.ctlCode k (ctlWrites op) = w32 (UOp.ctl op 0).code := rfl
  have trig : (tfind (ctlWrites op) ctlT).isSome = true := rfl
  have noEarly : earlyReads [[], [], [], []] = [] := rfl
  have long : (ctlBundle op wide).long = wide := rfl
  have imm : (ctlBundle op wide).imm = 0 := rfl
  simp [W.issueMoves, act, guards, legal, sources, dests, mergeWrites_ctlBundle, code, ctlOf_return hop,
    early_return hop, trig, hb, ctlForbidden_return hop, W.foldl_writeDst_ctlWrites, W.trigHolds_return hop ha hs hr,
    blocking, W.uxErrors_ctlBundle, W.fireAll_ctlWrites, W.fireOff, noEarly, long, imm, W.ctlMoved]
  obtain rfl | rfl := hop <;> rfl

end

/-! ### The thread at the trigger -/

@[simp] theorem W.th_bumpIf (w : W) (b : Bool) (a n i : Nat) : (w.bumpIf b a n).th i = w.th i := by
  cases b <;> rfl

@[simp] theorem W.sig_bumpIf (w : W) (b : Bool) (a n : Nat) : (w.bumpIf b a n).sig = w.sig := by
  cases b <;> rfl

@[simp] theorem W.th_bumpOf (w : W) (k a n i : Nat) : (w.bumpOf k a n).th i = w.th i := by
  unfold W.bumpOf
  split <;> rfl

@[simp] theorem W.sig_bumpOf (w : W) (k a n : Nat) : (w.bumpOf k a n).sig = w.sig := by
  unfold W.bumpOf
  split <;> rfl

/-- The bubbles that the other threads of the list owe pass, as `bubbles` has them pass for all four. -/
def W.othersPass (w : W) (k : Nat) (ts : List Nat) : W :=
  ts.foldl (fun w t =>
    if t ≠ k % 4 ∧ (w.th (tkey (k / 4) t)).bub = 1 then w.modTh (tkey (k / 4) t) fun x => { x with bub := 0 } else w) w

theorem W.th_othersPass (w : W) (k : Nat) (ts : List Nat) (h : ∀ t ∈ ts, t < 4) : (w.othersPass k ts).th k = w.th k := by
  induction ts generalizing w with
  | nil => rfl
  | cons t ts ih =>
    have ht : t < 4 := h t (List.mem_cons_self ..)
    have other : t ≠ k % 4 → tkey (k / 4) t ≠ k := by
      simp only [tkey]
      omega
    unfold W.othersPass
    rw [List.foldl_cons]
    refine (ih _ fun u hu => h u (List.mem_cons_of_mem _ hu)).trans ?_
    split
    case isTrue owes => simp [W.th_modTh, other owes.1]
    case isFalse => rfl

theorem W.sig_othersPass (w : W) (k : Nat) (ts : List Nat) : (w.othersPass k ts).sig = w.sig := by
  induction ts generalizing w with
  | nil => rfl
  | cons t ts ih =>
    unfold W.othersPass
    rw [List.foldl_cons]
    exact (ih _).trans (by split <;> rfl)

theorem W.th_bubbles (w : W) (k : Nat) :
    (w.bubbles k).th k = { w.th k with bub := if (w.th k).bub = 1 then 0 else (w.th k).bub } := by
  refine (W.th_othersPass _ k (upTo 4) fun t ht => List.mem_range.1 ht).trans ?_
  by_cases h : (w.th k).bub = 1 <;> simp [h, W.idle]

theorem W.sig_bubbles (w : W) (k : Nat) : (w.bubbles k).sig = w.sig := by
  refine (W.sig_othersPass _ k (upTo 4)).trans ?_
  split <;> simp [W.idle]

theorem W.th_issueStart (w : W) (k : Nat) :
    (w.issueStart k).th k =
      { w.th k with
        bub := if (w.th k).bub = 1 then 0 else (w.th k).bub
        run := .ready, oneMore := false, fence := none, hvSeen := false } := by
  have slot : (w.takesSlot k).th k = (w.bubbles k).th k := by
    unfold W.takesSlot
    simp only [W.th_modEn]
    split <;> simp
  simp [W.issueStart, slot, W.th_bubbles]

theorem W.sig_issueStart (w : W) (k : Nat) : (w.issueStart k).sig = w.sig := by
  unfold W.issueStart W.takesSlot
  simp only [W.modTh_sig, W.sig_bumpOf, W.modEn_sig]
  split <;> simp [W.sig_bubbles]

theorem W.sig_ctlMoved (w : W) (k : Nat) (op : CtlOp) (wide : Bool) : (w.ctlMoved k op wide).sig = w.sig := by
  simp [W.ctlMoved, W.writeDst, W.sig_issueStart]

theorem Thread.advance_plain {x : Thread} (hr : x.rpt = 0) (hb : x.br = none) (size : Nat) :
    x.advance size =
      { x with
        bub := min x.bub 1, latch := none, pc := x.pc + w32 size
        front := frontFrom x.front.tail (x.pc + w32 size) } := by
  simp [Thread.advance, hr, hb]

section
variable {s : State} {e t : Nat} (wide : Bool) (hr : (s.thread e t).rpt = 0) (hb : (s.thread e t).br = none)
include hr hb

/-- At the trigger the thread is as `ctlIssued` says, but for what the end of the bundle changes. -/
theorem State.th_ctlMoved (op : CtlOp) :
    (s.open.ctlMoved (tkey e t) op wide).th (tkey e t) =
      { s.ctlIssued e t (UOp.ctl op 0).code none wide with
        rcLeft := (s.thread e t).rcLeft, halted := (s.thread e t).halted, stepReq := (s.thread e t).stepReq } := by
  have size : w32 (if wide then 16 else 4) = if wide then 16 else 4 := by cases wide <;> rfl
  have bub (n : Nat) : min (if n = 1 then 0 else n) 1 = bubLeft n := by
    unfold bubLeft
    grind
  simp only [W.ctlMoved, W.th_modTh, if_true, W.th_writeDst_ctlOp, W.th_issueStart, State.ctlIssued,
    Thread.setOperands]
  change Thread.advance _ _ = _
  rw [show s.open.th (tkey e t) = s.thread e t from rfl]
  generalize s.thread e t = x at hr hb ⊢
  rw [Thread.advance_plain (by rw [Thread.setDst_eq]; exact hr) (by rw [Thread.setDst_eq]; exact hb), size]
  cases sh : x.shadow <;> simp [Thread.setDst, Thread.setBank, Thread.bankOf, bub, hr, hb, sh]

/-- The trigger starts the operation that CTL.OP names. -/
theorem State.fireCtl_return {op : CtlOp} (hop : op = .retg ∨ op = .retx) (pc : Word) :
    (s.open.ctlMoved (tkey e t) op wide).fireCtl (tkey e t) (ctlWrites op) pc 0 =
      (s.open.ctlMoved (tkey e t) op wide).ctlStart (tkey e t) { pc := pc, cbr := cbrTarget pc 0 } op 0
        ((s.open.ctlMoved (tkey e t) op wide).oSock (tkey e t) .ctl) 0 := by
  have trig : tfind (ctlWrites op) ctlT = some 0 := rfl
  have code : ((s.open.ctlMoved (tkey e t) op wide).th (tkey e t)).dstSock
      ((s.open.ctlMoved (tkey e t) op wide).th (tkey e t)).shadow 44 = w32 (UOp.ctl op 0).code := by
    rw [State.th_ctlMoved wide hr hb op]
    change ((s.thread e t).setDst (s.thread e t).shadow 44 _).dstSock
      ((s.thread e t).setDst (s.thread e t).shadow 44 _).shadow 44 = _
    rw [Thread.shadow_setDst, Thread.dstSock_setDst_same]
  simp only [W.fireCtl, trig, code, ctlOf_return hop]

end

/-! ### The return itself -/

theorem W.ctlStart_retg (w : W) (k : Nat) (c : CtlCtx) (f : Nat) (o t : Word) :
    w.ctlStart k c .retg f o t = w.retg k c.pc := rfl

theorem W.ctlStart_retx (w : W) (k : Nat) (c : CtlCtx) (f : Nat) (o t : Word) :
    w.ctlStart k c .retx f o t = w.retx k c.pc := rfl

/-- What RETG at ring `r` leaves of a thread, from the four words of its frame (08 R290, R309). -/
def Thread.regained (x : Thread) (r : Nat) (f : List Word) : Thread :=
  { (x.setA x.shadow 15 (f.getD 1 0)).retgTs r (f.getD 2 0) with
    ring := wf (f.getD 2 0) 31 30, pc := f.getD 0 0, front := [], rcLeft := 3, rcRing := r }

theorem Thread.excs_regained (x : Thread) (r : Nat) (f : List Word) : (x.regained r f).excs = x.excs := by
  simp only [Thread.regained, Thread.retgTs, Thread.setA]
  split <;> rfl

/-- Without buffered stores nothing drains. -/
theorem W.drained_of_sbuf_nil {w : W} {k : Nat} (h : (w.th k).sbuf = []) : w.drained k = w := by
  simp [W.drained, W.runDown, h]

section
variable {w : W} {k : Nat} {sp : Word} {f : List Word} (hs : (w.th k).sbuf = []) (ha : sp.toNat % 8 = 0)
include hs ha

/-- RETX outside the shadow bank resumes from the three words at A15 (08 R318). -/
theorem W.retx_eq_resume (hsh : (w.th k).shadow = false) (hn : (w.th k).nest = true) (hsp : (w.th k).getA false 15 = sp)
    (hg : w.grants (k / 4) (w.th k).ring kindR sp.toNat 32 = true) (hf : w.hwRead k sp 3 = (w, .ok f)) (pc : Word) :
    w.retx k pc = w.resume k (f.getD 0 0) (f.getD 1 0) (f.getD 2 0) pc (some (sp + 32)) := by
  have pass : ¬(sp.toNat % 8 ≠ 0 ∨ !w.grants (k / 4) (w.th k).ring kindR sp.toNat 32) := by simp [ha, hg]
  simp only [W.retx, W.drained_of_sbuf_nil hs, hsh, hn, hsp, if_neg pass, hf]
  rfl

variable (hsp : (w.th k).getA (w.th k).shadow 15 = sp)
  (hg : w.grants (k / 4) (w.th k).ring kindR sp.toNat 16 = true) (hf : w.hwRead k sp 4 = (w, .ok f))
include hsp hg hf

/-- RETG of a frame without the mark fails (08 R290). -/
theorem W.retg_unmarked (hm : wf (f.getD 3 0) 31 16 ≠ 0x4754) (pc : Word) : w.retg k pc = w.privFault k 4 pc := by
  have pass : ¬(sp.toNat % 8 ≠ 0 ∨ !w.grants (k / 4) (w.th k).ring kindR sp.toNat 16) := by simp [ha, hg]
  simp only [W.retg, W.drained_of_sbuf_nil hs, hsp, if_neg pass, hf, if_pos (Or.inl hm)]

/-- RETG of a frame with the mark, to a ring that is not more privileged, returns (08 R290). -/
theorem W.retg_marked (hm : wf (f.getD 3 0) 31 16 = 0x4754) (hr : (w.th k).ring ≤ wf (f.getD 2 0) 31 30) (pc : Word) :
    w.retg k pc = (w.modTh k fun y => y.regained (w.th k).ring f).traceFlow k 3 (f.getD 0 0).toNat 0 := by
  have pass : ¬(sp.toNat % 8 ≠ 0 ∨ !w.grants (k / 4) (w.th k).ring kindR sp.toNat 16) := by simp [ha, hg]
  have good : ¬(wf (f.getD 3 0) 31 16 ≠ 0x4754 ∨ wf (f.getD 2 0) 31 30 < (w.th k).ring) := by omega
  simp only [W.retg, W.drained_of_sbuf_nil hs, hsp, if_neg pass, hf, if_neg good]
  rfl

end

/-- A return to a ring that is not more privileged, which pops A15 (08 R305, R318). -/
theorem W.resume_pops {w : W} {k : Nat} {sst : Word} (h : (w.th k).ring ≤ wf sst 31 30) (spc srpt pc sp : Word) :
    w.resume k spc sst srpt pc (some sp) =
      (w.setTh k (((w.th k).setA false 15 sp).resume spc sst srpt (w.widthAt k spc.toNat (wbit sst 26)))).traceFlow
        k 3 spc.toNat 0 :=
  if_neg (Nat.not_lt.2 h)

/-- The keepers have no trace (17 R653). -/
theorem W.traceFlow_keepers (w : W) {k : Nat} (h : 768 ≤ k) (kind a b : Nat) : w.traceFlow k kind a b = w := by
  simp [W.traceFlow, Nat.not_lt.2 h]

/-! ### The command -/

/-- The end of a bundle outside the shadow bank: the shadow of a ring change runs out, and a step of the debugger
ends. -/
theorem W.th_issueEnd (w : W) (k : Nat) (pc : Word) (retx : Bool) :
    (w.issueEnd k pc false retx).th k =
      { w.th k with
        rcLeft := (w.th k).rcLeft - 1, halted := (w.th k).halted || (w.th k).stepReq, stepReq := false } := by
  cases h : (w.th k).stepReq <;> simp [W.issueEnd, W.stepped, h]

section
variable {s : State} {e t : Nat} {op : CtlOp} (hop : op = .retg ∨ op = .retx) (hp : s.plain e t)
  (ha : (s.thread e t).accs = []) (hs : (s.thread e t).sbuf = []) (hr : s.settled e t (1, 15)) (wide : Bool)
include hop hp ha hs hr

theorem State.ctlCmd_return :
    s.open.ctlCmd (tkey e t) op 0 none 0 0 wide =
      ((s.open.ctlMoved (tkey e t) op wide).fireCtl (tkey e t) (ctlWrites op) (s.thread e t).pc 0).issueEnd (tkey e t)
        (s.thread e t).pc (s.thread e t).shadow (decide (op = .retx)) := by
  obtain ⟨⟨-, ok, may, turn, due, holds⟩, stk, waits, rpt, br, low, aligned, allows, -⟩ := hp
  have key : tkey e t / 4 = e := by
    have : t < 4 := by simp [thrOk] at ok; exact ok.2
    simp only [tkey]
    omega
  have moves := W.issueMoves_return hop ha hs hr wide br
  simp only [State.thread, State.allows] at *
  have noFault : s.open.pcFault (tkey e t) 4 = none := by simp [W.pcFault, inImem, low, aligned, key, kindX, allows]
  have noTrap : s.open.waitTraps (tkey e t) = none := by simp [W.waitTraps, waits]
  simp only [W.ctlCmd, W.inTurn, turn, W.tryCtl, may, stk, due, holds, noFault, rpt]
  change (match s.open.issueMoves (tkey e t) (ctlBundle op wide) false false with
    | .wait hs => s.open.stall (tkey e t) _ hs | .illegal _ => s.open.illegalBundle (tkey e t) _
    | .done v => _) = _
  rw [moves, noTrap]

/-- What a return leaves that raises no signal. -/
theorem State.run_return (hsh : (s.thread e t).shadow = false) {v : W}
    (hv : (s.open.ctlMoved (tkey e t) op wide).ctlStart (tkey e t)
      { pc := (s.thread e t).pc, cbr := cbrTarget (s.thread e t).pc 0 } op 0
      ((s.open.ctlMoved (tkey e t) op wide).oSock (tkey e t) .ctl) 0 = v) (hq : v.sig = []) :
    run (thrOk e t) (fun w => w.ctlCmd (tkey e t) op 0 none 0 0 wide) s =
      .next (s.close (v.issueEnd (tkey e t) (s.thread e t).pc false (decide (op = .retx)))) := by
  have cmd := State.ctlCmd_return hop hp ha hs hr wide
  obtain ⟨⟨held, ok, -⟩, -, -, rpt, br, -⟩ := hp
  rw [State.fireCtl_return wide rpt br hop, hv, hsh] at cmd
  rw [ok, run_quiet held (by rw [cmd]; exact hq), cmd]

end

end Sys2Proof.Machine
end

section
/-! SUPPORT. A keeper whose A15 leads to the boot ROM: the engine map leads there (09 R325; 17 R635), and reads answer the
ROM's bytes, which the state's memory does not hold. -/

namespace Sys2Proof.Machine

/-- Thread t0 of the keepers in move mode at ring 0, with NEST = 1 and A15 = 0, where the boot ROM lies. -/
def onRom (m : Memory) : State :=
  { thr := [(768, { run := .ready, nest := true, pc := 0x4000 })], sys := { phase := 15 }, mem := m }

/-- Word `i` of the boot ROM. -/
def romWord (i : Nat) : Word := w32 (leNat ((upTo 4).map fun j => Config.romByte (4 * i + j)))

theorem onRom_plain (m : Memory) : (onRom m).plain 192 0 := by
  have last : ((onRom m).open.en (768 / 4)).last = 0 := rfl
  have turn : (onRom m).open.notTurn (tkey 192 0) = false := by simp [W.notTurn, tkey, last, upTo]
  have low : (0x4000 : Word).toNat < 0x8000 := by decide
  have aligned : (0x4000 : Word).toNat % 4 = 0 := by decide
  exact ⟨⟨rfl, rfl, rfl, turn, rfl, rfl⟩, rfl, rfl, rfl, rfl, low, aligned, rfl, .inl rfl⟩

/-- The ROM's bytes count as clean memory that the keepers may read. -/
theorem onRom_spans (m : Memory) {n : Nat} (h : n ≤ 16) : (onRom m).spans 192 0 n 0x100000000 false := by
  have maps : ∀ i < 2, (engReq 192 0).who.map (0 + w32 (8 * i)).toNat = .mem (0x100000000 + 8 * i) := by decide
  have clean : ∀ i < 16, (onRom {}).open.accErr (engReq 192 0).who (0x100000000 + i) false = none ∧
      (onRom {}).sound (0x100000000 + i) := by decide
  exact ⟨fun i hi => maps i (by omega), fun i hi => clean i (by omega)⟩

/-- The working state at the trigger of its return. -/
def romReturn (m : Memory) (op : CtlOp) : W := (onRom m).open.ctlMoved 768 op false

theorem romReturn_th (m : Memory) (op : CtlOp) :
    (romReturn m op).th 768 =
      { (onRom m).ctlIssued 192 0 (UOp.ctl op 0).code none false with rcLeft := 0, halted := false, stepReq := false } :=
  State.th_ctlMoved (s := onRom m) (e := 192) (t := 0) false rfl rfl op

theorem romReturn_sig (m : Memory) (op : CtlOp) : (romReturn m op).sig = [] := W.sig_ctlMoved ..

theorem romReturn_shadow (m : Memory) (op : CtlOp) : ((romReturn m op).th 768).shadow = false := by
  rw [romReturn_th]
  rfl

theorem romReturn_ring (m : Memory) (op : CtlOp) : ((romReturn m op).th 768).ring = 0 := by
  rw [romReturn_th]
  rfl

theorem romReturn_sbuf (m : Memory) (op : CtlOp) : ((romReturn m op).th 768).sbuf = [] := by
  rw [romReturn_th]
  rfl

theorem romReturn_excs (m : Memory) (op : CtlOp) : ((romReturn m op).th 768).excs = [] := by
  rw [romReturn_th]
  rfl

theorem romReturn_sp (m : Memory) (op : CtlOp) : ((romReturn m op).th 768).getA false 15 = 0 := by
  rw [romReturn_th]
  rfl

/-- Ring 0 has no windows (08 R278). -/
theorem romReturn_grants (m : Memory) (op : CtlOp) (a n : Nat) :
    (romReturn m op).grants 192 ((romReturn m op).th 768).ring kindR a n = true := by
  rw [romReturn_ring]
  rfl

/-- What the keepers read at A15 is the ROM, whatever `m` holds there. -/
theorem romReturn_hwRead (m : Memory) (op : CtlOp) {n : Nat} (hn : n = 3 ∨ n = 4) :
    (romReturn m op).hwRead 768 0 n = (romReturn m op, .ok ((upTo n).map romWord)) := by
  obtain rfl | rfl := hn <;> rfl

/-- The ring and the pending exceptions that a return leaves this keeper are those of CTL's effect `v`. -/
theorem run_onRom {m : Memory} {n : State} {op : CtlOp} {v : W} (hop : op = .retg ∨ op = .retx)
    (hv : (romReturn m op).ctlStart 768 { pc := 0x4000, cbr := cbrTarget 0x4000 0 } op 0
      ((romReturn m op).oSock 768 .ctl) 0 = v)
    (hq : v.sig = []) (h : run true (fun w => w.ctlCmd 768 op 0 none 0 0 false) (onRom m) = .next n) :
    (n.thread 192 0).ring = (v.th 768).ring ∧ (n.thread 192 0).excs = (v.th 768).excs := by
  have next := State.run_return hop (onRom_plain m) rfl rfl rfl false rfl hv hq
  have same := next.symm.trans h
  injection same with same
  subst same
  change ((v.issueEnd 768 0x4000 false _).th 768).ring = _ ∧ ((v.issueEnd 768 0x4000 false _).th 768).excs = _
  rw [W.th_issueEnd]
  exact ⟨rfl, rfl⟩

theorem wf_from_30 (x : Word) : wf x 31 30 = x.toNat / 2 ^ 30 := by
  have := x.isLt
  simp only [wf, fld]
  omega

theorem wf_from_16 (x : Word) : wf x 31 16 = x.toNat / 2 ^ 16 := by
  have := x.isLt
  simp only [wf, fld]
  omega

/-- RETX takes the ring from the ROM. -/
theorem exec_retx_onRom {m : Memory} {n : State} (h : exec (.retx 192 0 false) (onRom m) = .next n) :
    (n.thread 192 0).ring = (romWord 1).toNat / 2 ^ 30 := by
  have nest : ((romReturn m .retx).th 768).nest = true := by
    rw [romReturn_th]
    rfl
  have resumes := W.retx_eq_resume (romReturn_sbuf m _) rfl (romReturn_shadow m _) nest (romReturn_sp m _)
    (romReturn_grants m _ _ _) (romReturn_hwRead m .retx (.inl rfl)) 0x4000
  rw [W.resume_pops (by rw [romReturn_ring]; exact Nat.zero_le _), W.traceFlow_keepers _ (Nat.le_refl 768)] at resumes
  have left := (run_onRom (.inr rfl) ((W.ctlStart_retx ..).trans resumes)
    (by rw [W.setTh_sig]; exact romReturn_sig m .retx) h).1
  rw [W.th_setTh, if_pos rfl] at left
  exact left.trans (wf_from_30 (romWord 1))

/-- RETG returns without a fault if and only if the ROM holds the mark. -/
theorem exec_retg_onRom {m : Memory} {n : State} (h : exec (.retg 192 0 false) (onRom m) = .next n) :
    (n.thread 192 0).excs = [] ↔ (romWord 3).toNat / 2 ^ 16 = 0x4754 := by
  have sp : ((romReturn m .retg).th 768).getA ((romReturn m .retg).th 768).shadow 15 = 0 := by
    rw [romReturn_shadow, romReturn_sp]
  have reads := romReturn_hwRead m .retg (.inr rfl)
  rw [← wf_from_16]
  by_cases marked : wf (romWord 3) 31 16 = 0x4754
  · have returns := W.retg_marked (romReturn_sbuf m _) rfl sp (romReturn_grants m _ _ _) reads marked
      (by rw [romReturn_ring]; exact Nat.zero_le _) 0x4000
    rw [W.traceFlow_keepers _ (Nat.le_refl 768)] at returns
    have left := (run_onRom (.inl rfl) ((W.ctlStart_retg ..).trans returns)
      (by rw [W.modTh_sig]; exact romReturn_sig m .retg) h).2
    rw [W.th_modTh, if_pos rfl, Thread.excs_regained] at left
    exact iff_of_true (left.trans (romReturn_excs m _)) marked
  · have fails := W.retg_unmarked (romReturn_sbuf m _) rfl sp (romReturn_grants m _ _ _) reads marked 0x4000
    have left := (run_onRom (.inl rfl) ((W.ctlStart_retg ..).trans fails)
      (by rw [W.privFault, W.fault, W.pend, W.modTh_sig]; exact romReturn_sig m .retg) h).2
    rw [W.privFault, W.fault, W.pend, W.th_modTh, if_pos rfl] at left
    exact iff_of_false (by rw [left]; simp) marked

end Sys2Proof.Machine
end

section
/-! THEOREMS. The obligations of 08_exceptions_rings.md. -/

namespace Sys2Proof
open Machine

/-- Refutes O20: the clauses on RETG read the frame from the state's memory, but at 0x0 the keepers read the boot ROM. With
A15 = 0, memory that is empty there calls for the privilege fault and memory with the mark there for a return, and in both
states RETG does the same, since it reads the same ROM. -/
theorem not_gatesEnterAndReturn : ¬ Obligations.GatesEnterAndReturn := by
  intro h
  have frame (m : Memory) := by
    obtain ⟨-, -, -, read⟩ := h (onRom m) 192 0 0 0 0 0 0x100000000 false (onRom_plain m) (Nat.zero_lt_succ 3)
      (by decide) rfl rfl (fun _ _ => rfl) rfl
    exact read rfl rfl (onRom_spans m (Nat.le_refl 16))
  obtain ⟨fails, -⟩ := frame {}
  obtain ⟨-, returns⟩ := frame { cells := [(0x10000000E, 0x54), (0x10000000F, 0x47)] }
  obtain ⟨n, next, -, thread⟩ := fails (.inl (by decide))
  have unmarked := mt (exec_retg_onRom next).2 (by rw [thread]; simp [Thread.raised])
  obtain ⟨n, next, -, thread⟩ := returns (by decide) (Nat.zero_le _)
  exact unmarked ((exec_retg_onRom next).1 (by rw [thread]; rfl))

/-- Refutes O21: the clause on RETX with NEST reads the frame from the state's memory, but at 0x0 the keepers read the boot
ROM. With A15 = 0, memory that is empty there calls for a return to ring 0 and memory with ring 1 in the frame's SST for one
to ring 1, and in both states RETX goes to the ring that the ROM holds. -/
theorem not_exceptionReturns : ¬ Obligations.ExceptionReturns := by
  intro h
  have ring (m : Memory) : (romWord 1).toNat / 2 ^ 30 = ((onRom m).wordAt 0x100000004).toNat / 2 ^ 30 := by
    obtain ⟨-, -, -, nested⟩ := h (onRom m) 192 0 0x100000000 false (onRom_plain m) (Nat.zero_lt_succ 3) rfl rfl rfl
    obtain ⟨n, next, -, thread⟩ := nested rfl rfl rfl rfl (onRom_spans m (by decide))
    replace thread := thread.trans (if_neg (Nat.not_lt_zero _))
    rw [← exec_retx_onRom next, thread]
    rfl
  have same := (ring {}).symm.trans (ring { cells := [(0x100000007, 0x40)] })
  exact absurd same (by decide)

end Sys2Proof
end

section
/-! SUPPORT. A START whose MEM_PATBASE has a reserved bit above bit 23, and a state that holds one while a run is under way. -/

namespace Sys2Proof.Machine

/-- The reserved bits of MEM_PATBASE belong to check 1 of a START, before all others (09 R361). -/
theorem patWork_start_reservedBase {d : Nat} {w : W} {c : Com} (act : wf (c.get (memReg d + 8)) 27 24 = 1)
    (base : wf (c.get (memReg d)) 31 24 ≠ 0) :
    patWork d w c = .error { st := .badValue, check := 1, index := 0xFFFF } := by
  simp [patWork, act, base, chk, bind, Except.bind]

theorem patrolStart_reservedBase {s : State} {d : Nat} (hs : s.committing (.pat d)) (hd : d ≤ 24)
    (act : wf (s.snap (.pat d) (memReg d + 8)) 27 24 = 1) (base : wf (s.snap (.pat d) (memReg d)) 31 24 ≠ 0) :
    exec (.patrolStart d) s = .next (s.finished (.pat d) .badValue 1 0xFFFF) := by
  obtain ⟨held, busy⟩ := hs
  have ok : domOk d = true := decide_eq_true hd
  have due : decide (s.open.patAction d = 1) = true := decide_eq_true act
  have fails : s.open.commitIf (.pat d) (decide (s.open.patAction d = 1)) =
      s.open.finish (.pat d) { st := .badValue, check := 1, index := 0xFFFF } := by
    rw [due]
    change s.open.complete (.pat d) (patWork d) = _
    rw [W.complete, if_pos busy, patWork_start_reservedBase act base]
  calc exec (.patrolStart d) s
      = run (domOk d) (fun w => w.finish (.pat d) { st := .badValue, check := 1, index := 0xFFFF }) s :=
        run_congr _ fails
    _ = .next (s.finished (.pat d) .badValue 1 0xFFFF) := by
        rw [ok]
        exact run_quiet held rfl

/-- A run is under way in domain 0, and a START of one block at 0x1000000 is in commit. -/
def restarting : State :=
  { patrol := [(0, { st := 1, left := 1, blocks := 1 })]
    com := [(memReg 0 + 0x0C,
      { busy := true, snap := [(memReg 0, 0x1000000), (memReg 0 + 4, 1), (memReg 0 + 8, 0x1000000)] })] }

theorem patrolStart_restarting :
    exec (.patrolStart 0) restarting = .next (restarting.finished (.pat 0) .badValue 1 0xFFFF) :=
  patrolStart_reservedBase ⟨rfl, rfl⟩ (by decide) (by decide) (by decide)

end Sys2Proof.Machine
end

section
/-! THEOREMS. The obligations of 09_memory.md. -/

namespace Sys2Proof
open Machine

/-- Refutes O34: the clause on a START while a run is under way sets no bound to the offset, where the next one does. The
offset 0x1000000 is a multiple of 1,024 with a reserved bit of MEM_PATBASE set, so the commit fails check 1 of R361 before
it comes to check 2. -/
theorem not_patrolsAndBanks : ¬ Obligations.PatrolsAndBanks := by
  intro h
  obtain ⟨commits, -⟩ := h
  obtain ⟨starts, -⟩ := commits restarting 0 0x1000000 1 0 0 false false ⟨rfl, rfl⟩ (by decide) (by decide) (by decide)
    (by decide) (by decide)
  obtain ⟨underWay, -⟩ := starts rfl rfl rfl
  have second := underWay (by decide)
  rw [patrolStart_restarting] at second
  injection second with second
  have check := congrArg (fun n => (n.open.cm (.pat 0)).check) second
  exact absurd check (by decide)

end Sys2Proof
end
